-- ==== Sys2Proof/Word.lean ====
section
/-!
DEFINITION. Words, keys and sparse tables: the plain data that the rest of the model is built from.
Register fields and counts are natural numbers with a stated width; bytes are bit vectors.
-/

namespace Sys2Proof

/-- A byte of a frame payload, of LP5 memory or of endpoint memory. -/
abbrev Byte := BitVec 8

/-- The name of one stored value: what it is (`id`) and which copy of it (`i`, `j`). -/
structure Key where
  id : Nat
  i : Nat
  j : Nat
deriving DecidableEq, Repr

/-- Keys in lexicographic order; the order in which a table lists them. -/
def Key.lt (a b : Key) : Bool :=
  decide (a.id < b.id) || (decide (a.id = b.id) &&
    (decide (a.i < b.i) || (decide (a.i = b.i) && decide (a.j < b.j))))

/-- A sparse table: what it does not list has the table's own default value. -/
abbrev Tab (α : Type) := List (Key × α)

/-- One register field: its key, its width in bits and its reset value. -/
structure Fld where
  key : Key
  width : Nat
  reset : Nat
deriving DecidableEq, Repr

/-- Bits `hi` down to `lo` of a word (R4). -/
def bits (w hi lo : Nat) : Nat := (w / 2 ^ lo) % 2 ^ (hi + 1 - lo)

/-- Bit `n` of a word as a truth value (R4). -/
def bit (w n : Nat) : Bool := bits w n n == 1

/-- A truth value as a one-bit field. -/
def b2n (b : Bool) : Nat := if b then 1 else 0

/-- A word with bit `n` set. -/
def setBit (w n : Nat) : Nat := if bit w n then w else w + 2 ^ n

/-- A word with bit `n` cleared. -/
def clrBit (w n : Nat) : Nat := if bit w n then w - 2 ^ n else w

/-- `ceil (a / b)`. -/
def ceilDiv (a b : Nat) : Nat := (a + b - 1) / b

/-- A signed number held in `w` bits, two's complement. -/
def toSigned (w v : Nat) : Int := if v % 2 ^ w < 2 ^ (w - 1) then (v % 2 ^ w : Int) else (v % 2 ^ w : Int) - 2 ^ w

/-- The `w`-bit two's complement pattern of a signed number. -/
def ofSigned (w : Nat) (v : Int) : Nat := (v % (2 ^ w : Int)).toNat

/-- The word whose bytes are listed least significant first (R5). -/
def leWord : List Byte → Nat
  | [] => 0
  | b :: bs => b.toNat + 256 * leWord bs

/-- The `n` bytes of a word, least significant first (R5). -/
def leBytes : Nat → Nat → List Byte
  | 0, _ => []
  | n + 1, w => BitVec.ofNat 8 w :: leBytes n (w / 256)

end Sys2Proof
end

