-- ==== Sys2Proof/Config.lean ====
section
/-!
DEFINITION. What an implementation fixes and what the manual leaves open.
Tables of reset values come from the manual. A function declared opaque has no body: nothing can be proved about its
values, so a claim that mentions one holds whatever the hardware does there.
-/

namespace Sys2Proof

/-- The two ordering grades of R1. -/
inductive Grade where
  | f
  | s
deriving DecidableEq, Repr

/-- A secret of the key tree, named by how it was derived (R561, R159); its bits are in no master's reach.
`hub` is the fused root, `test` the test root of R568, `zero` an overwritten slot. -/
inductive KeyTerm where
  | hub
  | test
  | zero
  | kdf (parent : KeyTerm) (label : String) (context : List Byte)
deriving DecidableEq, Repr

/-- The fused 256-bit root (R560): free value (assumption 10). -/
opaque Config.hubRoot : Nat

/-- The test root, a ROM constant of the silicon step that the manual does not state (R568). Free value (assumption 10). -/
opaque Config.testRoot : Nat

/-- Egress latency from the placing of a frame's first block to the transmitter pin, in ns, by port code (R54): fixed, and
not stated by the manual. Free value (assumption 212). -/
opaque Config.egressLatency : Nat → Nat

/-- The hub's random source, by number of draw (R165). Free value (assumption 10). -/
opaque Config.random : Nat → Nat

/-- A value the manual leaves open and that is drawn afresh, by number of draw (assumption 11). -/
opaque Config.free : Nat → Nat

/-- Default severity of fault source `i` (Table 18-1). -/
def Config.srcSeverity (i : Nat) : Nat :=
  let b := i % 32
  match i / 32 with
  | 0 => if b % 8 ≤ 3 then 2 else 1
  | 1 => if b % 2 = 0 then 2 else 1
  | 2 => if b = 1 then 2 else if b = 0 || b = 2 || b = 3 || b = 8 || b = 9 || b = 10 then 1 else 0
  | 3 => if b = 20 then 2 else if b ≤ 22 then 1 else 0
  | 4 => if b = 18 || b = 22 then 2 else if b ≤ 23 then 1 else 0
  | 5 => if b = 0 then 1 else 0
  | 6 => if b ≤ 3 then 2 else if b ≤ 9 then 1 else 0
  | 7 => if b = 4 || b = 6 then 3 else if b = 3 then 2 else if b ≤ 5 then 1 else 0
  | _ => 0

/-- Is fault source `i` assigned, or reserved (R541, Table 18-1)? -/
def Config.srcExists (i : Nat) : Bool :=
  let b := i % 32
  match i / 32 with
  | 0 => true
  | 1 => true
  | 2 => decide (b ≤ 11)
  | 3 => decide (b ≤ 23)
  | 4 => decide (b ≤ 23)
  | 5 => decide (b ≤ 2)
  | 6 => decide (b ≤ 10)
  | 7 => decide (b ≤ 7)
  | _ => false

/-- Is `t` an assigned gate target (Table 19-4)? -/
def Config.gateExists (t : Nat) : Bool := decide (t ≤ 0x5A)

/-- Gate word of target `t` after reset (Table 19-5). -/
def Config.gateReset (t : Nat) : Nat :=
  if t ≤ 0x3B then 0x3000C155
  else if t ≤ 0x4F then 0x3000C000
  else if t = 0x50 then 0x3000D555
  else if t = 0x51 then 0x3000C000
  else if t ≤ 0x55 then 0x3000C100
  else if t ≤ 0x58 then 0x3000C400
  else if t = 0x59 then 0x3000C000
  else if t = 0x5A then 0x3000F3FF
  else 0

/-- Admission capacity after reset of the port with code `c + 1`, on a part of the full-speed grade (R300):
exponent in the upper four bits, mantissa in the lower twelve. -/
def Config.admCapReset (c : Nat) : Nat := if c < 4 then 9 * 4096 + 2250 else 7 * 4096 + 2812

/-- One row of Table 15-4, as the fields of CTL_USB_BUF_b. -/
structure BufRow where
  en : Nat
  dev : Nat
  epnum : Nat
  dir : Nat
  offset : Nat
  size : Nat
deriving DecidableEq, Repr

/-- Endpoint buffer `b` after cold reset (Table 15-4); offset and size in units of 64 bytes. -/
def Config.usbBufReset (b : Nat) : BufRow :=
  match b with
  | 0 => ⟨1, 0, 1, 0, 0x00, 16⟩
  | 1 => ⟨1, 0, 1, 1, 0x10, 16⟩
  | 2 => ⟨1, 0, 2, 1, 0x20, 2⟩
  | 3 => ⟨1, 0, 3, 1, 0x22, 16⟩
  | 4 => ⟨1, 0, 4, 1, 0x32, 16⟩
  | 5 => ⟨1, 0, 5, 1, 0x42, 16⟩
  | 6 => ⟨1, 1, 1, 0, 0x52, 16⟩
  | 7 => ⟨1, 1, 1, 1, 0x62, 16⟩
  | 8 => ⟨1, 1, 2, 1, 0x72, 2⟩
  | 9 => ⟨1, 1, 3, 1, 0x74, 16⟩
  | 10 => ⟨1, 1, 4, 1, 0x84, 16⟩
  | _ => ⟨0, 0, 0, 0, 0, 0⟩

end Sys2Proof
end

