-- ==== Sys2Proof/Syntax.lean ====
section
/-!
DEFINITION. The commands the hub takes: one constructor of Instr for each row of spec/opcode_table.json, with the
operands that its rule names, and the data that commands carry (frames, blocks, messages, settings).
-/

namespace Sys2Proof

/-- The header of a node-bus packet (Table 11-7), LEN apart. -/
structure NbHead where
  op : Nat
  ni : Bool
  status : Nat
  tag : Nat
  rlen : Nat
  addr : Nat
deriving DecidableEq, Repr

/-- A tunnel frame: the header of Table 4-9, the extension word and the payload.
`rsv` is the union of the reserved header bits; LEN is the payload's length. A node-bus packet is a frame with `nb`. -/
structure Frame where
  tid : Nat
  gen : Nat
  cls : Nat
  first : Bool := true
  last : Bool := true
  posted : Bool := false
  retry : Bool := false
  late : Bool := false
  ext : Bool := false
  fence : Bool := false
  rev : Bool := false
  seq : Nat := 0
  tag : Nat := 0
  op : Nat := 0
  status : Nat := 0
  rlen : Nat := 0
  addr : Nat := 0
  rsv : Nat := 0
  payload : List Byte := []
  nb : Option NbHead := none
deriving DecidableEq, Repr

/-- Payload length (LEN of Table 4-9). -/
def Frame.len (f : Frame) : Nat := f.payload.length

/-- Stored length S (R236). -/
def Frame.stored (f : Frame) : Nat := 16 + 8 * b2n f.ext + f.len

/-- Buffer cells, and credits, that a frame costs (R236, R131). -/
def Frame.cells (f : Frame) : Nat := ceilDiv f.stored 256

/-- A 66-bit block as it is received (R106): the physical lane it came on, its sync header, and its 64 payload bits,
descrambled (R107). -/
structure Block where
  lane : Nat
  hdr : Nat
  w : Nat
deriving DecidableEq, Repr

/-- A strike micro-frame's event fields (chapter 6). -/
structure Strike where
  chan : Nat
  edge : Nat
  hops : Nat
  tlow : Nat
  stseq : Nat
  toff : Nat
  late : Bool
deriving DecidableEq, Repr

/-- The commands, in the order of spec/opcode_table.json. -/
inductive Instr where
  /-- POWER_ON (R596): cold start; the straps are sampled (R341, R638). -/
  | powerOn (lkind lsnk : Nat) (hbcompat : Bool) (smbadr : Nat)
  /-- FIRMWARE_READY (R596): the self-test's failing regions, and the outcome of LP5 training of a cold start:
  data rate code, second rank and density code, or none where no rate trains. -/
  | firmwareReady (fails : Nat) (lp5 : Option (Nat × Bool × Nat))
  /-- BROWN_OUT (R592): the always-on supply falls below its threshold. -/
  | brownOut (lkind lsnk : Nat) (hbcompat : Bool) (smbadr : Nat)
  /-- SUPPLY_OUT_OF_RANGE (R642). -/
  | supplyOutOfRange (lkind lsnk : Nat) (hbcompat : Bool) (smbadr : Nat)
  /-- RESET_N_LOW (R598, R601). -/
  | resetNLow
  /-- RESET_N_RELEASE (R598, R658). -/
  | resetNRelease
  /-- WARM_RESET (R599): the warm reset that a SYS.RESET or the containment of CORE_WDOG has made due begins. -/
  | warmReset
  /-- ERROR_LINE_RISE (R23): the line of source `i` rises with a DETAIL. -/
  | errorLineRise (i detail : Nat)
  /-- QUENCH (R547): the quench timer of source `i` reaches QPER. -/
  | quench (i : Nat)
  /-- FAULT_N_PULSE_END (R551). -/
  | faultNPulseEnd
  /-- CORE_WDOG (R542). -/
  | coreWdog
  /-- REGION_STATUS_CLEAR (R549): master `m` writes a mask of ones to the status word of region `r`. -/
  | regionStatusClear (m r mask tag : Nat) (posted : Bool)
  /-- REGISTER_WRITE (R43): a direct write of master `m`. -/
  | registerWrite (m addr : Nat) (data : List Byte) (tag : Nat) (posted : Bool)
  /-- QUEUE_COUNTER_READ_CLEAR (R285): a direct read of `n` bytes of the queue counter window. -/
  | queueCounterReadClear (m addr n tag : Nat)
  /-- TICK_BOUNDARY (R61, R69). -/
  | tickBoundary
  /-- TICK_OVERRUN (R67, R68). -/
  | tickOverrun
  /-- STRIKE_SUMMARY_BUILD (R225): task 2. -/
  | strikeSummaryBuild
  /-- STRIKE_SUMMARY_PLACED (R65): the summaries built go ahead of every other band 0 frame. -/
  | strikeSummaryPlaced
  /-- FAULT_COLLECTOR_SWEEP (R555): task 3. -/
  | faultCollectorSweep
  /-- NOTIFICATION_QUEUEING (R61): task 4. -/
  | notificationQueueing
  /-- QUEUE_SAMPLING (R284): task 5. -/
  | queueSampling
  /-- TIME_EXCHANGE_SERVICE (R54): task 6. -/
  | timeExchangeService
  /-- TEMPERING (R194): task 7. -/
  | tempering (foms : List (Nat × Nat × (Nat × Nat) × (Nat × Nat))) (adc : Int × Int × Bool) (trims : List (Nat × Nat × Bool))
  /-- TELEMETRY_MIRROR_SEND (R392): task 8. -/
  | telemetryMirrorSend
  /-- RASTER_FETCH_ACCOUNTING (R61): task 9. -/
  | rasterFetchAccounting
  /-- KEY_ROTATION_PREPARATION (R160): task 10. -/
  | keyRotationPreparation
  /-- TWIOP_COMMAND_SERVICE (R62, R614 to R617): task 11, until the slot ends at 0.8 × P, serves the first command
  of the service order; `done` where it completes in this slot. -/
  | twiopCommandService (done : Bool)
  /-- SERVICE_SLOT_END (R62). -/
  | serviceSlotEnd
  /-- TIME_REQUEST (R55): a time frame of host `m` on tunnel 0x00E that holds a request. -/
  | timeRequest (m : Nat) (payload : List Byte)
  /-- TIME_REPORT (R57): a time frame of host `m` on tunnel 0x00E that holds a report. -/
  | timeReport (m : Nat) (payload : List Byte)
  /-- FRAME_INGRESS (R92): a frame is handed to the hearth at the port with code `c`: of a trunk or line port, the oldest
  that its link layer has reassembled in credit class `k`; of an engine port, `f`, of which the engine has written
  `arrived` cells. -/
  | frameIngress (c k : Nat) (f : Option Frame) (arrived : Nat)
  /-- FENCE_RELEASE (R152): trunk `c`. -/
  | fenceRelease (c : Nat)
  /-- HELD_FRAME_REJUDGE (R245). -/
  | heldFrameRejudge
  /-- HOLD_TIMEOUT (R246): the oldest frame held at ingress `c` in credit class `k` exceeds HOLD_MAX. -/
  | holdTimeout (c k : Nat)
  /-- CT_WAIT_TIMEOUT (R249, R250): the next cell of the frame that queue (`t`, `dir`) cuts through does not come. -/
  | ctWaitTimeout (t dir : Nat)
  /-- SCRUB_SWEEP (R260): what the sweep reads, namely how many tag entries with a single-bit error, and the cells whose
  entry is uncorrectable; and `differ`, the queues whose depth counter an upset has put out of step with their cells. -/
  | scrubSweep (reads : Nat × List Nat) (differ : List Nat)
  /-- EGRESS_SELECT (R275): the egress with code `e` selects and starts a frame; `ecc` says what the buffer reads meet
  (R256 to R259): 0 no error, 1 a corrected one, 2 an uncorrectable cell, 3 an uncorrectable link or tag entry. -/
  | egressSelect (e ecc : Nat)
  /-- BELLOWS_READY (R277, R278): the bellows of queue (`t`, `dir`) is refilled, and the queue's activity follows. -/
  | bellowsReady (t dir : Nat)
  /-- GUARD_EXPIRY (R273): the starvation guard timer of egress `e` reaches GUARD. -/
  | guardExpiry (e : Nat)
  /-- SCH_STARVE (R289). -/
  | schStarve (e : Nat)
  /-- DRAIN_COMPLETE (R86). -/
  | drainComplete (t : Nat)
  /-- DRAIN_TIMEOUT (R86). -/
  | drainTimeout (t : Nat)
  /-- QUARANTINE_END (R86). -/
  | quarantineEnd (t : Nat)
  /-- SIGNAL_DETECT (R179): a signal on a trunk in DOWN that is enabled, and that nothing holds down. -/
  | signalDetect (c : Nat)
  /-- TRAIN_RECEIVED (R177, R179): a TRAIN block with the 64 bits `w` arrives on lane `l`. -/
  | trainReceived (c l w : Nat)
  /-- FOM_MEASUREMENT (R173, R178): the eye of lane `l`, its height in µV and its width in millionths of a UI. -/
  | fomMeasurement (c l : Nat) (eye : Nat × Nat)
  /-- CAP_TIMEOUT (R179). -/
  | capTimeout (c : Nat)
  /-- EQ_TIMEOUT (R179); of a lane that is restored alone, R198: it goes on to its ready phase, or stays retired. -/
  | eqTimeout (c : Nat)
  /-- READY_TIMEOUT (R179, R198). -/
  | readyTimeout (c : Nat)
  /-- LINK_UNIT_RECEIVED (R120 to R123): `blocks` of the stream arrive, and then the LU_END with the fields of Table 4-3 that
  closes the link unit, on the lane and with the sync header that `last` names; no LU_END where it is none. -/
  | linkUnitReceived (c ccls seq : Nat) (fs : Bool) (cnt crc : Nat) (blocks : List Block) (last : Option (Nat × Nat))
  /-- ACK_RECEIVED (R127): an ACK block with NAK 0. -/
  | ackReceived (c k ackSeq : Nat)
  /-- NAK_RECEIVED (R124): an ACK block with NAK 1. -/
  | nakReceived (c k ackSeq nseq : Nat)
  /-- CREDIT_RECEIVED (R132): a CREDIT block. -/
  | creditReceived (c ctl iso rtx blk : Nat)
  /-- CSYNC_RECEIVED (R134): a CSYNC block. -/
  | csyncReceived (c iso blk : Nat)
  /-- PROBE_RECEIVED (R169): a PROBE block. -/
  | probeReceived (c pid : Nat) (resp : Bool)
  /-- ALIGN_RECEIVED (R112): the markers of an ALIGN row; `skew` gives for each lane, by number, the block times by which its
  marker came after the first. -/
  | alignReceived (c : Nat) (skew : List Nat) (restart : Bool) (marks : List Block)
  /-- EIDLE_RECEIVED (R183). -/
  | eidleReceived (c : Nat)
  /-- ACK_PERIOD (R123, R183). -/
  | ackPeriod (c : Nat)
  /-- NAK_RESEND (R123): the link unit asked for has not arrived. -/
  | nakResend (c k : Nat)
  /-- REPLAY_TIMEOUT (R126): the class is replayed as on a NAK. -/
  | replayTimeout (c k : Nat)
  /-- CREDIT_PERIOD (R133, R183). -/
  | creditPeriod (c : Nat)
  /-- CSYNC_PERIOD (R134, R183). -/
  | csyncPeriod (c : Nat)
  /-- LINK_SILENT (R128, R183): no ACK block for 3.0 µs on a trunk in ATTACHED, or on a line that is UP. -/
  | linkSilent (c : Nat)
  /-- LINK_UNIT_BOUNDARY (R129): the transmitter chooses the next link unit; `ecc` says what the buffer reads for it
  meet, as in EGRESS_SELECT. -/
  | linkUnitBoundary (c ecc : Nat)
  /-- IDENT (R165): an attach message of trunk `n` on the tunnel of host index `host`. -/
  | ident (n host : Nat) (payload : List Byte)
  /-- PROOF (R162, R166). -/
  | proof (n : Nat) (payload : List Byte)
  /-- PROOF_TIMEOUT (R162). -/
  | proofTimeout (n : Nat)
  /-- ELECTRICAL_IDLE_ENTRY (R182): the transmit direction has been idle for IDLE_DLY. -/
  | electricalIdleEntry (c : Nat)
  /-- ELECTRICAL_IDLE_EXIT (R184, R185): of the transmitter (`rx` false), or of the receiver; a lane that has not
  regained lock by the restart ALIGN row has a lane fault. -/
  | electricalIdleExit (c : Nat) (rx : Bool) (unlocked : List Nat)
  /-- LOSS_OF_SIGNAL (R186): not preceded by an EIDLE row. -/
  | lossOfSignal (c l : Nat)
  /-- LOSS_OF_LOCK (R186): a lane, and how many of 64 consecutive blocks on it have an invalid sync header. -/
  | lossOfLock (c : Nat) (bad : Nat × Nat)
  /-- LOSS_OF_ALIGNMENT (R112): ALIGN missing or wrong at three expected positions in a row. -/
  | lossOfAlignment (c l : Nat)
  /-- FAILED_EYE (R186): live FOM below FOM_FAIL in three ticks in a row. -/
  | failedEye (c l : Nat)
  /-- SPARE_MISM (R193): rows of the stream in which no two positions carry equal blocks, as runs: the position whose
  block the spare's block equals, none where it equals none, and how many rows in a row. -/
  | spareMism (c : Nat) (rows : List (Option Nat × Nat))
  /-- TEMPER_UNDO (R195): a sync header error within 1,024 rows of a step. -/
  | temperUndo (c l : Nat)
  /-- LANE_RESTORE_SWITCH (R198). -/
  | laneRestoreSwitch (c : Nat)
  /-- TRIG_IN_EDGE (R202): the filtered level of pin `i` becomes `level`; the first sample that saw it was taken
  at `half`, in units of 0.5 ns of forge time. -/
  | trigInEdge (i : Nat) (level : Bool) (half : Nat)
  /-- STRIKE_RECEIVED (R214, R215): a strike row on port `c`, its copies in order of arrival. -/
  | strikeReceived (c : Nat) (copies : List Block)
  /-- STRIKE_ROW_SEND (R210). -/
  | strikeRowSend (c : Nat)
  /-- PULSE_END (R204): WIDTH has passed since the latest event on output `k`. -/
  | pulseEnd (k : Nat)
  /-- PULSE_CROSSING_ACK (R222). -/
  | pulseCrossingAck (ch : Nat)
  /-- SUMMARY_RECONCILE (R227, R228): a summary of trunk `n` that arrived on trunk port `via`. -/
  | summaryReconcile (n via : Nat) (payload : List Byte)
  /-- SUMMARY_TIMEOUT (R231): the limit for the summary of tick `k` of trunk `n`. -/
  | summaryTimeout (n k : Nat)
  /-- CREDIT_STALL (R321): a reliable class of trunk `n` has waited CRD_TMO while its limit did not rise. -/
  | creditStall (n k : Nat)
  /-- RETRAIN_WAIT_EXPIRY (R337): the retrain wait of trunk `n` has passed; training starts once nothing holds it
  back. -/
  | retrainWaitExpiry (n : Nat)
  /-- AUTO_RETURN (R337): trunk `n` has stayed ATTACHED for RET_HOLD boundaries. -/
  | autoReturn (n : Nat)
  /-- TUNNEL_RETURN (R337). -/
  | tunnelReturn (t dir : Nat)
  /-- DEPUTY_TAKEOVER (R335). -/
  | deputyTakeover
  /-- LINE_ATTACH_CONDITION (R349, R347): the attach condition of line port `n` holds, 5 ms after VCONN where the
  cable has Ra; training starts with EN 1 and no retrain wait. -/
  | lineAttachCondition (n : Nat)
  /-- LINE_ATTACH_CONDITION_END (R349): the attach condition of line port `n` has ended, and the port passes to
  DOWN. -/
  | lineAttachConditionEnd (n : Nat)
  /-- NODEINFO (R350, R359, R361): a NODEINFO on line port `n`, as its payload spells it. -/
  | nodeinfo (n : Nat) (payload : List Byte)
  /-- NODE_PROOF (R360): a PROOF of the node on line port `n`, as its payload spells it. -/
  | nodeProof (n : Nat) (payload : List Byte)
  /-- DEPART (R350). -/
  | depart (n : Nat)
  /-- HELLO_TIMEOUT (R350): 10 ms have passed without an answer. -/
  | helloTimeout (n : Nat)
  /-- LINE_RETRAIN_WAIT (R350): LRTR_DLY has passed. -/
  | lineRetrainWait (n : Nat)
  /-- NODE_BUS_RD (R355, R385, R387, R388): the bridge takes the RD `f` of the node on line port `n`, the oldest packet of the
  port at E2. `inTime`: the data of a new fetch is in hand within 1.5 µs. -/
  | nodeBusRd (n : Nat) (f : Frame) (inTime : Bool)
  /-- NODE_BUS_WR (R355, R385, R386): the bridge takes the WR `f`, the oldest packet of line port `n` at E2. -/
  | nodeBusWr (n : Nat) (f : Frame)
  /-- NODE_BUS_PWR (R355, R385, R386): the bridge takes the posted write `f`, the oldest packet of line port `n` at E2. -/
  | nodeBusPwr (n : Nat) (f : Frame)
  /-- NODE_BUS_RESPONSE (R356, R354): the bridge takes the RDRSP or WRRSP `f`, the oldest packet of line port `n` at E2. -/
  | nodeBusResponse (n : Nat) (f : Frame)
  /-- NODE_BUS_TIMEOUT (R357): NB_TMO has passed for the oldest request outstanding on line port `n`. -/
  | nodeBusTimeout (n : Nat)
  /-- STORAGE_READ (R370, R371, R375): the bridge takes the READ `f`, the oldest frame of the storage tunnels at E2. -/
  | storageRead (f : Frame)
  /-- STORAGE_WRITE (R370, R371, R380): the bridge takes the WRITE `f`, the oldest frame of the storage tunnels at E2. -/
  | storageWrite (f : Frame)
  /-- PIECE_COMPLETE (R372, R373): the bridge takes the oldest outcome of a piece. -/
  | pieceComplete
  /-- HOLD_EXPIRY (R377): HOLD_US has passed for the hold entry of tunnel `t`, generation and tag. -/
  | holdExpiry (t gen tag : Nat)
  /-- NODE_HOLD_EXPIRY (R387): NHOLD_US has passed for the node hold entry of line port `n`, address and length. -/
  | nodeHoldExpiry (n addr len : Nat)
  /-- TELEMETRY_UPDATE (R390, R391): the telemetry frame `f`, the oldest that has passed, reaches the mirror store. -/
  | telemetryUpdate (f : Frame)
  /-- LATCH_POINT (R409, R401, R451). -/
  | latchPoint (n : Nat)
  /-- FLIP_ARM (R408): master `m` writes ARM and FLIP_ID of head `n`. -/
  | flipArm (m n id : Nat) (arm : Bool) (tag : Nat) (posted : Bool)
  /-- FLIP_ADDRESS_WRITE (R408): master `m` writes the pending address of plane `p` of head `n`, its high word or
  its low. -/
  | flipAddressWrite (m n p : Nat) (hi : Bool) (v tag : Nat) (posted : Bool)
  /-- PIXEL_PLL_LOCK (R401). -/
  | pixelPllLock (n : Nat)
  /-- UNDERFLOW (R414): the pipeline of head `n` needs a sample of the line in hand that has not arrived. -/
  | underflow (n : Nat)
  /-- RASTER_LINE_SEND (R405, R417, R418): the next segment of the line in hand leaves the pipeline. -/
  | rasterLineSend (n : Nat)
  /-- WITNESS_BAND_COMPARE (R418, R420): `seen` is the witness CRC of the band, or none where it did not come. -/
  | witnessBandCompare (n : Nat) (seen : Option Nat)
  /-- IRQ_HPD (R416): whether the sink reports lost lock, and whether the retraining succeeds. -/
  | irqHpd (d : Nat) (lockLost retrained : Bool)
  /-- HPD_UNPLUG (R416). -/
  | hpdUnplug (d : Nat)
  /-- LP5_ACCESS (R435, R404): a head (client 0 to 7) fetches the next burst of a plane, or the core (client 10)
  reads or writes. The DMA engine and the bridge issue theirs in DMA_MOVE and in the commands of the bridge. -/
  | lp5Access (client plane : Nat) (wr : Bool) (addr len : Nat) (data : List Byte)
  /-- LP5_REFRESH (R432): refresh of one bank, at the interval that the latest MR4 reading requires. -/
  | lp5Refresh (bank : Nat)
  /-- LP5_MR4_READ (R432): the devices read `v` in MR4. -/
  | lp5Mr4Read (v : Nat)
  /-- LP5_ZQ_CALIBRATION (R432). -/
  | lp5ZqCalibration
  /-- LP5_WCK_CHECK (R432): the oscillator reads `osc`, and its timing is corrected in refresh gaps. -/
  | lp5WckCheck (osc : Nat)
  /-- LP5_STATE_ENTRY (R440): the deepest state that the idle time and the tolerances allow. -/
  | lp5StateEntry
  /-- LP5_STATE_EXIT (R441). -/
  | lp5StateExit
  /-- DMA_MOVE (R447 to R449, R451): a MOVE of channel `c`; `ecc` as in LP5_READ_RETURN. -/
  | dmaMove (c ecc : Nat)
  /-- DMA_LOOP (R450). -/
  | dmaLoop (c : Nat)
  /-- DMA_ENDLOOP (R450). -/
  | dmaEndloop (c : Nat)
  /-- DMA_WAIT (R451, R452). -/
  | dmaWait (c : Nat)
  /-- DMA_SIGNAL (R452, R453). -/
  | dmaSignal (c : Nat)
  /-- DMA_FENCE (R454). -/
  | dmaFence (c : Nat)
  /-- DMA_END (R454). -/
  | dmaEnd (c : Nat)
  /-- DMA_WRITE_RESPONSE (R454, R449): the frames of channel `c` that have been admitted have their responses. -/
  | dmaWriteResponse (c : Nat)
  /-- DMA_REQUEST (R451): request line `l` is asserted; lines 104 to 127 never are (Table 14-5). -/
  | dmaRequest (l : Nat)
  /-- DMA_WAIT_TIMEOUT (R452). -/
  | dmaWaitTimeout (c : Nat)
  /-- DOORBELL_START (R456): master `m` writes START to the doorbell of channel `c`. -/
  | doorbellStart (m c tag : Nat) (posted : Bool)
  /-- DOORBELL_STOP (R456): master `m` writes STOP to the doorbell of channel `c`. -/
  | doorbellStop (m c tag : Nat) (posted : Bool)
  /-- USB_BUS_RESET (R481, R463): `during` a control transfer; `hs` where the chirp exchange ends in high speed. -/
  | usbBusReset (bus : Nat) (during hs : Bool)
  /-- USB_SUSPEND (R483). -/
  | usbSuspend (bus : Nat)
  /-- USB_HOST_RESUME (R485): the resume begins, or, `done`, it has completed and the recovery time has passed. -/
  | usbHostResume (bus : Nat) (done : Bool)
  /-- USB_REMOTE_WAKE (R484): device `d` samples the bus; `seenK` where it finds a K. -/
  | usbRemoteWake (d : Nat) (seenK : Bool)
  /-- SET_ADDRESS (R482), its status stage complete. -/
  | setAddress (d a : Nat)
  /-- SET_CONFIGURATION (R470). -/
  | setConfiguration (d v : Nat)
  /-- SET_INTERFACE (R474). -/
  | setInterface (d itf alt : Nat)
  /-- GET_TUNNEL_GEN (R467). -/
  | getTunnelGen
  /-- LOG_SELECT (R473). -/
  | logSelect (d v : Nat)
  /-- SET_PORT_FEATURE_PORT_POWER (R465). -/
  | setPortFeaturePortPower (p : Nat)
  /-- CLEAR_PORT_FEATURE_PORT_POWER (R465). -/
  | clearPortFeaturePortPower (p : Nat)
  /-- SET_PORT_FEATURE_PORT_RESET (R464). -/
  | setPortFeaturePortReset (p : Nat)
  /-- SET_PORT_FEATURE_PORT_SUSPEND (R483). -/
  | setPortFeaturePortSuspend (p : Nat)
  /-- CLEAR_PORT_FEATURE_PORT_SUSPEND (R485). -/
  | clearPortFeaturePortSuspend (p : Nat)
  /-- USB_MANAGEMENT_TRANSFER (R468): a frame on the management function of device `d`, or none where the transfer
  is malformed. -/
  | usbManagementTransfer (d : Nat) (f : Option Frame)
  /-- ISOCHRONOUS_REPORT (R471, R472): whether the firmware has built a new report, and the bytes that a DMA-fed
  buffer holds. -/
  | isochronousReport (rebuilt : Bool) (held : Nat)
  /-- USB_OVER_CURRENT (R466). -/
  | usbOverCurrent (p : Nat)
  /-- VBUS_LOSS (R465): the power region no longer reports VBUS of the port valid. -/
  | vbusLoss (p : Nat)
  /-- SERVICE_SESSION_END (R480): the session's time has run out. -/
  | serviceSessionEnd
  /-- CC_COMBINATION_CHANGE (R491): the wires are 0 open, 1 Ra, 2 Rd, 3 Rp; `vbus` is VBUS above 3.67 V; `rplvl`
  the Rp level that a sink sees. -/
  | ccCombinationChange (n w1 w2 : Nat) (vbus : Bool) (rplvl : Nat)
  /-- CC_DEBOUNCE_EXPIRY (R491, R493): the combination has stood for tCCDebounce. -/
  | ccDebounceExpiry (n : Nat)
  /-- CC_DETACH (R491). -/
  | ccDetach (n : Nat)
  /-- DETACH_IN_TRANSITION (R503). -/
  | detachInTransition (n : Nat)
  /-- ERROR_RECOVERY_END (R491): tErrorRecovery has passed. -/
  | errorRecoveryEnd (n : Nat)
  /-- VCONN_OVER_CURRENT (R494). -/
  | vconnOverCurrent (n : Nat)
  /-- PD_MESSAGE_RECEIVED (R497, R498): SOP type 0 to 4, 6 for a Cable Reset; header, data, and whether its CRC is
  right. -/
  | pdMessageReceived (n sopt hdr : Nat) (data : List Byte) (crcOk : Bool)
  /-- GOODCRC_TIMEOUT (R499). -/
  | goodcrcTimeout (n : Nat)
  /-- HARD_RESET (R504): a Hard Reset signal, `sent` or received. -/
  | hardReset (n : Nat) (sent : Bool)
  /-- HARD_RESET_SOURCE_OFF (R504): tPSHardReset has passed. -/
  | hardResetSourceOff (n : Nat)
  /-- HARD_RESET_RECOVER (R504): tSrcRecover has passed. -/
  | hardResetRecover (n : Nat)
  /-- HARD_RESET_SINK_TIMEOUT (R504): VBUS has not come back within 1.925 s. -/
  | hardResetSinkTimeout (n : Nat)
  /-- FAST_ROLE_SWAP_SIGNAL (R506). -/
  | fastRoleSwapSignal (n : Nat)
  /-- FRS_SOURCE_ON (R506): VBUS has fallen below 4.75 V. -/
  | frsSourceOn (n : Nat)
  /-- FRS_TIMEOUT (R506): 100 ms have passed since the signal. -/
  | frsTimeout (n : Nat)
  /-- FRS_PARTNER_GONE (R507). -/
  | frsPartnerGone (n : Nat)
  /-- EPR_KEEPALIVE_TIMEOUT (R508). -/
  | eprKeepaliveTimeout (n : Nat)
  /-- POLICY_TIMER_EXPIRY (R509): one-shot timer `t` of the port. -/
  | policyTimerExpiry (n t : Nat)
  /-- CC_POLL_WINDOW (R589): in ember the port presents its termination for 1 ms; `seen` where a partner answers. -/
  | ccPollWindow (n : Nat) (seen : Bool)
  /-- FEED_HEALTH_CHANGE (R518, R519): what the samples of feed `f` say now; `excess` where it is above OV. -/
  | feedHealthChange (f : Nat) (healthy excess : Bool)
  /-- FEED_INRUSH_END (R519). -/
  | feedInrushEnd (f : Nat)
  /-- DEAD_TIME_EXPIRY (R519, R520). -/
  | deadTimeExpiry
  /-- FEED_REVERT (R519): the primary feed has been healthy for REVERT. -/
  | feedRevert
  /-- FEED_GATE_FAIL (R519). -/
  | feedGateFail
  /-- FEED_BAR_EXPIRY (R518): 1 s has passed since the trip of feed `f`. -/
  | feedBarExpiry (f : Nat)
  /-- FEED_NONE (R521): the selection has stayed NONE for 1 ms. -/
  | feedNone
  /-- FEED_WARN (R522). -/
  | feedWarn
  /-- FEED_WARN_RELEASE (R522). -/
  | feedWarnRelease
  /-- SEATING_DEBOUNCE (R523): both seating pins of slot port `n` have been low for SEAT_DB. -/
  | seatingDebounce (n : Nat)
  /-- INSERTION_DELAY (R523): presence and the voltage window of slot port `n` have held for INS_DLY. -/
  | insertionDelay (n : Nat)
  /-- START_REQUEST (R523, R525). -/
  | startRequest (n : Nat)
  /-- BUDGET_ADMIT (R525, R526): one microsecond; the channels with a new sample, each with its code, none by default. -/
  | budgetAdmit (samples : List (Nat × Nat) := [])
  /-- STAGE_REMOVAL (R524): the start condition of slot port `n` ends; whether it reads seated and present after
  it. -/
  | stageRemoval (n : Nat) (seated pres : Bool)
  /-- INRUSH_END (R527). -/
  | inrushEnd (n : Nat)
  /-- INRUSH_TIMEOUT (R527, Table 17-2): T_INR has passed on path `p`. -/
  | inrushTimeout (p : Nat)
  /-- BREAKER_TRIP (R530): a timer of the curve reaches its limit; in inrush the curve is not evaluated (R527). -/
  | breakerTrip (p : Nat)
  /-- INSTANT_TRIP (R531): `curve` where the curve trips on the same cycle. -/
  | instantTrip (p : Nat) (curve : Bool)
  /-- OC_TRIP (R531). -/
  | ocTrip (p : Nat)
  /-- GATE_FAIL (R531): GATE_OK has stayed low for 2 µs. -/
  | gateFail (p : Nat)
  /-- OVP_TRIP (R531): the output of cable port `n` has stayed 10 % above its set-point for 10 µs. -/
  | ovpTrip (n : Nat)
  /-- POWER_GOOD (R532, R533): the conditions have held for PG_DG; `fault` where the fault timer starts or runs. -/
  | powerGood (n : Nat) (fault : Bool)
  /-- RETRY_EXPIRY (R528). -/
  | retryExpiry (n : Nat)
  /-- TRIES_RESET (R528). -/
  | triesReset (n : Nat)
  /-- START_STALL (R525). -/
  | startStall (n : Nat)
  /-- VSET_TIMEOUT (R535): the output of cable port `n` is not within 5 % 275 ms after a change. -/
  | vsetTimeout (n : Nat)
  /-- WAKE (R587, R601): the sources that are active, as CTL_PS_WAKESRC lays them out, and RESET_N. -/
  | wake (hi lo : Nat) (rstn : Bool)
  /-- RETURN_STAGE_READY (R593, R594): at stage 3 of a return from ember, `answers` is false where the LP5 devices
  do not answer: their contents are lost, and `training` is the outcome of the training that follows. `dp` has
  a bit for each DP output that trains. -/
  | returnStageReady (answers : Bool) (training : Option (Nat × Bool × Nat)) (dp : Nat)
  /-- RETURN_STAGE_TIMEOUT (R594): a ready signal has not risen within 100 ms, and the chip enters ember. -/
  | returnStageTimeout
  /-- HANDSHAKE_ANSWER (R584): the block with this code of Table 20-2 answers; `wake` where an enabled wake source
  is active. -/
  | handshakeAnswer (code : Nat) (wake : Bool)
  /-- ENTRY_MAX_TIMEOUT (R584). -/
  | entryMaxTimeout
  /-- ENTRY_SEQUENCE (R585): past the point of no return the entry runs to its end; ember loses endpoint memory. -/
  | entrySequence
  /-- DOORBELL (R605): master `m` writes SEQ to its doorbell. -/
  | doorbell (m seq tag : Nat) (posted : Bool)
  /-- PARKED_COMPLETION (R616). -/
  | parkedCompletion (m : Nat) (ok : Bool)
  /-- SMBUS_SET_POINTER (R621). -/
  | smbusSetPointer (v : Nat) (pecOk : Bool)
  /-- SMBUS_BLOCK_WRITE (R621). -/
  | smbusBlockWrite (data : List Byte) (pecOk : Bool)
  /-- SMBUS_BLOCK_READ (R621). -/
  | smbusBlockRead
  /-- SMBUS_READ_SUMMARY (R621). -/
  | smbusReadSummary
  /-- SYS_INFO (R622). -/
  | sysInfo (m : Nat)
  /-- SYS_CLAIM_CHALLENGE (R571, R572). -/
  | sysClaimChallenge (m : Nat)
  /-- SYS_CLAIM_PROVE (R571, R572): the four words of PO. -/
  | sysClaimProve (m : Nat) (po : List Nat)
  /-- SYS_CLAIM_RELEASE (R573). -/
  | sysClaimRelease (m : Nat)
  /-- SYS_DEPUTY (R573): the deputy, 15 for none, and DEP_HOLD. -/
  | sysDeputy (m : Nat) (deputy hold : Nat)
  /-- SYS_RESET_WARM (R620). -/
  | sysResetWarm (m : Nat)
  /-- SYS_RESET_HOST (R91, R599, R623): a host tunnel-layer reset of master `who`. -/
  | sysResetHost (m : Nat) (who : Nat)
  /-- SYS_RESET_PORT (R599): the port with this code. -/
  | sysResetPort (m : Nat) (code : Nat)
  /-- GATE_SET (R576, R434): target `t`, its gate word, and for an LP5 window the two window words. -/
  | gateSet (m : Nat) (t w : Nat) (win : Option (Nat × Nat))
  /-- GATE_GET (R577). -/
  | gateGet (m : Nat) (t : Nat)
  /-- TUNNEL_OPEN (R79, R83, R85): the ID and descriptor words 0 to 7. -/
  | tunnelOpen (m : Nat) (t : Nat) (ws : List Nat)
  /-- TUNNEL_CLOSE (R82, R84): drain or `abort`, and FORCE. -/
  | tunnelClose (m : Nat) (t gen : Nat) (abort force : Bool)
  /-- TUNNEL_MODIFY (R82, R83, R100): the complete descriptor after the change. -/
  | tunnelModify (m : Nat) (t gen : Nat) (ws : List Nat)
  /-- TUNNEL_QUERY (R82, R104): `named` where GEN is named; `clear` resets the counters. -/
  | tunnelQuery (m : Nat) (t gen : Nat) (named clear : Bool)
  /-- PLAN_BEGIN (R293). -/
  | planBegin (m : Nat)
  /-- PLAN_STAGE (R295, R296, R302): records of ten words. -/
  | planStage (m : Nat) (pid : Nat) (recs : List (List Nat))
  /-- PLAN_CHECK (R304, R305). -/
  | planCheck (m : Nat) (pid : Nat)
  /-- PLAN_ARM (R307): for tick `k`. -/
  | planArm (m : Nat) (pid k : Nat)
  /-- PLAN_ABORT (R312, R624). -/
  | planAbort (m : Nat) (pid : Nat)
  /-- PLAN_STATUS (R317): with `shares`, those of master `who`. -/
  | planStatus (m : Nat) (shares : Bool) (who : Nat)
  /-- PORT_TRAIN_CONFIG (R625): the images of Table 21-11. -/
  | portTrainConfig (m : Nat) (code : Nat) (ws : List Nat)
  /-- PORT_TRAIN_TRAIN (R625). -/
  | portTrainTrain (m : Nat) (code : Nat) (ws : List Nat)
  /-- PORT_TRAIN_DISABLE (R625). -/
  | portTrainDisable (m : Nat) (code : Nat)
  /-- PORT_TRAIN_RETURN (R337, R625). -/
  | portTrainReturn (m : Nat) (code : Nat)
  /-- PORT_STATE (R622): for the flash path, port code 0, the first channel and the count of routing entries. -/
  | portState (m : Nat) (code : Nat) (clr : Bool) (first cnt : Nat)
  /-- PORT_SPARE_RESTORE (R198, R616): it waits for the lane. -/
  | portSpareRestore (m : Nat) (code lane : Nat)
  /-- PORT_SPARE_RETIRE (R626). -/
  | portSpareRetire (m : Nat) (code lane : Nat)
  /-- PORT_ROUTE (R219): entries of five words. -/
  | portRoute (m : Nat) (l : List (List Nat))
  /-- TICK_SET (R49, R626): the period code, and the boundary `k`. -/
  | tickSet (m : Nat) (code k : Nat)
  /-- TIME_SYNC (R56): reference mode and host. -/
  | timeSync (m : Nat) (mode ref : Nat)
  /-- TIME_SYNC_STEP (R58, R626): a step of forge time in ns. -/
  | timeSyncStep (m : Nat) (mode ref : Nat) (step : Int)
  /-- PWR_FEED_CONFIG (R517): five register images of feed `f`. -/
  | pwrFeedConfig (m : Nat) (f : Nat) (ws : List Nat)
  /-- PWR_FEED_SELECT (R517): the images of PWR_FEED_SEL and PWR_BUS_SCALE. -/
  | pwrFeedSelect (m : Nat) (w0 w1 : Nat)
  /-- PWR_FEED_QUERY (R622). -/
  | pwrFeedQuery (m : Nat) (f : Nat)
  /-- PWR_PORT_CONFIG (R517): six register images of stage `n`. -/
  | pwrPortConfig (m : Nat) (n : Nat) (ws : List Nat)
  /-- PWR_PORT_QUERY (R622). -/
  | pwrPortQuery (m : Nat) (n : Nat)
  /-- PWR_PORT_RESTART (R528). -/
  | pwrPortRestart (m : Nat) (n : Nat)
  /-- PWR_PORT_OFF (R627). -/
  | pwrPortOff (m : Nat) (n : Nat)
  /-- PWR_PORT_VSET (R535): in units of 20 mV. -/
  | pwrPortVset (m : Nat) (n v : Nat)
  /-- PWR_CURVE (R530): the eight points of path `p`. -/
  | pwrCurve (m : Nat) (p : Nat) (ws : List Nat)
  /-- PWR_BUDGET (R525). -/
  | pwrBudget (m : Nat) (w : Nat)
  /-- PD_TX (R499, R500): the ten words of a message entry. -/
  | pdTx (m : Nat) (n : Nat) (ws : List Nat)
  /-- PD_RX (R498): up to `max` entries, with `state` the registers; `clr` clears the counters. -/
  | pdRx (m : Nat) (n : Nat) (state : Bool) (max : Nat) (clr : Bool)
  /-- PD_TIMER_SET (R509). -/
  | pdTimerSet (m : Nat) (n w : Nat)
  /-- PD_TIMER_START (R509): timer `t` for `ms` milliseconds. -/
  | pdTimerStart (m : Nat) (n t ms : Nat)
  /-- PD_TIMER_CANCEL (R509). -/
  | pdTimerCancel (m : Nat) (n t : Nat)
  /-- PD_ROLE_CLAIM (R495). -/
  | pdRoleClaim (m : Nat) (n : Nat)
  /-- PD_ROLE_RELEASE (R495). -/
  | pdRoleRelease (m : Nat) (n : Nat)
  /-- PD_ROLE_RP (R492). -/
  | pdRoleRp (m : Nat) (n v : Nat)
  /-- PD_ROLE_DROLE (R490). -/
  | pdRoleDrole (m : Nat) (n v : Nat)
  /-- PD_ROLE_VCONN_ON (R493). -/
  | pdRoleVconnOn (m : Nat) (n : Nat)
  /-- PD_ROLE_VCONN_OFF (R493). -/
  | pdRoleVconnOff (m : Nat) (n : Nat)
  /-- PD_ROLE_SWAP_TO_SINK (R505). -/
  | pdRoleSwapToSink (m : Nat) (n : Nat)
  /-- PD_ROLE_SWAP_TO_SOURCE (R505). -/
  | pdRoleSwapToSource (m : Nat) (n : Nat)
  /-- PD_ROLE_FRS_ARM (R506): 1 arms, 0 disarms. -/
  | pdRoleFrsArm (m : Nat) (n v : Nat)
  /-- PD_ROLE_EPR (R508). -/
  | pdRoleEpr (m : Nat) (n v : Nat)
  /-- PD_ROLE_ERROR_RECOVERY (R491). -/
  | pdRoleErrorRecovery (m : Nat) (n : Nat)
  /-- PD_ROLE_VCONN_ILIM (R494). -/
  | pdRoleVconnIlim (m : Nat) (n v : Nat)
  /-- RASTER_SETUP (R398, R628): 17 register images of head `n`; with `dp` an output and its image, it waits for
  the link. -/
  | rasterSetup (m : Nat) (n : Nat) (ws : List Nat) (dp : Option (Nat × Nat))
  /-- RASTER_SETUP_QUERY (R622): head `n` and output `d`. -/
  | rasterSetupQuery (m : Nat) (n d : Nat)
  /-- RASTER_WITNESS_SET (R419). -/
  | rasterWitnessSet (m : Nat) (n : Nat) (en : Bool) (action : Nat)
  /-- RASTER_WITNESS_RESUME (R421). -/
  | rasterWitnessResume (m : Nat) (n : Nat)
  /-- RASTER_WITNESS_QUERY (R622). -/
  | rasterWitnessQuery (m : Nat) (n : Nat)
  /-- DMA_LOAD (R444 to R446, R628): `len` instructions at `addr` for channel `c`. -/
  | dmaLoad (m : Nat) (c burst : Nat) (prio note : Bool) (addr len : Nat)
  /-- DMA_START (R456). -/
  | dmaStart (m : Nat) (c : Nat)
  /-- DMA_STOP (R456, R628). -/
  | dmaStop (m : Nat) (c : Nat) (force : Bool)
  /-- DMA_STOP_QUERY (R622). -/
  | dmaStopQuery (m : Nat) (c : Nat)
  /-- USB_CARVE (R476): pairs of a buffer and its image. -/
  | usbCarve (m : Nat) (l : List (Nat × Nat))
  /-- USB_FUNC_ITEMS (R471): target `t` and the mask of items in two words. -/
  | usbFuncItems (m : Nat) (t lo hi : Nat)
  /-- USB_FUNC_VERBOSITY (R473). -/
  | usbFuncVerbosity (m : Nat) (t v : Nat)
  /-- USB_FUNC_QUERY (R622). -/
  | usbFuncQuery (m : Nat) (t : Nat)
  /-- USB_CONNECT_CHALLENGE (R478, R479). -/
  | usbConnectChallenge (m : Nat)
  /-- USB_CONNECT_PROVE (R478, R479): DUR in minutes and the four words of PS. -/
  | usbConnectProve (m : Nat) (dur : Nat) (ps : List Nat)
  /-- USB_CONNECT_DISCONNECT (R480). -/
  | usbConnectDisconnect (m : Nat)
  /-- FAULT_READ (R556): WHAT, the log selector, first item and count. -/
  | faultRead (m : Nat) (what sel first count : Nat)
  /-- FAULT_CONFIG (R543): the FAULT_N image, where PIN is 1, and pairs of a source and its image. -/
  | faultConfig (m : Nat) (pin : Option Nat) (l : List (Nat × Nat))
  /-- FAULT_FORCE_SET (R550): source `i` with DETAIL `d`. -/
  | faultForceSet (m : Nat) (i d : Nat)
  /-- FAULT_FORCE_CLEAR (R550). -/
  | faultForceClear (m : Nat) (i : Nat)
  /-- FAULT_FORCE_PULSE (R550). -/
  | faultForcePulse (m : Nat) (i d : Nat)
  /-- FAULT_CLEAR (R549): a log to empty, FAULTN_REL, RESET_CNT and the masks of the eight regions. -/
  | faultClear (m : Nat) (log : Option Nat) (release resetCnt : Bool) (masks : List Nat)
  /-- KEY_DERIVE (R564). -/
  | keyDerive (m : Nat) (parent purpose inst kint ver : Nat)
  /-- KEY_DERIVE_ADVANCE (R565, R616): domain `d`; it waits for the fuse. -/
  | keyDeriveAdvance (m : Nat) (d : Nat)
  /-- KEY_REVOKE (R567): slot `k`. -/
  | keyRevoke (m : Nat) (k : Nat)
  /-- KEY_CHECK (R566): slot `k` and the four words of N. -/
  | keyCheck (m : Nat) (k : Nat) (n : List Nat)
  /-- KEY_CHECK_PATCH (R570, R629, R616): the image of `len` bytes at `addr`; it waits for the checks. -/
  | keyCheckPatch (m : Nat) (addr len : Nat)
  /-- STATE_ENTER (R583, R616): to banked or ember it waits for the entry. -/
  | stateEnter (m : Nat) (target : Nat) (force : Bool)
  /-- STATE_ENTER_CONFIG (R583, R622): the images of CTL_PS_CFG and CTL_PS_WAKE_EN. -/
  | stateEnterConfig (m : Nat) (w1 w2 : Nat)
  /-- STATE_ENTER_QUERY (R622). -/
  | stateEnterQuery (m : Nat)
  /-- TEST_OBS_SET (R661): pin, region, signal and EN. -/
  | testObsSet (m : Nat) (pin region signal : Nat) (en : Bool)
  /-- TEST_OBS_QUERY (R663). -/
  | testObsQuery (m : Nat)
  /-- TEST_LOGIC_RESET (R657): IDCODE is selected. -/
  | testLogicReset
  /-- BYPASS (R657). -/
  | bypass
  /-- IDCODE (R657): the register reads 0x1512_056B. -/
  | idcode
  /-- SAMPLE_PRELOAD (R658): the boundary register captures the balls, and `cells` are loaded into it. -/
  | samplePreload (cells : List Nat)
  /-- EXTEST (R658): the boundary register drives the balls. -/
  | extest (cells : List Nat)
  /-- CLAMP (R658): the cells loaded before keep driving. -/
  | clamp
  /-- HIGHZ (R658). -/
  | highz
  /-- EXTEST_PULSE (R658): AC-coupled lanes, one pulse. -/
  | extestPulse (cells : List Nat)
  /-- EXTEST_TRAIN (R658): AC-coupled lanes, a train of pulses. -/
  | extestTrain (cells : List Nat)
  /-- DEBUG_EN (R659): the update with the bit given; a 0 has no effect. -/
  | debugEn (on : Bool)
  /-- MEMACC (R660): one access of 32 bits with master ID 14. -/
  | memacc (wr : Bool) (addr w : Nat)
  /-- LINK_UNIT_WITHOUT_LU_END (R120): 64 data blocks without an LU_END; the class is not known. -/
  | linkUnitWithoutLuEnd (c : Nat)
  /-- ERROR_LINE_FALL (R547): the signal of source `i` falls, and its quench timer starts. -/
  | errorLineFall (i : Nat)
  /-- HPD_PLUG (R416): HPD reads 1 again. -/
  | hpdPlug (d : Nat)
  /-- LP5_EXIT_COMPLETE (R441): ACTIVE, and the accesses that wait are served. -/
  | lp5ExitComplete
  /-- LP5_READ_RETURN (R436, R432): the oldest read of a client returns; `ecc` is 0, 1 for a corrected and 2 for
  an uncorrectable read. -/
  | lp5ReadReturn (client ecc : Nat)
  /-- CROSSING_PULSE (R222). -/
  | crossingPulse (ch : Nat)
  /-- CUT_THROUGH_CELL (R248): the next cell of the frame that queue (`t`, `dir`) cuts through from ingress `c` is in the
  buffer. -/
  | cutThroughCell (t dir c : Nat)
  /-- DOWNSTREAM_CONNECT (R464). -/
  | downstreamConnect (p : Nat)
  /-- DOWNSTREAM_DISCONNECT (R465, R484). -/
  | downstreamDisconnect (p : Nat)
  /-- DOWNSTREAM_REMOTE_WAKE (R485). -/
  | downstreamRemoteWake (p : Nat)
  /-- PORT_RESET_COMPLETE (R464, R463): the speed negotiated is 0 full, 1 low, 2 high. -/
  | portResetComplete (p speed : Nat)
  /-- DOWNSTREAM_RESUME_END (R485). -/
  | downstreamResumeEnd (p : Nat)
  /-- SET_FEATURE (R482, R484): a standard feature of device `d`. -/
  | setFeature (d feature : Nat)
  /-- CLEAR_PORT_FEATURE_CHANGE (R466): bit 0 connection, 2 suspend, 3 over-current, 4 reset. -/
  | clearPortFeatureChange (p b : Nat)
  /-- UPSTREAM_VBUS_VALID (R478): UP_VBUS (bus 0) or SVC_VBUS (bus 1) becomes valid or invalid. -/
  | upstreamVbusValid (bus : Nat) (ok : Bool)
  /-- VBUS_LEVEL_REACHED (R491, R504, R506, R535): 0 within vSafe5V, 1 below vSafe0V, 2 neither, 3 within 5 % of
  the set-point. -/
  | vbusLevelReached (n lvl : Nat)
  /-- SINK_VBUS_LOSS (R491). -/
  | sinkVbusLoss (n : Nat)
deriving DecidableEq, Repr

end Sys2Proof
end

