-- ==== Sys2Proof/Decode.lean ====
section
/-!
DEFINITION. Words that spell a command: the table gives no row any bits, so no word spells one (assumption 4). Twiop
commands that a mailbox holds in memory are decoded from their argument blocks in Machine/Mailbox.lean.
-/

namespace Sys2Proof

/-- The command that a word of `nbits` bits spells by the opcode table: none, since no row of the table gives bits. -/
def decodeTableWord (_nbits _w : Nat) : Option Instr := none

end Sys2Proof
end

