-- ==== Sys2Proof/Machine/Cipher.lean ====
section
/-!
DEFINITION. The algorithms that the manual names for keys, proofs, link encryption and patches: AES-256 (FIPS 197), CMAC
(SP 800-38B), GCM (SP 800-38D), the counter-mode KDF of SP 800-108 (R159, R672), SHA-384 (FIPS 180-4) and ECDSA over P-384
(FIPS 186) (R154, R165, R566, R569, R570). The standards are the manual's by name; their text is not in it (assumption 10).
-/

namespace Sys2Proof.Machine

open Sys2Proof

/-! Bytes and numbers, most significant byte first, as the standards write them. -/

/-- The number that a byte string spells, its first byte the most significant. -/
def beNat (l : List Byte) : Nat := l.foldl (fun n b => n * 256 + b.toNat) 0

/-- The `n` bytes of a number, most significant first. -/
def beBytes (n v : Nat) : List Byte := (leBytes n v).reverse

/-- Two byte strings added without carry. -/
def xorBytes (a b : List Byte) : List Byte := List.zipWith (fun x y => x ^^^ y) a b

/-! AES-256 (FIPS 197). A state is 16 bytes, column after column. -/

/-- The S-box, its entry for `x` in byte `x`. -/
def sboxTab : Nat :=
  0xc072a49cafa2d4adf04759fa7dc982ca76abd7fe2b670130c56f6bf27b777c63 * 2 ^ 0 +
  0x75b227ebe28012079a059618c323c7041531d871f1e5a534ccf73f362693fdb7 * 2 ^ 256 +
  0xcf584c4a39becb6a5bb1fc20ed00d153842fe329b3d63b52a05a6e1b1a2c8309 * 2 ^ 512 +
  0xd2f3ff1021dab6bcf5389d928f40a351a89f3c507f02f94585334d43fbaaefd0 * 2 ^ 768 +
  0xdb0b5ede14b8ee4688902a22dc4f816073195d643d7ea7c41744975fec130ccd * 2 ^ 1024 +
  0x08ae7a65eaf4566ca94ed58d6d37c8e779e4959162acd3c25c2406490a3a32e0 * 2 ^ 1280 +
  0x9e1dc186b95735610ef6034866b53e708a8bbd4b1f74dde8c6b4a61c2e2578ba * 2 ^ 1536 +
  0x16bb54b00f2d99416842e6bf0d89a18cdf2855cee9871e9b948ed9691198f8e1 * 2 ^ 1792

/-- One byte through the S-box. -/
def sbox (x : Byte) : Byte := BitVec.ofNat 8 (sboxTab >>> (8 * x.toNat))

/-- A byte doubled in the field of AES. -/
def xtime (x : Byte) : Byte := (x <<< 1) ^^^ (if x.msb then 0x1b#8 else 0#8)

/-- One column mixed. -/
def mixColumn : List Byte → List Byte
  | [a, b, c, d] =>
    [xtime a ^^^ xtime b ^^^ b ^^^ c ^^^ d, a ^^^ xtime b ^^^ xtime c ^^^ c ^^^ d,
     a ^^^ b ^^^ xtime c ^^^ xtime d ^^^ d, xtime a ^^^ a ^^^ b ^^^ c ^^^ xtime d]
  | l => l

/-- The bytes substituted and the rows shifted. -/
def subShift (s : List Byte) : List Byte := (List.range 16).map (fun i => sbox (s.getD ((i + 4 * (i % 4)) % 16) 0))

/-- The four columns mixed. -/
def mixColumns (s : List Byte) : List Byte := (List.range 4).flatMap (fun c => mixColumn ((s.drop (4 * c)).take 4))

/-- The round constant of expansion step `i`. -/
def rcon (i : Nat) : Byte := BitVec.ofNat 8 (2 ^ (i - 1))

/-- The 60 words of the key schedule, as byte strings. -/
def keyWords (key : List Byte) : List (List Byte) :=
  (List.range 52).foldl (fun w k =>
    let i := k + 8
    let t := w.getD (i - 1) []
    let t := if i % 8 = 0 then
        (match (t.drop 1 ++ t.take 1).map sbox with | a :: l => (a ^^^ rcon (i / 8)) :: l | [] => [])
      else if i % 8 = 4 then t.map sbox else t
    w ++ [xorBytes (w.getD (i - 8) []) t])
    ((List.range 8).map (fun i => (key.drop (4 * i)).take 4))

/-- The 15 round keys. -/
def roundKeys (key : List Byte) : List (List Byte) :=
  let w := keyWords key
  (List.range 15).map (fun r => (List.range 4).flatMap (fun c => w.getD (4 * r + c) []))

/-- One block enciphered under an expanded key. -/
def encBlock (ks : List (List Byte)) (b : List Byte) : List Byte :=
  let s := xorBytes b (ks.getD 0 [])
  let s := (List.range 13).foldl (fun s r => xorBytes (mixColumns (subShift s)) (ks.getD (r + 1) [])) s
  xorBytes (subShift s) (ks.getD 14 [])

/-- AES-256 of one block of 16 bytes. -/
def aes256 (key b : List Byte) : List Byte := encBlock (roundKeys key) b

/-! CMAC (SP 800-38B). -/

/-- A 128-bit block doubled for the subkeys. -/
def cmacDouble (x : Nat) : Nat := if x < 2 ^ 127 then 2 * x else (2 * x - 2 ^ 128) ^^^ 0x87

/-- AES-256-CMAC of a message: 16 bytes. -/
def aesCmac (key m : List Byte) : List Byte :=
  let ks := roundKeys key
  let k1 := cmacDouble (beNat (encBlock ks (List.replicate 16 0)))
  let n := max 1 (ceilDiv m.length 16)
  let last := m.drop (16 * (n - 1))
  let tail := if last.length = 16 then xorBytes last (beBytes 16 k1)
    else xorBytes (last ++ 0x80#8 :: List.replicate (15 - last.length) 0) (beBytes 16 (cmacDouble k1))
  let c := (List.range (n - 1)).foldl (fun c i => encBlock ks (xorBytes c ((m.drop (16 * i)).take 16))) (List.replicate 16 0)
  encBlock ks (xorBytes c tail)

/-! The KDF of SP 800-108 in counter mode, with the fixed input of R672. -/

/-- ASCII bytes of a label, with no terminator (R672). -/
def labelBytes (s : String) : List Byte := s.toList.map (fun c => BitVec.ofNat 8 c.toNat)

/-- `bits` bits of key material, a multiple of 8. -/
def kdf (key : List Byte) (lab : String) (context : List Byte) (bits : Nat) : List Byte :=
  ((List.range (ceilDiv bits 128)).flatMap (fun i =>
    aesCmac key (beBytes 4 (i + 1) ++ labelBytes lab ++ 0#8 :: context ++ beBytes 4 bits))).take (bits / 8)

/-- The 32 bytes of a key of the tree (R561). The fused root and the test root are free values. -/
def keyBytes : KeyTerm → List Byte
  | .hub => leBytes 32 Config.hubRoot
  | .test => leBytes 32 Config.testRoot
  | .zero => List.replicate 32 0
  | .kdf p lab ctx => kdf (keyBytes p) lab ctx 256

/-! GCM (SP 800-38D) with a nonce of 96 bits. -/

/-- The product of two blocks in the field of GHASH. -/
def ghashMul (x y : Nat) : Nat :=
  ((List.range 128).foldl (fun (p : Nat × Nat) i =>
    (if bit x (127 - i) then p.1 ^^^ p.2 else p.1,
     if p.2 % 2 = 1 then (p.2 / 2) ^^^ (0xe1 * 2 ^ 120) else p.2 / 2)) (0, y)).1

/-- GHASH over a string that is taken in blocks, the last filled with zeros, from the value `y`. -/
def ghash (hk y : Nat) (l : List Byte) : Nat :=
  (List.range (ceilDiv l.length 16)).foldl (fun y i =>
    let b := (l.drop (16 * i)).take 16
    ghashMul (y ^^^ beNat (b ++ List.replicate (16 - b.length) 0)) hk) y

/-- The key stream added to a text: enciphers and deciphers. -/
def gcmCrypt (key nonce text : List Byte) : List Byte :=
  let ks := roundKeys key
  (List.range (ceilDiv text.length 16)).flatMap (fun i =>
    xorBytes ((text.drop (16 * i)).take 16) (encBlock ks (nonce ++ beBytes 4 (i + 2))))

/-- The 16-byte tag of additional data and ciphertext. -/
def gcmTag (key nonce aad cipher : List Byte) : List Byte :=
  let ks := roundKeys key
  let hk := beNat (encBlock ks (List.replicate 16 0))
  let y := ghash hk (ghash hk 0 aad) cipher
  let y := ghashMul (y ^^^ (8 * aad.length * 2 ^ 64 + 8 * cipher.length)) hk
  xorBytes (beBytes 16 y) (encBlock ks (nonce ++ beBytes 4 1))

/-! SHA-384 (FIPS 180-4). -/

/-- The 80 constants. -/
def shaK : List Nat :=
  [0x428a2f98d728ae22, 0x7137449123ef65cd, 0xb5c0fbcfec4d3b2f, 0xe9b5dba58189dbbc] ++
  [0x3956c25bf348b538, 0x59f111f1b605d019, 0x923f82a4af194f9b, 0xab1c5ed5da6d8118] ++
  [0xd807aa98a3030242, 0x12835b0145706fbe, 0x243185be4ee4b28c, 0x550c7dc3d5ffb4e2] ++
  [0x72be5d74f27b896f, 0x80deb1fe3b1696b1, 0x9bdc06a725c71235, 0xc19bf174cf692694] ++
  [0xe49b69c19ef14ad2, 0xefbe4786384f25e3, 0x0fc19dc68b8cd5b5, 0x240ca1cc77ac9c65] ++
  [0x2de92c6f592b0275, 0x4a7484aa6ea6e483, 0x5cb0a9dcbd41fbd4, 0x76f988da831153b5] ++
  [0x983e5152ee66dfab, 0xa831c66d2db43210, 0xb00327c898fb213f, 0xbf597fc7beef0ee4] ++
  [0xc6e00bf33da88fc2, 0xd5a79147930aa725, 0x06ca6351e003826f, 0x142929670a0e6e70] ++
  [0x27b70a8546d22ffc, 0x2e1b21385c26c926, 0x4d2c6dfc5ac42aed, 0x53380d139d95b3df] ++
  [0x650a73548baf63de, 0x766a0abb3c77b2a8, 0x81c2c92e47edaee6, 0x92722c851482353b] ++
  [0xa2bfe8a14cf10364, 0xa81a664bbc423001, 0xc24b8b70d0f89791, 0xc76c51a30654be30] ++
  [0xd192e819d6ef5218, 0xd69906245565a910, 0xf40e35855771202a, 0x106aa07032bbd1b8] ++
  [0x19a4c116b8d2d0c8, 0x1e376c085141ab53, 0x2748774cdf8eeb99, 0x34b0bcb5e19b48a8] ++
  [0x391c0cb3c5c95a63, 0x4ed8aa4ae3418acb, 0x5b9cca4f7763e373, 0x682e6ff3d6b2b8a3] ++
  [0x748f82ee5defb2fc, 0x78a5636f43172f60, 0x84c87814a1f0ab72, 0x8cc702081a6439ec] ++
  [0x90befffa23631e28, 0xa4506cebde82bde9, 0xbef9a3f7b2c67915, 0xc67178f2e372532b] ++
  [0xca273eceea26619c, 0xd186b8c721c0c207, 0xeada7dd6cde0eb1e, 0xf57d4f7fee6ed178] ++
  [0x06f067aa72176fba, 0x0a637dc5a2c898a6, 0x113f9804bef90dae, 0x1b710b35131c471b] ++
  [0x28db77f523047d84, 0x32caab7b40c72493, 0x3c9ebe0a15c9bebc, 0x431d67c49c100d4c] ++
  [0x4cc5d4becb3e42b6, 0x597f299cfc657e2a, 0x5fcb6fab3ad6faec, 0x6c44198c4a475817]

/-- Rotation of a 64-bit word to the right. -/
def ror64 (x n : Nat) : Nat := x / 2 ^ n + x % 2 ^ n * 2 ^ (64 - n)

/-- The message schedule of one block: its 16 words, then 64 more. -/
def shaSchedule (b : List Byte) : List Nat :=
  (List.range 64).foldl (fun w k =>
    let t := k + 16
    let g (i : Nat) : Nat := w.getD (t - i) 0
    let s0 := ror64 (g 15) 1 ^^^ ror64 (g 15) 8 ^^^ g 15 / 2 ^ 7
    let s1 := ror64 (g 2) 19 ^^^ ror64 (g 2) 61 ^^^ g 2 / 2 ^ 6
    w ++ [(s1 + g 7 + s0 + g 16) % 2 ^ 64])
    ((List.range 16).map (fun i => beNat ((b.drop (8 * i)).take 8)))

/-- One round: the eight working variables, a constant and a schedule word. -/
def shaRound (v : List Nat) (k w : Nat) : List Nat :=
  match v with
  | [a, b, c, d, e, f, g, h] =>
    let t1 := h + (ror64 e 14 ^^^ ror64 e 18 ^^^ ror64 e 41) + ((e &&& f) ^^^ ((2 ^ 64 - 1 - e) &&& g)) + k + w
    let t2 := (ror64 a 28 ^^^ ror64 a 34 ^^^ ror64 a 39) + ((a &&& b) ^^^ (a &&& c) ^^^ (b &&& c))
    [(t1 + t2) % 2 ^ 64, a, b, c, (d + t1) % 2 ^ 64, e, f, g]
  | l => l

/-- One block of 128 bytes taken into the hash value. -/
def shaBlock (hv : List Nat) (b : List Byte) : List Nat :=
  let v := (List.zip shaK (shaSchedule b)).foldl (fun v kw => shaRound v kw.1 kw.2) hv
  List.zipWith (fun x y => (x + y) % 2 ^ 64) hv v

/-- SHA-384 of a byte string, as a number. -/
def sha384 (m : List Byte) : Nat :=
  let n := m.length
  let pad := m ++ 0x80#8 :: List.replicate ((239 - n % 128) % 128) 0 ++ beBytes 16 (8 * n)
  let iv := [0xcbbb9d5dc1059ed8, 0x629a292a367cd507, 0x9159015a3070dd17, 0x152fecd8f70e5939,
    0x67332667ffc00b31, 0x8eb44a8768581511, 0xdb0c2e0d64f98fa7, 0x47b5481dbefa4fa4]
  let hv := (List.range (pad.length / 128)).foldl (fun hv i => shaBlock hv ((pad.drop (128 * i)).take 128)) iv
  (hv.take 6).foldl (fun x w => x * 2 ^ 64 + w) 0

/-! ECDSA over P-384 (FIPS 186). -/

def p384p : Nat := 2 ^ 384 - 2 ^ 128 - 2 ^ 96 + 2 ^ 32 - 1
def p384n : Nat := 0xffffffffffffffffffffffffffffffffffffffffffffffffc7634d81f4372ddf581a0db248b0a77aecec196accc52973
def p384b : Nat := 0xb3312fa7e23ee7e4988e056be3f82d19181d9c6efe8141120314088f5013875ac656398d8a2ed19d2a85c8edd3ec2aef
def p384gx : Nat := 0xaa87ca22be8b05378eb1c71ef320ad746e1d3b628ba79b9859f741e082542a385502f25dbf55296c3a545e3872760ab7
def p384gy : Nat := 0x3617de4a96262c6f5d9e98bf9292dc29f8f41dbd289a147ce9da3113b5f0b8c00a60b1ce1d7e819d7a431d7c90ea0e5f

/-- `b ^ e` modulo `m`, for an exponent below `2 ^ n`. -/
def powMod (m b e : Nat) (n : Nat) : Nat :=
  (List.range n).foldl (fun r i => let r := r * r % m; if bit e (n - 1 - i) then r * b % m else r) 1

/-- The inverse modulo a prime of 384 bits. -/
def invMod (m a : Nat) : Nat := powMod m a (m - 2) 384

/-- Sum of two points of the curve; `none` is the point at infinity. -/
def ecAdd (a b : Option (Nat × Nat)) : Option (Nat × Nat) :=
  match a, b with
  | none, b => b
  | a, none => a
  | some (x1, y1), some (x2, y2) =>
    let p := p384p
    if x1 = x2 ∧ (y1 + y2) % p = 0 then none
    else
      let s := if x1 = x2 then (3 * x1 * x1 + (p - 3)) * invMod p (2 * y1 % p) % p
        else (y1 + p - y2) * invMod p ((x1 + p - x2) % p) % p
      let x := (s * s + 2 * p - x1 - x2) % p
      some (x, (s * (x1 + p - x) + (p - y1)) % p)

/-- A multiple of a point. -/
def ecMul (k : Nat) (a : Option (Nat × Nat)) : Option (Nat × Nat) :=
  (List.range 384).foldl (fun r i => let r := ecAdd r r; if bit k (383 - i) then ecAdd r a else r) none

/-- Does a signature of a message verify under a public key: an uncompressed point of 97 bytes, and r and s of 48 bytes
each (R569, R630)? -/
def sigOk (pub m sig : List Byte) : Bool :=
  let x := beNat ((pub.drop 1).take 48)
  let y := beNat (pub.drop 49)
  let r := beNat (sig.take 48)
  let s := beNat (sig.drop 48)
  let onCurve := decide (x < p384p) && decide (y < p384p) && (y * y % p384p == (x * x * x + (p384p - 3) * x + p384b) % p384p)
  if pub.headD 0 ≠ 4 ∨ ¬ onCurve ∨ r = 0 ∨ s = 0 ∨ p384n ≤ r ∨ p384n ≤ s then false
  else
    let w := invMod p384n s
    let u1 := sha384 m * w % p384n
    let u2 := r * w % p384n
    match ecAdd (ecMul u1 (some (p384gx, p384gy))) (ecMul u2 (some (x, y))) with
    | some (x, _) => x % p384n == r
    | none => false

end Sys2Proof.Machine
end

