-- ==== Sys2Proof/Machine/Regs.lean ====
section
/-!
DEFINITION. One definition per register field, in the order of the spec's register tables.
Each gives the field's key, its width and its reset value; where the manual leaves the reset value to a strap
or a fuse, the value here is the one of the reset state's board (assumption 2) and POWER_ON writes the sampled one.
-/

namespace Sys2Proof.Machine

/-! 01_architecture.md R28: registers at 0x0. -/
/-- Fc status: offset 0x0, bits [31:0], W1C. -/
abbrev R.fcStatus (r : Nat) : Fld := ⟨⟨0, r, 0⟩, 32, 0⟩

/-! 02_forge_tick.md R66: registers at 0x7000100. -/
/-- Tick pend: offset 0x0, bits [24:24], RO. -/
abbrev R.tickPend : Fld := ⟨⟨1, 0, 0⟩, 1, 0⟩
/-- Tick next: offset 0x0, bits [23:16], RO. -/
abbrev R.tickNext : Fld := ⟨⟨2, 0, 0⟩, 8, 0⟩
/-- Tick synced: offset 0x0, bits [11:11], RO. -/
abbrev R.tickSynced : Fld := ⟨⟨3, 0, 0⟩, 1, 1⟩
/-- Tick refMode: offset 0x0, bits [10:10], RO. -/
abbrev R.tickRefMode : Fld := ⟨⟨4, 0, 0⟩, 1, 0⟩
/-- Tick refHost: offset 0x0, bits [9:8], RO. -/
abbrev R.tickRefHost : Fld := ⟨⟨5, 0, 0⟩, 2, 0⟩
/-- Tick period: offset 0x0, bits [7:0], RO. -/
abbrev R.tickPeriod : Fld := ⟨⟨6, 0, 0⟩, 8, 50⟩
/-- Tick ovrCount: offset 0x4, bits [31:16], RC. -/
abbrev R.tickOvrCount : Fld := ⟨⟨7, 0, 0⟩, 16, 0⟩
/-- Tick seqHwm: offset 0x4, bits [15:0], RC. -/
abbrev R.tickSeqHwm : Fld := ⟨⟨8, 0, 0⟩, 16, 0⟩

/-! 03_tunnels.md R75: registers at 0x2200000. -/
/-- Tt gen: offset 0x0, bits [31:28], RO. -/
abbrev R.ttGen (t : Nat) : Fld := ⟨⟨9, t, 0⟩, 4, 0⟩
/-- Tt class: offset 0x0, bits [27:25], RW. -/
abbrev R.ttClass (t : Nat) : Fld := ⟨⟨10, t, 0⟩, 3, 0⟩
/-- Tt state: offset 0x0, bits [24:22], RO. -/
abbrev R.ttState (t : Nat) : Fld := ⟨⟨11, t, 0⟩, 3, 0⟩
/-- Tt own: offset 0x0, bits [21:18], RW. -/
abbrev R.ttOwn (t : Nat) : Fld := ⟨⟨12, t, 0⟩, 4, 0⟩
/-- Tt bidir: offset 0x0, bits [17:17], RW. -/
abbrev R.ttBidir (t : Nat) : Fld := ⟨⟨13, t, 0⟩, 1, 0⟩
/-- Tt failed: offset 0x0, bits [16:16], RO. -/
abbrev R.ttFailed (t : Nat) : Fld := ⟨⟨14, t, 0⟩, 1, 0⟩
/-- Tt maxlen: offset 0x0, bits [13:0], RW. -/
abbrev R.ttMaxlen (t : Nat) : Fld := ⟨⟨15, t, 0⟩, 14, 0⟩
/-- Tt lp5w: offset 0x4, bits [29:25], RW. -/
abbrev R.ttLp5w (t : Nat) : Fld := ⟨⟨16, t, 0⟩, 5, 0⟩
/-- Tt line: offset 0x4, bits [24:20], RW. -/
abbrev R.ttLine (t : Nat) : Fld := ⟨⟨17, t, 0⟩, 5, 0⟩
/-- Tt altTrk: offset 0x4, bits [19:15], RW. -/
abbrev R.ttAltTrk (t : Nat) : Fld := ⟨⟨18, t, 0⟩, 5, 0⟩
/-- Tt altEgr: offset 0x4, bits [14:10], RW. -/
abbrev R.ttAltEgr (t : Nat) : Fld := ⟨⟨19, t, 0⟩, 5, 0⟩
/-- Tt egr: offset 0x4, bits [9:5], RW. -/
abbrev R.ttEgr (t : Nat) : Fld := ⟨⟨20, t, 0⟩, 5, 0⟩
/-- Tt ingr: offset 0x4, bits [4:0], RW. -/
abbrev R.ttIngr (t : Nat) : Fld := ⟨⟨21, t, 0⟩, 5, 0⟩
/-- Tt smode: offset 0x8, bits [31:30], RW. -/
abbrev R.ttSmode (t : Nat) : Fld := ⟨⟨22, t, 0⟩, 2, 0⟩
/-- Tt weight: offset 0x8, bits [27:16], RW. -/
abbrev R.ttWeight (t : Nat) : Fld := ⟨⟨23, t, 0⟩, 12, 0⟩
/-- Tt profile: offset 0x8, bits [15:8], RW. -/
abbrev R.ttProfile (t : Nat) : Fld := ⟨⟨24, t, 0⟩, 8, 0⟩
/-- Tt buflim: offset 0x8, bits [7:0], RW. -/
abbrev R.ttBuflim (t : Nat) : Fld := ⟨⟨25, t, 0⟩, 8, 0⟩
/-- Tt fben: offset 0xc, bits [31:31], RW. -/
abbrev R.ttFben (t : Nat) : Fld := ⟨⟨26, t, 0⟩, 1, 0⟩
/-- Tt frateE: offset 0xc, bits [30:27], RW. -/
abbrev R.ttFrateE (t : Nat) : Fld := ⟨⟨27, t, 0⟩, 4, 0⟩
/-- Tt frateM: offset 0xc, bits [26:15], RW. -/
abbrev R.ttFrateM (t : Nat) : Fld := ⟨⟨28, t, 0⟩, 12, 0⟩
/-- Tt fburstE: offset 0xc, bits [14:11], RW. -/
abbrev R.ttFburstE (t : Nat) : Fld := ⟨⟨29, t, 0⟩, 4, 0⟩
/-- Tt fburstM: offset 0xc, bits [10:3], RW. -/
abbrev R.ttFburstM (t : Nat) : Fld := ⟨⟨30, t, 0⟩, 8, 0⟩
/-- Tt rben: offset 0x10, bits [31:31], RW. -/
abbrev R.ttRben (t : Nat) : Fld := ⟨⟨31, t, 0⟩, 1, 0⟩
/-- Tt rrateE: offset 0x10, bits [30:27], RW. -/
abbrev R.ttRrateE (t : Nat) : Fld := ⟨⟨32, t, 0⟩, 4, 0⟩
/-- Tt rrateM: offset 0x10, bits [26:15], RW. -/
abbrev R.ttRrateM (t : Nat) : Fld := ⟨⟨33, t, 0⟩, 12, 0⟩
/-- Tt rburstE: offset 0x10, bits [14:11], RW. -/
abbrev R.ttRburstE (t : Nat) : Fld := ⟨⟨34, t, 0⟩, 4, 0⟩
/-- Tt rburstM: offset 0x10, bits [10:3], RW. -/
abbrev R.ttRburstM (t : Nat) : Fld := ⟨⟨35, t, 0⟩, 8, 0⟩
/-- Tt rweight: offset 0x14, bits [27:16], RW. -/
abbrev R.ttRweight (t : Nat) : Fld := ⟨⟨36, t, 0⟩, 12, 0⟩
/-- Tt rprofile: offset 0x14, bits [15:8], RW. -/
abbrev R.ttRprofile (t : Nat) : Fld := ⟨⟨37, t, 0⟩, 8, 0⟩
/-- Tt rbuflim: offset 0x14, bits [7:0], RW. -/
abbrev R.ttRbuflim (t : Nat) : Fld := ⟨⟨38, t, 0⟩, 8, 0⟩
/-- Tt planId: offset 0x18, bits [31:16], RO. -/
abbrev R.ttPlanId (t : Nat) : Fld := ⟨⟨39, t, 0⟩, 16, 0⟩
/-- Tt cookie: offset 0x18, bits [15:0], RW. -/
abbrev R.ttCookie (t : Nat) : Fld := ⟨⟨40, t, 0⟩, 16, 0⟩

/-! 03_tunnels.md R104: registers at 0x2220000. -/
/-- Run ingSeq: offset 0x0, bits [31:16], RO. -/
abbrev R.runIngSeq (t : Nat) : Fld := ⟨⟨41, t, 0⟩, 16, 0⟩
/-- Run egrSeq: offset 0x0, bits [15:0], RO. -/
abbrev R.runEgrSeq (t : Nat) : Fld := ⟨⟨42, t, 0⟩, 16, 0⟩
/-- Run staleCnt: offset 0x4, bits [31:16], RO. -/
abbrev R.runStaleCnt (t : Nat) : Fld := ⟨⟨43, t, 0⟩, 16, 0⟩
/-- Run notopenCnt: offset 0x4, bits [15:0], RO. -/
abbrev R.runNotopenCnt (t : Nat) : Fld := ⟨⟨44, t, 0⟩, 16, 0⟩
/-- Run ingrCnt: offset 0x8, bits [31:16], RO. -/
abbrev R.runIngrCnt (t : Nat) : Fld := ⟨⟨45, t, 0⟩, 16, 0⟩
/-- Run fmtCnt: offset 0x8, bits [15:0], RO. -/
abbrev R.runFmtCnt (t : Nat) : Fld := ⟨⟨46, t, 0⟩, 16, 0⟩
/-- Run qleft: offset 0xc, bits [31:24], RO. -/
abbrev R.runQleft (t : Nat) : Fld := ⟨⟨47, t, 0⟩, 8, 0⟩
/-- Run drained: offset 0xc, bits [23:16], RO. -/
abbrev R.runDrained (t : Nat) : Fld := ⟨⟨48, t, 0⟩, 8, 0⟩
/-- Run rsv: offset 0xc, bits [15:12], RO. -/
abbrev R.runRsv (t : Nat) : Fld := ⟨⟨49, t, 0⟩, 4, 0⟩

/-! 04_trunk_protocol.md R169: registers at 0x10000. -/
/-- Link state: offset 0x0, bits [31:29], RO. -/
abbrev R.linkState (n : Nat) : Fld := ⟨⟨50, n, 0⟩, 3, 0⟩
/-- Link host: offset 0x0, bits [28:27], RO. -/
abbrev R.linkHost (n : Nat) : Fld := ⟨⟨51, n, 0⟩, 2, 0⟩
/-- Link extbuf: offset 0x0, bits [26:26], RO. -/
abbrev R.linkExtbuf (n : Nat) : Fld := ⟨⟨52, n, 0⟩, 1, 0⟩
/-- Link spare: offset 0x0, bits [25:25], RO. -/
abbrev R.linkSpare (n : Nat) : Fld := ⟨⟨53, n, 0⟩, 1, 0⟩
/-- Link nlane: offset 0x0, bits [24:22], RO. -/
abbrev R.linkNlane (n : Nat) : Fld := ⟨⟨54, n, 0⟩, 3, 0⟩
/-- Link kint: offset 0x0, bits [21:17], RO. -/
abbrev R.linkKint (n : Nat) : Fld := ⟨⟨55, n, 0⟩, 5, 12⟩
/-- Link txep: offset 0x0, bits [16:15], RO. -/
abbrev R.linkTxep (n : Nat) : Fld := ⟨⟨56, n, 0⟩, 2, 0⟩
/-- Link holdn: offset 0x0, bits [14:8], RO. -/
abbrev R.linkHoldn (n : Nat) : Fld := ⟨⟨57, n, 0⟩, 7, 0⟩
/-- Link rtt: offset 0x4, bits [15:0], RO. -/
abbrev R.linkRtt (n : Nat) : Fld := ⟨⟨58, n, 0⟩, 16, 0⟩
/-- Link ctl: offset 0x8, bits [31:24], RO. -/
abbrev R.linkCtl (n : Nat) : Fld := ⟨⟨59, n, 0⟩, 8, 4⟩
/-- Link iso: offset 0x8, bits [23:16], RO. -/
abbrev R.linkIso (n : Nat) : Fld := ⟨⟨60, n, 0⟩, 8, 24⟩
/-- Link rtx: offset 0x8, bits [15:8], RO. -/
abbrev R.linkRtx (n : Nat) : Fld := ⟨⟨61, n, 0⟩, 8, 40⟩
/-- Link blk: offset 0x8, bits [7:0], RO. -/
abbrev R.linkBlk (n : Nat) : Fld := ⟨⟨62, n, 0⟩, 8, 12⟩
/-- Link epoch: offset 0xc, bits [31:0], RO. -/
abbrev R.linkEpoch (n : Nat) : Fld := ⟨⟨63, n, 0⟩, 32, 0⟩
/-- Link crcErr: offset 0x10, bits [31:16], RC. -/
abbrev R.linkCrcErr (n : Nat) : Fld := ⟨⟨64, n, 0⟩, 16, 0⟩
/-- Link nakTx: offset 0x10, bits [15:0], RC. -/
abbrev R.linkNakTx (n : Nat) : Fld := ⟨⟨65, n, 0⟩, 16, 0⟩
/-- Link replayLu: offset 0x14, bits [31:16], RC. -/
abbrev R.linkReplayLu (n : Nat) : Fld := ⟨⟨66, n, 0⟩, 16, 0⟩
/-- Link nakRx: offset 0x14, bits [15:0], RC. -/
abbrev R.linkNakRx (n : Nat) : Fld := ⟨⟨67, n, 0⟩, 16, 0⟩
/-- Link urLost: offset 0x18, bits [31:16], RC. -/
abbrev R.linkUrLost (n : Nat) : Fld := ⟨⟨68, n, 0⟩, 16, 0⟩
/-- Link dup: offset 0x18, bits [15:0], RC. -/
abbrev R.linkDup (n : Nat) : Fld := ⟨⟨69, n, 0⟩, 16, 0⟩
/-- Link gap: offset 0x1c, bits [31:16], RC. -/
abbrev R.linkGap (n : Nat) : Fld := ⟨⟨70, n, 0⟩, 16, 0⟩
/-- Link fmtErr: offset 0x1c, bits [15:0], RC. -/
abbrev R.linkFmtErr (n : Nat) : Fld := ⟨⟨71, n, 0⟩, 16, 0⟩
/-- Link tagFail: offset 0x20, bits [31:16], RC. -/
abbrev R.linkTagFail (n : Nat) : Fld := ⟨⟨72, n, 0⟩, 16, 0⟩
/-- Link ctrRej: offset 0x20, bits [15:0], RC. -/
abbrev R.linkCtrRej (n : Nat) : Fld := ⟨⟨73, n, 0⟩, 16, 0⟩
/-- Link authRefuse: offset 0x24, bits [31:16], RC. -/
abbrev R.linkAuthRefuse (n : Nat) : Fld := ⟨⟨74, n, 0⟩, 16, 0⟩
/-- Link preDrop: offset 0x24, bits [15:0], RC. -/
abbrev R.linkPreDrop (n : Nat) : Fld := ⟨⟨75, n, 0⟩, 16, 0⟩

/-! 05_trunk_lanes.md R201: registers at 0x20000. -/
/-- Lane fomTgt: offset 0x0, bits [31:24], RW. -/
abbrev R.laneFomTgt (n : Nat) : Fld := ⟨⟨76, n, 0⟩, 8, 0xA0⟩
/-- Lane fomMin: offset 0x0, bits [23:16], RW. -/
abbrev R.laneFomMin (n : Nat) : Fld := ⟨⟨77, n, 0⟩, 8, 0x40⟩
/-- Lane fomFail: offset 0x0, bits [15:8], RW. -/
abbrev R.laneFomFail (n : Nat) : Fld := ⟨⟨78, n, 0⟩, 8, 0x28⟩
/-- Lane minw: offset 0x0, bits [7:5], RW. -/
abbrev R.laneMinw (n : Nat) : Fld := ⟨⟨79, n, 0⟩, 3, 3⟩
/-- Lane autoidle: offset 0x0, bits [4:4], RW. -/
abbrev R.laneAutoidle (n : Nat) : Fld := ⟨⟨80, n, 0⟩, 1, 0⟩
/-- Lane rotEn: offset 0x0, bits [3:3], RW. -/
abbrev R.laneRotEn (n : Nat) : Fld := ⟨⟨81, n, 0⟩, 1, 1⟩
/-- Lane idleDly: offset 0x4, bits [31:24], RW. -/
abbrev R.laneIdleDly (n : Nat) : Fld := ⟨⟨82, n, 0⟩, 8, 0x0A⟩
/-- Lane safeDelta: offset 0x4, bits [23:20], RW. -/
abbrev R.laneSafeDelta (n : Nat) : Fld := ⟨⟨83, n, 0⟩, 4, 6⟩
/-- Lane presetStart: offset 0x4, bits [19:16], RW. -/
abbrev R.lanePresetStart (n : Nat) : Fld := ⟨⟨84, n, 0⟩, 4, 4⟩
/-- Lane maxrate: offset 0x4, bits [15:14], RW. -/
abbrev R.laneMaxrate (n : Nat) : Fld := ⟨⟨85, n, 0⟩, 2, 2⟩
/-- Lane tstate: offset 0x8, bits [31:29], RO. -/
abbrev R.laneTstate (n : Nat) : Fld := ⟨⟨86, n, 0⟩, 3, 0⟩
/-- Lane rate: offset 0x8, bits [28:27], RO. -/
abbrev R.laneRate (n : Nat) : Fld := ⟨⟨87, n, 0⟩, 2, 0⟩
/-- Lane standin: offset 0x8, bits [26:24], RO. -/
abbrev R.laneStandin (n : Nat) : Fld := ⟨⟨88, n, 0⟩, 3, 7⟩
/-- Lane repl: offset 0x8, bits [23:21], RO. -/
abbrev R.laneRepl (n : Nat) : Fld := ⟨⟨89, n, 0⟩, 3, 7⟩
/-- Lane retired: offset 0x8, bits [20:16], RO. -/
abbrev R.laneRetired (n : Nat) : Fld := ⟨⟨90, n, 0⟩, 5, 0⟩
/-- Lane eidleTx: offset 0x8, bits [15:15], RO. -/
abbrev R.laneEidleTx (n : Nat) : Fld := ⟨⟨91, n, 0⟩, 1, 0⟩
/-- Lane eidleRx: offset 0x8, bits [14:14], RO. -/
abbrev R.laneEidleRx (n : Nat) : Fld := ⟨⟨92, n, 0⟩, 1, 0⟩
/-- Lane trnUs: offset 0x8, bits [13:0], RO. -/
abbrev R.laneTrnUs (n : Nat) : Fld := ⟨⟨93, n, 0⟩, 14, 0⟩

/-! 05_trunk_lanes.md R201: registers at 0x20020. -/
/-- Ln lstate: offset 0x0, bits [31:29], RO. -/
abbrev R.lnLstate (n : Nat) (l : Nat) : Fld := ⟨⟨94, n, l⟩, 3, 0⟩
/-- Ln pos: offset 0x0, bits [28:26], RO. -/
abbrev R.lnPos (n : Nat) (l : Nat) : Fld := ⟨⟨95, n, l⟩, 3, 7⟩
/-- Ln temperStop: offset 0x0, bits [25:25], RO. -/
abbrev R.lnTemperStop (n : Nat) (l : Nat) : Fld := ⟨⟨96, n, l⟩, 1, 0⟩
/-- Ln lock: offset 0x0, bits [24:24], RO. -/
abbrev R.lnLock (n : Nat) (l : Nat) : Fld := ⟨⟨97, n, l⟩, 1, 0⟩
/-- Ln fom: offset 0x0, bits [23:16], RO. -/
abbrev R.lnFom (n : Nat) (l : Nat) : Fld := ⟨⟨98, n, l⟩, 8, 0⟩
/-- Ln fomTrn: offset 0x0, bits [15:8], RO. -/
abbrev R.lnFomTrn (n : Nat) (l : Nat) : Fld := ⟨⟨99, n, l⟩, 8, 0⟩
/-- Ln fomLow: offset 0x0, bits [7:0], RC. -/
abbrev R.lnFomLow (n : Nat) (l : Nat) : Fld := ⟨⟨100, n, l⟩, 8, 255⟩
/-- Ln main: offset 0x4, bits [31:26], RO. -/
abbrev R.lnMain (n : Nat) (l : Nat) : Fld := ⟨⟨101, n, l⟩, 6, 63⟩
/-- Ln p1: offset 0x4, bits [25:21], RO. -/
abbrev R.lnP1 (n : Nat) (l : Nat) : Fld := ⟨⟨102, n, l⟩, 5, 0⟩
/-- Ln pre: offset 0x4, bits [20:17], RO. -/
abbrev R.lnPre (n : Nat) (l : Nat) : Fld := ⟨⟨103, n, l⟩, 4, 0⟩
/-- Ln p2: offset 0x4, bits [16:13], RO. -/
abbrev R.lnP2 (n : Nat) (l : Nat) : Fld := ⟨⟨104, n, l⟩, 4, 0⟩
/-- Ln ctle: offset 0x4, bits [12:9], RO. -/
abbrev R.lnCtle (n : Nat) (l : Nat) : Fld := ⟨⟨105, n, l⟩, 4, 0⟩
/-- Ln phase: offset 0x4, bits [8:4], RO. -/
abbrev R.lnPhase (n : Nat) (l : Nat) : Fld := ⟨⟨106, n, l⟩, 5, 0⟩
/-- Ln dfe5: offset 0x8, bits [29:24], RO. -/
abbrev R.lnDfe5 (n : Nat) (l : Nat) : Fld := ⟨⟨107, n, l⟩, 6, 0⟩
/-- Ln dfe4: offset 0x8, bits [23:18], RO. -/
abbrev R.lnDfe4 (n : Nat) (l : Nat) : Fld := ⟨⟨108, n, l⟩, 6, 0⟩
/-- Ln dfe3: offset 0x8, bits [17:12], RO. -/
abbrev R.lnDfe3 (n : Nat) (l : Nat) : Fld := ⟨⟨109, n, l⟩, 6, 0⟩
/-- Ln dfe2: offset 0x8, bits [11:6], RO. -/
abbrev R.lnDfe2 (n : Nat) (l : Nat) : Fld := ⟨⟨110, n, l⟩, 6, 0⟩
/-- Ln dfe1: offset 0x8, bits [5:0], RO. -/
abbrev R.lnDfe1 (n : Nat) (l : Nat) : Fld := ⟨⟨111, n, l⟩, 6, 0⟩
/-- Ln syncErr: offset 0xc, bits [31:16], RC. -/
abbrev R.lnSyncErr (n : Nat) (l : Nat) : Fld := ⟨⟨112, n, l⟩, 16, 0⟩
/-- Ln steps: offset 0xc, bits [15:8], RC. -/
abbrev R.lnSteps (n : Nat) (l : Nat) : Fld := ⟨⟨113, n, l⟩, 8, 0⟩
/-- Ln faults: offset 0xc, bits [7:4], RC. -/
abbrev R.lnFaults (n : Nat) (l : Nat) : Fld := ⟨⟨114, n, l⟩, 4, 0⟩
/-- Ln undo: offset 0xc, bits [3:0], RC. -/
abbrev R.lnUndo (n : Nat) (l : Nat) : Fld := ⟨⟨115, n, l⟩, 4, 0⟩

/-! 06_strike.md R205: registers at 0x2601000. -/
/-- Tin edgesel: offset 0x0, bits [31:30], RW. -/
abbrev R.tinEdgesel (i : Nat) : Fld := ⟨⟨116, i, 0⟩, 2, 0⟩
/-- Tin inv: offset 0x0, bits [29:29], RW. -/
abbrev R.tinInv (i : Nat) : Fld := ⟨⟨117, i, 0⟩, 1, 0⟩
/-- Tin filt: offset 0x0, bits [28:25], RW. -/
abbrev R.tinFilt (i : Nat) : Fld := ⟨⟨118, i, 0⟩, 4, 0⟩
/-- Tin chan: offset 0x0, bits [7:0], RW. -/
abbrev R.tinChan (i : Nat) : Fld := ⟨⟨119, i, 0⟩, 8, 0⟩

/-! 06_strike.md R205: registers at 0x2601080. -/
/-- Tout mode: offset 0x0, bits [31:30], RW. -/
abbrev R.toutMode (k : Nat) : Fld := ⟨⟨120, k, 0⟩, 2, 0⟩
/-- Tout safe: offset 0x0, bits [29:28], RW. -/
abbrev R.toutSafe (k : Nat) : Fld := ⟨⟨121, k, 0⟩, 2, 0⟩
/-- Tout inv: offset 0x0, bits [27:27], RW. -/
abbrev R.toutInv (k : Nat) : Fld := ⟨⟨122, k, 0⟩, 1, 0⟩
/-- Tout lateEn: offset 0x0, bits [26:26], RW. -/
abbrev R.toutLateEn (k : Nat) : Fld := ⟨⟨123, k, 0⟩, 1, 0⟩
/-- Tout width: offset 0x0, bits [23:12], RW. -/
abbrev R.toutWidth (k : Nat) : Fld := ⟨⟨124, k, 0⟩, 12, 0⟩

/-! 06_strike.md R219: registers at 0x2600000. -/
/-- Route out: offset 0x0, bits [31:0], RW. -/
abbrev R.routeOut (c : Nat) : Fld := ⟨⟨125, c, 0⟩, 32, 0⟩
/-- Route dst: offset 0x4, bits [19:0], RW. -/
abbrev R.routeDst (c : Nat) : Fld := ⟨⟨126, c, 0⟩, 20, 0⟩
/-- Route localEv: offset 0x8, bits [27:27], RW. -/
abbrev R.routeLocalEv (c : Nat) : Fld := ⟨⟨127, c, 0⟩, 1, 0⟩
/-- Route altEn: offset 0x8, bits [26:26], RW. -/
abbrev R.routeAltEn (c : Nat) : Fld := ⟨⟨128, c, 0⟩, 1, 0⟩
/-- Route alt: offset 0x8, bits [25:24], RW. -/
abbrev R.routeAlt (c : Nat) : Fld := ⟨⟨129, c, 0⟩, 2, 0⟩
/-- Route lateFwd: offset 0x8, bits [23:23], RW. -/
abbrev R.routeLateFwd (c : Nat) : Fld := ⟨⟨130, c, 0⟩, 1, 0⟩
/-- Route localSrc: offset 0x8, bits [22:22], RW. -/
abbrev R.routeLocalSrc (c : Nat) : Fld := ⟨⟨131, c, 0⟩, 1, 0⟩
/-- Route src: offset 0x8, bits [19:0], RW. -/
abbrev R.routeSrc (c : Nat) : Fld := ⟨⟨132, c, 0⟩, 20, 0⟩

/-! 06_strike.md R235: registers at 0x2601100. -/
/-- Fp tx: offset 0x0, bits [31:16], RC. -/
abbrev R.fpTx (p : Nat) : Fld := ⟨⟨133, p, 0⟩, 16, 0⟩
/-- Fp rx: offset 0x0, bits [15:0], RC. -/
abbrev R.fpRx (p : Nat) : Fld := ⟨⟨134, p, 0⟩, 16, 0⟩
/-- Fp copyErr: offset 0x4, bits [31:16], RC. -/
abbrev R.fpCopyErr (p : Nat) : Fld := ⟨⟨135, p, 0⟩, 16, 0⟩
/-- Fp differ: offset 0x4, bits [15:0], RC. -/
abbrev R.fpDiffer (p : Nat) : Fld := ⟨⟨136, p, 0⟩, 16, 0⟩
/-- Fp denied: offset 0x8, bits [31:16], RC. -/
abbrev R.fpDenied (p : Nat) : Fld := ⟨⟨137, p, 0⟩, 16, 0⟩
/-- Fp drop: offset 0x8, bits [15:0], RC. -/
abbrev R.fpDrop (p : Nat) : Fld := ⟨⟨138, p, 0⟩, 16, 0⟩
/-- Fp late: offset 0xc, bits [31:16], RC. -/
abbrev R.fpLate (p : Nat) : Fld := ⟨⟨139, p, 0⟩, 16, 0⟩
/-- Fp lost: offset 0xc, bits [15:0], RC. -/
abbrev R.fpLost (p : Nat) : Fld := ⟨⟨140, p, 0⟩, 16, 0⟩
/-- Fp unconf: offset 0x10, bits [31:16], RC. -/
abbrev R.fpUnconf (p : Nat) : Fld := ⟨⟨141, p, 0⟩, 16, 0⟩
/-- Fp summiss: offset 0x10, bits [15:0], RC. -/
abbrev R.fpSummiss (p : Nat) : Fld := ⟨⟨142, p, 0⟩, 16, 0⟩

/-! 06_strike.md R235: registers at 0x2601400. -/
/-- FpStat denied: offset 0x0, bits [31:16], RC. -/
abbrev R.fpStatDenied : Fld := ⟨⟨143, 0, 0⟩, 16, 0⟩
/-- FpStat drop: offset 0x0, bits [15:0], RC. -/
abbrev R.fpStatDrop : Fld := ⟨⟨144, 0, 0⟩, 16, 0⟩
/-- FpStat xovf: offset 0x4, bits [15:0], RC. -/
abbrev R.fpStatXovf : Fld := ⟨⟨145, 0, 0⟩, 16, 0⟩

/-! 07_hearth.md R265: registers at 0x2300000. -/
/-- Prof cirE: offset 0x0, bits [31:28], RO. -/
abbrev R.profCirE (p : Nat) : Fld := ⟨⟨146, p, 0⟩, 4, 0⟩
/-- Prof cirM: offset 0x0, bits [27:16], RO. -/
abbrev R.profCirM (p : Nat) : Fld := ⟨⟨147, p, 0⟩, 12, 0⟩
/-- Prof pirE: offset 0x0, bits [15:12], RO. -/
abbrev R.profPirE (p : Nat) : Fld := ⟨⟨148, p, 0⟩, 4, 0⟩
/-- Prof pirM: offset 0x0, bits [11:0], RO. -/
abbrev R.profPirM (p : Nat) : Fld := ⟨⟨149, p, 0⟩, 12, 0⟩
/-- Prof cbsE: offset 0x4, bits [31:28], RO. -/
abbrev R.profCbsE (p : Nat) : Fld := ⟨⟨150, p, 0⟩, 4, 0⟩
/-- Prof cbsM: offset 0x4, bits [27:20], RO. -/
abbrev R.profCbsM (p : Nat) : Fld := ⟨⟨151, p, 0⟩, 8, 0⟩
/-- Prof pbsE: offset 0x4, bits [19:16], RO. -/
abbrev R.profPbsE (p : Nat) : Fld := ⟨⟨152, p, 0⟩, 4, 0⟩
/-- Prof pbsM: offset 0x4, bits [15:8], RO. -/
abbrev R.profPbsM (p : Nat) : Fld := ⟨⟨153, p, 0⟩, 8, 0⟩
/-- Prof valid: offset 0x8, bits [31:31], RO. -/
abbrev R.profValid (p : Nat) : Fld := ⟨⟨154, p, 0⟩, 1, (if p = 0 then 1 else 0)⟩
/-- Prof own: offset 0x8, bits [27:24], RO. -/
abbrev R.profOwn (p : Nat) : Fld := ⟨⟨155, p, 0⟩, 4, (if p = 0 then 7 else 0)⟩
/-- Prof yDrop: offset 0x8, bits [1:1], RO. -/
abbrev R.profYDrop (p : Nat) : Fld := ⟨⟨156, p, 0⟩, 1, 0⟩
/-- Prof rPass: offset 0x8, bits [0:0], RO. -/
abbrev R.profRPass (p : Nat) : Fld := ⟨⟨157, p, 0⟩, 1, 0⟩

/-! 07_hearth.md R265: registers at 0x2320000. -/
/-- PolCnt greenF: offset 0x0, bits [31:16], RO. -/
abbrev R.polCntGreenF (t : Nat) : Fld := ⟨⟨158, t, 0⟩, 16, 0⟩
/-- PolCnt yellowF: offset 0x0, bits [15:0], RO. -/
abbrev R.polCntYellowF (t : Nat) : Fld := ⟨⟨159, t, 0⟩, 16, 0⟩
/-- PolCnt redF: offset 0x4, bits [31:16], RO. -/
abbrev R.polCntRedF (t : Nat) : Fld := ⟨⟨160, t, 0⟩, 16, 0⟩
/-- PolCnt bufdropF: offset 0x4, bits [15:0], RO. -/
abbrev R.polCntBufdropF (t : Nat) : Fld := ⟨⟨161, t, 0⟩, 16, 0⟩
/-- PolCnt greenR: offset 0x8, bits [31:16], RO. -/
abbrev R.polCntGreenR (t : Nat) : Fld := ⟨⟨162, t, 0⟩, 16, 0⟩
/-- PolCnt yellowR: offset 0x8, bits [15:0], RO. -/
abbrev R.polCntYellowR (t : Nat) : Fld := ⟨⟨163, t, 0⟩, 16, 0⟩
/-- PolCnt redR: offset 0xc, bits [31:16], RO. -/
abbrev R.polCntRedR (t : Nat) : Fld := ⟨⟨164, t, 0⟩, 16, 0⟩
/-- PolCnt bufdropR: offset 0xc, bits [15:0], RO. -/
abbrev R.polCntBufdropR (t : Nat) : Fld := ⟨⟨165, t, 0⟩, 16, 0⟩

/-! 07_hearth.md R265: registers at 0x2500000. -/
/-- Buf qpool: offset 0x0, bits [17:0], RO. -/
abbrev R.bufQpool : Fld := ⟨⟨166, 0, 0⟩, 18, 0x1AC00⟩
/-- Buf floors: offset 0x4, bits [17:0], RO. -/
abbrev R.bufFloors : Fld := ⟨⟨167, 0, 0⟩, 18, 0⟩
/-- Buf sfree: offset 0x8, bits [17:0], RO. -/
abbrev R.bufSfree : Fld := ⟨⟨168, 0, 0⟩, 18, 0x1AC00⟩
/-- Buf sfreeLow: offset 0xc, bits [17:0], RC. -/
abbrev R.bufSfreeLow : Fld := ⟨⟨169, 0, 0⟩, 18, 0x3FFFF⟩
/-- Buf yelFree: offset 0x10, bits [31:16], RO. -/
abbrev R.bufYelFree : Fld := ⟨⟨170, 0, 0⟩, 16, 0x200⟩
/-- Buf redFree: offset 0x10, bits [15:0], RO. -/
abbrev R.bufRedFree : Fld := ⟨⟨171, 0, 0⟩, 16, 0x400⟩
/-- Buf ctWait: offset 0x1c, bits [31:24], RO. -/
abbrev R.bufCtWait : Fld := ⟨⟨172, 0, 0⟩, 8, 0x14⟩
/-- Buf ctEn: offset 0x1c, bits [15:15], RO. -/
abbrev R.bufCtEn : Fld := ⟨⟨173, 0, 0⟩, 1, 1⟩
/-- Buf holdMax: offset 0x1c, bits [13:0], RO. -/
abbrev R.bufHoldMax : Fld := ⟨⟨174, 0, 0⟩, 14, 0x3E8⟩
/-- Buf eccCe: offset 0x400, bits [31:16], RC. -/
abbrev R.bufEccCe : Fld := ⟨⟨175, 0, 0⟩, 16, 0⟩
/-- Buf eccUe: offset 0x400, bits [15:0], RC. -/
abbrev R.bufEccUe : Fld := ⟨⟨176, 0, 0⟩, 16, 0⟩
/-- Buf linkUe: offset 0x404, bits [31:16], RC. -/
abbrev R.bufLinkUe : Fld := ⟨⟨177, 0, 0⟩, 16, 0⟩
/-- Buf lostCell: offset 0x404, bits [15:0], RC. -/
abbrev R.bufLostCell : Fld := ⟨⟨178, 0, 0⟩, 16, 0⟩

/-! 07_hearth.md R265: registers at 0x2500020. -/
/-- Hcap cap: offset 0x0, bits [17:0], RO. -/
abbrev R.hcapCap (m : Nat) : Fld := ⟨⟨179, m, 0⟩, 18, 0x3FFFF⟩

/-! 07_hearth.md R265: registers at 0x2500100. -/
/-- Att qlimDrop: offset 0x0, bits [31:16], RC. -/
abbrev R.attQlimDrop (a : Nat) : Fld := ⟨⟨180, a, 0⟩, 16, 0⟩
/-- Att sharedDrop: offset 0x0, bits [15:0], RC. -/
abbrev R.attSharedDrop (a : Nat) : Fld := ⟨⟨181, a, 0⟩, 16, 0⟩
/-- Att polDrop: offset 0x4, bits [31:16], RC. -/
abbrev R.attPolDrop (a : Nat) : Fld := ⟨⟨182, a, 0⟩, 16, 0⟩
/-- Att holdDrop: offset 0x4, bits [15:0], RC. -/
abbrev R.attHoldDrop (a : Nat) : Fld := ⟨⟨183, a, 0⟩, 16, 0⟩
/-- Att ctAbort: offset 0x8, bits [31:16], RC. -/
abbrev R.attCtAbort (a : Nat) : Fld := ⟨⟨184, a, 0⟩, 16, 0⟩
/-- Att ctFrames: offset 0x8, bits [15:0], RC. -/
abbrev R.attCtFrames (a : Nat) : Fld := ⟨⟨185, a, 0⟩, 16, 0⟩
/-- Att holdHwm: offset 0xc, bits [15:0], RC. -/
abbrev R.attHoldHwm (a : Nat) : Fld := ⟨⟨186, a, 0⟩, 16, 0⟩

/-! 08_scheduling.md R290: registers at 0x2400000. -/
/-- Qc validF: offset 0x0, bits [31:31], RO. -/
abbrev R.qcValidF (t : Nat) : Fld := ⟨⟨187, t, 0⟩, 1, 0⟩
/-- Qc depthF: offset 0x0, bits [17:0], RO. -/
abbrev R.qcDepthF (t : Nat) : Fld := ⟨⟨188, t, 0⟩, 18, 0⟩
/-- Qc dlyF: offset 0x4, bits [31:0], RO. -/
abbrev R.qcDlyF (t : Nat) : Fld := ⟨⟨189, t, 0⟩, 32, 0⟩
/-- Qc hwmDepF: offset 0x8, bits [17:0], RC. -/
abbrev R.qcHwmDepF (t : Nat) : Fld := ⟨⟨190, t, 0⟩, 18, 0⟩
/-- Qc hwmDlyF: offset 0xc, bits [31:0], RC. -/
abbrev R.qcHwmDlyF (t : Nat) : Fld := ⟨⟨191, t, 0⟩, 32, 0⟩
/-- Qc validR: offset 0x10, bits [31:31], RO. -/
abbrev R.qcValidR (t : Nat) : Fld := ⟨⟨192, t, 0⟩, 1, 0⟩
/-- Qc depthR: offset 0x10, bits [17:0], RO. -/
abbrev R.qcDepthR (t : Nat) : Fld := ⟨⟨193, t, 0⟩, 18, 0⟩
/-- Qc dlyR: offset 0x14, bits [31:0], RO. -/
abbrev R.qcDlyR (t : Nat) : Fld := ⟨⟨194, t, 0⟩, 32, 0⟩
/-- Qc hwmDepR: offset 0x18, bits [17:0], RC. -/
abbrev R.qcHwmDepR (t : Nat) : Fld := ⟨⟨195, t, 0⟩, 18, 0⟩
/-- Qc hwmDlyR: offset 0x1c, bits [31:0], RC. -/
abbrev R.qcHwmDlyR (t : Nat) : Fld := ⟨⟨196, t, 0⟩, 32, 0⟩
/-- Qc smpTick: offset 0x20, bits [31:0], RO. -/
abbrev R.qcSmpTick (t : Nat) : Fld := ⟨⟨197, t, 0⟩, 32, 0⟩
/-- Qc txfrmF: offset 0x24, bits [31:0], RO. -/
abbrev R.qcTxfrmF (t : Nat) : Fld := ⟨⟨198, t, 0⟩, 32, 0⟩
/-- Qc txkibF: offset 0x28, bits [31:0], RO. -/
abbrev R.qcTxkibF (t : Nat) : Fld := ⟨⟨199, t, 0⟩, 32, 0⟩
/-- Qc txfrmR: offset 0x2c, bits [31:0], RO. -/
abbrev R.qcTxfrmR (t : Nat) : Fld := ⟨⟨200, t, 0⟩, 32, 0⟩
/-- Qc txkibR: offset 0x30, bits [31:0], RO. -/
abbrev R.qcTxkibR (t : Nat) : Fld := ⟨⟨201, t, 0⟩, 32, 0⟩

/-! 08_scheduling.md R291: registers at 0x2700000. -/
/-- Sch ovhEnc: offset 0x0, bits [30:24], RO. -/
abbrev R.schOvhEnc (c : Nat) : Fld := ⟨⟨202, c, 0⟩, 7, (if c < 4 then 0x38 else 0x20)⟩
/-- Sch guard: offset 0x0, bits [23:16], RO. -/
abbrev R.schGuard (c : Nat) : Fld := ⟨⟨203, c, 0⟩, 8, 0x32⟩
/-- Sch bl0: offset 0x4, bits [31:0], RO. -/
abbrev R.schBl0 (c : Nat) : Fld := ⟨⟨204, c, 0⟩, 32, 0x94E21C00⟩
/-- Sch bl1: offset 0x8, bits [31:0], RO. -/
abbrev R.schBl1 (c : Nat) : Fld := ⟨⟨205, c, 0⟩, 32, 0⟩
/-- Sch bl3: offset 0xc, bits [31:0], RO. -/
abbrev R.schBl3 (c : Nat) : Fld := ⟨⟨206, c, 0⟩, 32, 0⟩
/-- Sch wmap: offset 0x14, bits [24:0], RO. -/
abbrev R.schWmap (c : Nat) : Fld := ⟨⟨207, c, 0⟩, 25, 0⟩
/-- Sch guardCnt: offset 0x18, bits [31:16], RC. -/
abbrev R.schGuardCnt (c : Nat) : Fld := ⟨⟨208, c, 0⟩, 16, 0⟩
/-- Sch b2Frm: offset 0x18, bits [15:0], RC. -/
abbrev R.schB2Frm (c : Nat) : Fld := ⟨⟨209, c, 0⟩, 16, 0⟩

/-! 09_replan.md R317: registers at 0x2810000. -/
/-- Plan state: offset 0x0, bits [31:29], RO. -/
abbrev R.planState (s : Nat) : Fld := ⟨⟨210, s, 0⟩, 3, 0⟩
/-- Plan outcome: offset 0x0, bits [28:26], RO. -/
abbrev R.planOutcome (s : Nat) : Fld := ⟨⟨211, s, 0⟩, 3, 0⟩
/-- Plan nrec: offset 0x0, bits [25:15], RO. -/
abbrev R.planNrec (s : Nat) : Fld := ⟨⟨212, s, 0⟩, 11, 0⟩
/-- Plan planId: offset 0x4, bits [31:16], RO. -/
abbrev R.planPlanId (s : Nat) : Fld := ⟨⟨213, s, 0⟩, 16, 0⟩
/-- Plan tunId: offset 0x4, bits [15:0], RO. -/
abbrev R.planTunId (s : Nat) : Fld := ⟨⟨214, s, 0⟩, 16, 0⟩
/-- Plan cfgId: offset 0x8, bits [31:16], RO. -/
abbrev R.planCfgId (s : Nat) : Fld := ⟨⟨215, s, 0⟩, 16, 0⟩
/-- Plan lastId: offset 0x8, bits [15:0], RO. -/
abbrev R.planLastId (s : Nat) : Fld := ⟨⟨216, s, 0⟩, 16, 0⟩
/-- Plan armLo: offset 0xc, bits [31:0], RO. -/
abbrev R.planArmLo (s : Nat) : Fld := ⟨⟨217, s, 0⟩, 32, 0⟩
/-- Plan skipped: offset 0x10, bits [31:16], RO. -/
abbrev R.planSkipped (s : Nat) : Fld := ⟨⟨218, s, 0⟩, 16, 0⟩
/-- Plan armHi: offset 0x10, bits [15:0], RO. -/
abbrev R.planArmHi (s : Nat) : Fld := ⟨⟨219, s, 0⟩, 16, 0⟩
/-- Plan failRec: offset 0x14, bits [31:16], RO. -/
abbrev R.planFailRec (s : Nat) : Fld := ⟨⟨220, s, 0⟩, 16, 0xFFFF⟩
/-- Plan failCode: offset 0x14, bits [7:0], RO. -/
abbrev R.planFailCode (s : Nat) : Fld := ⟨⟨221, s, 0⟩, 8, 0⟩
/-- Plan failPlan: offset 0x18, bits [15:0], RO. -/
abbrev R.planFailPlan (s : Nat) : Fld := ⟨⟨222, s, 0⟩, 16, 0⟩

/-! 09_replan.md R317: registers at 0x2800000. -/
/-- Share w1: offset 0x0, bits [31:0], RO. -/
abbrev R.shareW1 (m : Nat) (c : Nat) : Fld := ⟨⟨223, m, c⟩, 32, 0⟩
/-- Share w2: offset 0x4, bits [31:0], RO. -/
abbrev R.shareW2 (m : Nat) (c : Nat) : Fld := ⟨⟨224, m, c⟩, 32, 0⟩
/-- Share w3: offset 0x8, bits [31:0], RO. -/
abbrev R.shareW3 (m : Nat) (c : Nat) : Fld := ⟨⟨225, m, c⟩, 32, 0⟩
/-- Share w4: offset 0xc, bits [31:0], RO. -/
abbrev R.shareW4 (m : Nat) (c : Nat) : Fld := ⟨⟨226, m, c⟩, 32, 0⟩

/-! 09_replan.md R317: registers at 0x2820000. -/
/-- Adm cap: offset 0x0, bits [30:15], RO. -/
abbrev R.admCap (c : Nat) : Fld := ⟨⟨227, c, 0⟩, 16, (Config.admCapReset c)⟩

/-! 10_failover.md R340: registers at 0x2900000. -/
/-- Fo autoret: offset 0x0, bits [31:31], RW. -/
abbrev R.foAutoret (n : Nat) : Fld := ⟨⟨228, n, 0⟩, 1, 0⟩
/-- Fo crdEn: offset 0x0, bits [30:30], RW. -/
abbrev R.foCrdEn (n : Nat) : Fld := ⟨⟨229, n, 0⟩, 1, 1⟩
/-- Fo rtrDly: offset 0x0, bits [23:16], RW. -/
abbrev R.foRtrDly (n : Nat) : Fld := ⟨⟨230, n, 0⟩, 8, 0x0A⟩
/-- Fo crdTmo: offset 0x0, bits [15:8], RW. -/
abbrev R.foCrdTmo (n : Nat) : Fld := ⟨⟨231, n, 0⟩, 8, 0x0A⟩
/-- Fo retHold: offset 0x4, bits [15:0], RW. -/
abbrev R.foRetHold (n : Nat) : Fld := ⟨⟨232, n, 0⟩, 16, 0x190⟩
/-- Fo state: offset 0x8, bits [31:30], RO. -/
abbrev R.foState (n : Nat) : Fld := ⟨⟨233, n, 0⟩, 2, 0⟩
/-- Fo cause: offset 0x8, bits [29:26], RO. -/
abbrev R.foCause (n : Nat) : Fld := ⟨⟨234, n, 0⟩, 4, 0⟩
/-- Fo cnt: offset 0x8, bits [23:16], RC. -/
abbrev R.foCnt (n : Nat) : Fld := ⟨⟨235, n, 0⟩, 8, 0⟩
/-- Fo rplCells: offset 0x8, bits [15:0], RO. -/
abbrev R.foRplCells (n : Nat) : Fld := ⟨⟨236, n, 0⟩, 16, 0⟩
/-- Fo swLat: offset 0xc, bits [31:16], RO. -/
abbrev R.foSwLat (n : Nat) : Fld := ⟨⟨237, n, 0⟩, 16, 0⟩
/-- Fo resLat: offset 0xc, bits [15:0], RO. -/
abbrev R.foResLat (n : Nat) : Fld := ⟨⟨238, n, 0⟩, 16, 0⟩
/-- Fo noaltDrop: offset 0x10, bits [31:16], RC. -/
abbrev R.foNoaltDrop (n : Nat) : Fld := ⟨⟨239, n, 0⟩, 16, 0⟩
/-- Fo rplFrm: offset 0x10, bits [15:0], RC. -/
abbrev R.foRplFrm (n : Nat) : Fld := ⟨⟨240, n, 0⟩, 16, 0⟩

/-! 11_line_ports.md R369: registers at 0x1010000. -/
/-- Lp en: offset 0x0, bits [31:31], RW. -/
abbrev R.lpEn (n : Nat) : Fld := ⟨⟨241, n, 0⟩, 1, 0⟩
/-- Lp encEn: offset 0x0, bits [30:30], RW. -/
abbrev R.lpEncEn (n : Nat) : Fld := ⟨⟨242, n, 0⟩, 1, 0⟩
/-- Lp autoidle: offset 0x0, bits [29:29], RW. -/
abbrev R.lpAutoidle (n : Nat) : Fld := ⟨⟨243, n, 0⟩, 1, 0⟩
/-- Lp maxrate: offset 0x0, bits [28:27], RW. -/
abbrev R.lpMaxrate (n : Nat) : Fld := ⟨⟨244, n, 0⟩, 2, 2⟩
/-- Lp cabcap: offset 0x0, bits [26:25], RW. -/
abbrev R.lpCabcap (n : Nat) : Fld := ⟨⟨245, n, 0⟩, 2, 2⟩
/-- Lp minw: offset 0x0, bits [24:24], RW. -/
abbrev R.lpMinw (n : Nat) : Fld := ⟨⟨246, n, 0⟩, 1, 0⟩
/-- Lp lrtrDly: offset 0x0, bits [23:16], RW. -/
abbrev R.lpLrtrDly (n : Nat) : Fld := ⟨⟨247, n, 0⟩, 8, 0x0A⟩
/-- Lp idleDly: offset 0x0, bits [15:8], RW. -/
abbrev R.lpIdleDly (n : Nat) : Fld := ⟨⟨248, n, 0⟩, 8, 0x0A⟩
/-- Lp presetStart: offset 0x0, bits [7:4], RW. -/
abbrev R.lpPresetStart (n : Nat) : Fld := ⟨⟨249, n, 0⟩, 4, 4⟩
/-- Lp fomTgt: offset 0x4, bits [31:24], RW. -/
abbrev R.lpFomTgt (n : Nat) : Fld := ⟨⟨250, n, 0⟩, 8, 0xA0⟩
/-- Lp fomMin: offset 0x4, bits [23:16], RW. -/
abbrev R.lpFomMin (n : Nat) : Fld := ⟨⟨251, n, 0⟩, 8, 0x40⟩
/-- Lp fomFail: offset 0x4, bits [15:8], RW. -/
abbrev R.lpFomFail (n : Nat) : Fld := ⟨⟨252, n, 0⟩, 8, 0x28⟩
/-- Lp state: offset 0x8, bits [31:29], RO. -/
abbrev R.lpState (n : Nat) : Fld := ⟨⟨253, n, 0⟩, 3, 0⟩
/-- Lp kind: offset 0x8, bits [28:28], RO. -/
abbrev R.lpKind (n : Nat) : Fld := ⟨⟨254, n, 0⟩, 1, 0⟩
/-- Lp snk: offset 0x8, bits [27:27], RO. -/
abbrev R.lpSnk (n : Nat) : Fld := ⟨⟨255, n, 0⟩, 1, 0⟩
/-- Lp orient: offset 0x8, bits [26:26], RO. -/
abbrev R.lpOrient (n : Nat) : Fld := ⟨⟨256, n, 0⟩, 1, 0⟩
/-- Lp rate: offset 0x8, bits [25:24], RO. -/
abbrev R.lpRate (n : Nat) : Fld := ⟨⟨257, n, 0⟩, 2, 0⟩
/-- Lp nlane: offset 0x8, bits [23:22], RO. -/
abbrev R.lpNlane (n : Nat) : Fld := ⟨⟨258, n, 0⟩, 2, 0⟩
/-- Lp retired: offset 0x8, bits [21:20], RO. -/
abbrev R.lpRetired (n : Nat) : Fld := ⟨⟨259, n, 0⟩, 2, 0⟩
/-- Lp eidleTx: offset 0x8, bits [19:19], RO. -/
abbrev R.lpEidleTx (n : Nat) : Fld := ⟨⟨260, n, 0⟩, 1, 0⟩
/-- Lp eidleRx: offset 0x8, bits [18:18], RO. -/
abbrev R.lpEidleRx (n : Nat) : Fld := ⟨⟨261, n, 0⟩, 1, 0⟩
/-- Lp enc: offset 0x8, bits [17:17], RO. -/
abbrev R.lpEnc (n : Nat) : Fld := ⟨⟨262, n, 0⟩, 1, 0⟩
/-- Lp holdn: offset 0x8, bits [14:8], RO. -/
abbrev R.lpHoldn (n : Nat) : Fld := ⟨⟨263, n, 0⟩, 7, 0⟩
/-- Lp ctl: offset 0xc, bits [31:24], RO. -/
abbrev R.lpCtl (n : Nat) : Fld := ⟨⟨264, n, 0⟩, 8, 2⟩
/-- Lp iso: offset 0xc, bits [23:16], RO. -/
abbrev R.lpIso (n : Nat) : Fld := ⟨⟨265, n, 0⟩, 8, 0x0A⟩
/-- Lp rtx: offset 0xc, bits [15:8], RO. -/
abbrev R.lpRtx (n : Nat) : Fld := ⟨⟨266, n, 0⟩, 8, 0x0A⟩
/-- Lp blk: offset 0xc, bits [7:0], RO. -/
abbrev R.lpBlk (n : Nat) : Fld := ⟨⟨267, n, 0⟩, 8, 0x0A⟩
/-- Lp nbTmo: offset 0x10, bits [31:24], RW. -/
abbrev R.lpNbTmo (n : Nat) : Fld := ⟨⟨268, n, 0⟩, 8, 0x20⟩
/-- Lp nbWin: offset 0x10, bits [23:20], RW. -/
abbrev R.lpNbWin (n : Nat) : Fld := ⟨⟨269, n, 0⟩, 4, 4⟩
/-- Lp nbWeight: offset 0x10, bits [19:8], RW. -/
abbrev R.lpNbWeight (n : Nat) : Fld := ⟨⟨270, n, 0⟩, 12, 0x100⟩
/-- Lp rtt: offset 0x14, bits [15:0], RO. -/
abbrev R.lpRtt (n : Nat) : Fld := ⟨⟨271, n, 0⟩, 16, 0⟩
/-- Lp cause: offset 0x18, bits [8:0], W1C. -/
abbrev R.lpCause (n : Nat) : Fld := ⟨⟨272, n, 0⟩, 9, 0⟩
/-- Lp epoch: offset 0x1c, bits [31:0], RO. -/
abbrev R.lpEpoch (n : Nat) : Fld := ⟨⟨273, n, 0⟩, 32, 0⟩
/-- Lp crcErr: offset 0x60, bits [31:16], RC. -/
abbrev R.lpCrcErr (n : Nat) : Fld := ⟨⟨274, n, 0⟩, 16, 0⟩
/-- Lp nakTx: offset 0x60, bits [15:0], RC. -/
abbrev R.lpNakTx (n : Nat) : Fld := ⟨⟨275, n, 0⟩, 16, 0⟩
/-- Lp replayLu: offset 0x64, bits [31:16], RC. -/
abbrev R.lpReplayLu (n : Nat) : Fld := ⟨⟨276, n, 0⟩, 16, 0⟩
/-- Lp nakRx: offset 0x64, bits [15:0], RC. -/
abbrev R.lpNakRx (n : Nat) : Fld := ⟨⟨277, n, 0⟩, 16, 0⟩
/-- Lp urLost: offset 0x68, bits [31:16], RC. -/
abbrev R.lpUrLost (n : Nat) : Fld := ⟨⟨278, n, 0⟩, 16, 0⟩
/-- Lp dup: offset 0x68, bits [15:0], RC. -/
abbrev R.lpDup (n : Nat) : Fld := ⟨⟨279, n, 0⟩, 16, 0⟩
/-- Lp gap: offset 0x6c, bits [31:16], RC. -/
abbrev R.lpGap (n : Nat) : Fld := ⟨⟨280, n, 0⟩, 16, 0⟩
/-- Lp fmtErr: offset 0x6c, bits [15:0], RC. -/
abbrev R.lpFmtErr (n : Nat) : Fld := ⟨⟨281, n, 0⟩, 16, 0⟩
/-- Lp tagFail: offset 0x70, bits [31:16], RC. -/
abbrev R.lpTagFail (n : Nat) : Fld := ⟨⟨282, n, 0⟩, 16, 0⟩
/-- Lp ctrRej: offset 0x70, bits [15:0], RC. -/
abbrev R.lpCtrRej (n : Nat) : Fld := ⟨⟨283, n, 0⟩, 16, 0⟩
/-- Lp authRefuse: offset 0x74, bits [31:16], RC. -/
abbrev R.lpAuthRefuse (n : Nat) : Fld := ⟨⟨284, n, 0⟩, 16, 0⟩
/-- Lp preDrop: offset 0x74, bits [15:0], RC. -/
abbrev R.lpPreDrop (n : Nat) : Fld := ⟨⟨285, n, 0⟩, 16, 0⟩
/-- Lp nodeIdLo: offset 0x80, bits [31:0], RO. -/
abbrev R.lpNodeIdLo (n : Nat) : Fld := ⟨⟨286, n, 0⟩, 32, 0⟩
/-- Lp nodeIdHi: offset 0x84, bits [31:0], RO. -/
abbrev R.lpNodeIdHi (n : Nat) : Fld := ⟨⟨287, n, 0⟩, 32, 0⟩
/-- Lp vendor: offset 0x88, bits [31:16], RO. -/
abbrev R.lpVendor (n : Nat) : Fld := ⟨⟨288, n, 0⟩, 16, 0⟩
/-- Lp model: offset 0x88, bits [15:0], RO. -/
abbrev R.lpModel (n : Nat) : Fld := ⟨⟨289, n, 0⟩, 16, 0⟩
/-- Lp nodeCap: offset 0x8c, bits [31:0], RO. -/
abbrev R.lpNodeCap (n : Nat) : Fld := ⟨⟨290, n, 0⟩, 32, 0⟩
/-- Lp nodeNb: offset 0x90, bits [31:0], RO. -/
abbrev R.lpNodeNb (n : Nat) : Fld := ⟨⟨291, n, 0⟩, 32, 0⟩
/-- Lp nbReqTx: offset 0x94, bits [31:16], RC. -/
abbrev R.lpNbReqTx (n : Nat) : Fld := ⟨⟨292, n, 0⟩, 16, 0⟩
/-- Lp nbTmout: offset 0x94, bits [15:0], RC. -/
abbrev R.lpNbTmout (n : Nat) : Fld := ⟨⟨293, n, 0⟩, 16, 0⟩
/-- Lp nbFmt: offset 0x98, bits [31:16], RC. -/
abbrev R.lpNbFmt (n : Nat) : Fld := ⟨⟨294, n, 0⟩, 16, 0⟩
/-- Lp nodeDrop: offset 0x98, bits [15:0], RC. -/
abbrev R.lpNodeDrop (n : Nat) : Fld := ⟨⟨295, n, 0⟩, 16, 0⟩
/-- Lp ldownDrop: offset 0x9c, bits [31:16], RC. -/
abbrev R.lpLdownDrop (n : Nat) : Fld := ⟨⟨296, n, 0⟩, 16, 0⟩
/-- Lp helloRpt: offset 0x9c, bits [15:0], RC. -/
abbrev R.lpHelloRpt (n : Nat) : Fld := ⟨⟨297, n, 0⟩, 16, 0⟩

/-! 11_line_ports.md R369: registers at 0x1010040. -/
/-- Lln lstate: offset 0x0, bits [31:29], RO. -/
abbrev R.llnLstate (n : Nat) (l : Nat) : Fld := ⟨⟨298, n, l⟩, 3, 0⟩
/-- Lln pos: offset 0x0, bits [28:26], RO. -/
abbrev R.llnPos (n : Nat) (l : Nat) : Fld := ⟨⟨299, n, l⟩, 3, 7⟩
/-- Lln temperStop: offset 0x0, bits [25:25], RO. -/
abbrev R.llnTemperStop (n : Nat) (l : Nat) : Fld := ⟨⟨300, n, l⟩, 1, 0⟩
/-- Lln lock: offset 0x0, bits [24:24], RO. -/
abbrev R.llnLock (n : Nat) (l : Nat) : Fld := ⟨⟨301, n, l⟩, 1, 0⟩
/-- Lln fom: offset 0x0, bits [23:16], RO. -/
abbrev R.llnFom (n : Nat) (l : Nat) : Fld := ⟨⟨302, n, l⟩, 8, 0⟩
/-- Lln fomTrn: offset 0x0, bits [15:8], RO. -/
abbrev R.llnFomTrn (n : Nat) (l : Nat) : Fld := ⟨⟨303, n, l⟩, 8, 0⟩
/-- Lln fomLow: offset 0x0, bits [7:0], RC. -/
abbrev R.llnFomLow (n : Nat) (l : Nat) : Fld := ⟨⟨304, n, l⟩, 8, 255⟩
/-- Lln main: offset 0x4, bits [31:26], RO. -/
abbrev R.llnMain (n : Nat) (l : Nat) : Fld := ⟨⟨305, n, l⟩, 6, 63⟩
/-- Lln p1: offset 0x4, bits [25:21], RO. -/
abbrev R.llnP1 (n : Nat) (l : Nat) : Fld := ⟨⟨306, n, l⟩, 5, 0⟩
/-- Lln pre: offset 0x4, bits [20:17], RO. -/
abbrev R.llnPre (n : Nat) (l : Nat) : Fld := ⟨⟨307, n, l⟩, 4, 0⟩
/-- Lln p2: offset 0x4, bits [16:13], RO. -/
abbrev R.llnP2 (n : Nat) (l : Nat) : Fld := ⟨⟨308, n, l⟩, 4, 0⟩
/-- Lln ctle: offset 0x4, bits [12:9], RO. -/
abbrev R.llnCtle (n : Nat) (l : Nat) : Fld := ⟨⟨309, n, l⟩, 4, 0⟩
/-- Lln phase: offset 0x4, bits [8:4], RO. -/
abbrev R.llnPhase (n : Nat) (l : Nat) : Fld := ⟨⟨310, n, l⟩, 5, 0⟩
/-- Lln dfe5: offset 0x8, bits [29:24], RO. -/
abbrev R.llnDfe5 (n : Nat) (l : Nat) : Fld := ⟨⟨311, n, l⟩, 6, 0⟩
/-- Lln dfe4: offset 0x8, bits [23:18], RO. -/
abbrev R.llnDfe4 (n : Nat) (l : Nat) : Fld := ⟨⟨312, n, l⟩, 6, 0⟩
/-- Lln dfe3: offset 0x8, bits [17:12], RO. -/
abbrev R.llnDfe3 (n : Nat) (l : Nat) : Fld := ⟨⟨313, n, l⟩, 6, 0⟩
/-- Lln dfe2: offset 0x8, bits [11:6], RO. -/
abbrev R.llnDfe2 (n : Nat) (l : Nat) : Fld := ⟨⟨314, n, l⟩, 6, 0⟩
/-- Lln dfe1: offset 0x8, bits [5:0], RO. -/
abbrev R.llnDfe1 (n : Nat) (l : Nat) : Fld := ⟨⟨315, n, l⟩, 6, 0⟩
/-- Lln syncErr: offset 0xc, bits [31:16], RC. -/
abbrev R.llnSyncErr (n : Nat) (l : Nat) : Fld := ⟨⟨316, n, l⟩, 16, 0⟩
/-- Lln steps: offset 0xc, bits [15:8], RC. -/
abbrev R.llnSteps (n : Nat) (l : Nat) : Fld := ⟨⟨317, n, l⟩, 8, 0⟩
/-- Lln faults: offset 0xc, bits [7:4], RC. -/
abbrev R.llnFaults (n : Nat) (l : Nat) : Fld := ⟨⟨318, n, l⟩, 4, 0⟩
/-- Lln undo: offset 0xc, bits [3:0], RC. -/
abbrev R.llnUndo (n : Nat) (l : Nat) : Fld := ⟨⟨319, n, l⟩, 4, 0⟩

/-! 12_bridging.md R396: registers at 0x5000100. -/
/-- Brg holdUs: offset 0x0, bits [31:22], RW. -/
abbrev R.brgHoldUs : Fld := ⟨⟨320, 0, 0⟩, 10, 0x40⟩
/-- Brg nholdUs: offset 0x0, bits [21:12], RW. -/
abbrev R.brgNholdUs : Fld := ⟨⟨321, 0, 0⟩, 10, 0x40⟩
/-- Brg lrecMax: offset 0x0, bits [11:4], RW. -/
abbrev R.brgLrecMax : Fld := ⟨⟨322, 0, 0⟩, 8, 0x80⟩
/-- Brg retryTx: offset 0x40, bits [31:16], RC. -/
abbrev R.brgRetryTx : Fld := ⟨⟨323, 0, 0⟩, 16, 0⟩
/-- Brg holdHit: offset 0x40, bits [15:0], RC. -/
abbrev R.brgHoldHit : Fld := ⟨⟨324, 0, 0⟩, 16, 0⟩
/-- Brg holdLost: offset 0x44, bits [31:16], RC. -/
abbrev R.brgHoldLost : Fld := ⟨⟨325, 0, 0⟩, 16, 0⟩
/-- Brg slotFull: offset 0x44, bits [15:0], RC. -/
abbrev R.brgSlotFull : Fld := ⟨⟨326, 0, 0⟩, 16, 0⟩
/-- Brg tagClash: offset 0x48, bits [31:16], RC. -/
abbrev R.brgTagClash : Fld := ⟨⟨327, 0, 0⟩, 16, 0⟩
/-- Brg lateRec: offset 0x48, bits [15:0], RC. -/
abbrev R.brgLateRec : Fld := ⟨⟨328, 0, 0⟩, 16, 0⟩
/-- Brg nretryTx: offset 0x4c, bits [31:16], RC. -/
abbrev R.brgNretryTx : Fld := ⟨⟨329, 0, 0⟩, 16, 0⟩
/-- Brg nholdLost: offset 0x4c, bits [15:0], RC. -/
abbrev R.brgNholdLost : Fld := ⟨⟨330, 0, 0⟩, 16, 0⟩
/-- Brg cross: offset 0x50, bits [31:16], RC. -/
abbrev R.brgCross : Fld := ⟨⟨331, 0, 0⟩, 16, 0⟩
/-- Brg nbRefuse: offset 0x50, bits [15:0], RC. -/
abbrev R.brgNbRefuse : Fld := ⟨⟨332, 0, 0⟩, 16, 0⟩
/-- Brg mirFull: offset 0x64, bits [31:16], RC. -/
abbrev R.brgMirFull : Fld := ⟨⟨333, 0, 0⟩, 16, 0⟩
/-- Brg mirFmt: offset 0x64, bits [15:0], RC. -/
abbrev R.brgMirFmt : Fld := ⟨⟨334, 0, 0⟩, 16, 0⟩

/-! 12_bridging.md R396: registers at 0x5000200. -/
/-- Nwin wmask: offset 0x0, bits [15:0], RW. -/
abbrev R.nwinWmask (p : Nat) : Fld := ⟨⟨335, p, 0⟩, 16, 0⟩

/-! 12_bridging.md R396: registers at 0x5018000. -/
/-- Blog ovfCnt: offset 0x0, bits [31:16], RC. -/
abbrev R.blogOvfCnt (g : Nat) : Fld := ⟨⟨336, g, 0⟩, 16, 0⟩
/-- Blog next: offset 0x0, bits [12:8], RO. -/
abbrev R.blogNext (g : Nat) : Fld := ⟨⟨337, g, 0⟩, 5, 0⟩
/-- Blog count: offset 0x0, bits [5:0], RO. -/
abbrev R.blogCount (g : Nat) : Fld := ⟨⟨338, g, 0⟩, 6, 0⟩

/-! 13_raster.md R429: registers at 0x3001000. -/
/-- Flip armBit: offset 0x18, bits [31:31], RW. -/
abbrev R.flipArmBit (h : Nat) : Fld := ⟨⟨339, h, 0⟩, 1, 0⟩
/-- Flip flipId: offset 0x18, bits [15:0], RW. -/
abbrev R.flipFlipId (h : Nat) : Fld := ⟨⟨340, h, 0⟩, 16, 0⟩
/-- Flip doneId: offset 0x1c, bits [31:16], RO. -/
abbrev R.flipDoneId (h : Nat) : Fld := ⟨⟨341, h, 0⟩, 16, 0⟩
/-- Flip err: offset 0x1c, bits [15:15], RC. -/
abbrev R.flipErr (h : Nat) : Fld := ⟨⟨342, h, 0⟩, 1, 0⟩
/-- Flip ecode: offset 0x1c, bits [14:12], RO. -/
abbrev R.flipEcode (h : Nat) : Fld := ⟨⟨343, h, 0⟩, 3, 0⟩
/-- Flip cnt: offset 0x20, bits [31:0], RO. -/
abbrev R.flipCnt (h : Nat) : Fld := ⟨⟨344, h, 0⟩, 32, 0⟩

/-! 13_raster.md R429: registers at 0x3001000. -/
/-- FlipP lo: offset 0x0, bits [31:8], RW. -/
abbrev R.flipPLo (h : Nat) (p : Nat) : Fld := ⟨⟨345, h, p⟩, 24, 0⟩
/-- FlipP hi: offset 0x4, bits [7:0], RW. -/
abbrev R.flipPHi (h : Nat) (p : Nat) : Fld := ⟨⟨346, h, p⟩, 8, 0⟩
/-- FlipP curLo: offset 0x30, bits [31:8], RO. -/
abbrev R.flipPCurLo (h : Nat) (p : Nat) : Fld := ⟨⟨347, h, p⟩, 24, 0⟩
/-- FlipP curHi: offset 0x34, bits [7:0], RO. -/
abbrev R.flipPCurHi (h : Nat) (p : Nat) : Fld := ⟨⟨348, h, p⟩, 8, 0⟩

/-! 13_raster.md R429: registers at 0x3100000. -/
/-- Rh en: offset 0x0, bits [31:31], RO. -/
abbrev R.rhEn (h : Nat) : Fld := ⟨⟨349, h, 0⟩, 1, 0⟩
/-- Rh sink: offset 0x0, bits [30:29], RO. -/
abbrev R.rhSink (h : Nat) : Fld := ⟨⟨350, h, 0⟩, 2, 0⟩
/-- Rh fmt: offset 0x0, bits [28:27], RO. -/
abbrev R.rhFmt (h : Nat) : Fld := ⟨⟨351, h, 0⟩, 2, 0⟩
/-- Rh depth: offset 0x0, bits [26:25], RO. -/
abbrev R.rhDepth (h : Nat) : Fld := ⟨⟨352, h, 0⟩, 2, 0⟩
/-- Rh obpc: offset 0x0, bits [24:23], RO. -/
abbrev R.rhObpc (h : Nat) : Fld := ⟨⟨353, h, 0⟩, 2, 0⟩
/-- Rh ups: offset 0x0, bits [22:22], RO. -/
abbrev R.rhUps (h : Nat) : Fld := ⟨⟨354, h, 0⟩, 1, 0⟩
/-- Rh witEn: offset 0x0, bits [21:21], RO. -/
abbrev R.rhWitEn (h : Nat) : Fld := ⟨⟨355, h, 0⟩, 1, 0⟩
/-- Rh witAct: offset 0x0, bits [20:19], RO. -/
abbrev R.rhWitAct (h : Nat) : Fld := ⟨⟨356, h, 0⟩, 2, 0⟩
/-- Rh safeAct: offset 0x0, bits [18:18], RO. -/
abbrev R.rhSafeAct (h : Nat) : Fld := ⟨⟨357, h, 0⟩, 1, 0⟩
/-- Rh nseg: offset 0x0, bits [17:16], RO. -/
abbrev R.rhNseg (h : Nat) : Fld := ⟨⟨358, h, 0⟩, 2, 0⟩
/-- Rh tunnel: offset 0x0, bits [11:0], RO. -/
abbrev R.rhTunnel (h : Nat) : Fld := ⟨⟨359, h, 0⟩, 12, 0⟩
/-- Rh hact: offset 0x4, bits [31:16], RO. -/
abbrev R.rhHact (h : Nat) : Fld := ⟨⟨360, h, 0⟩, 16, 0⟩
/-- Rh htotal: offset 0x4, bits [15:0], RO. -/
abbrev R.rhHtotal (h : Nat) : Fld := ⟨⟨361, h, 0⟩, 16, 0⟩
/-- Rh hfp: offset 0x8, bits [31:16], RO. -/
abbrev R.rhHfp (h : Nat) : Fld := ⟨⟨362, h, 0⟩, 16, 0⟩
/-- Rh hsync: offset 0x8, bits [15:0], RO. -/
abbrev R.rhHsync (h : Nat) : Fld := ⟨⟨363, h, 0⟩, 16, 0⟩
/-- Rh vact: offset 0xc, bits [31:16], RO. -/
abbrev R.rhVact (h : Nat) : Fld := ⟨⟨364, h, 0⟩, 16, 0⟩
/-- Rh vtotal: offset 0xc, bits [15:0], RO. -/
abbrev R.rhVtotal (h : Nat) : Fld := ⟨⟨365, h, 0⟩, 16, 0⟩
/-- Rh vfp: offset 0x10, bits [31:16], RO. -/
abbrev R.rhVfp (h : Nat) : Fld := ⟨⟨366, h, 0⟩, 16, 0⟩
/-- Rh vsync: offset 0x10, bits [15:0], RO. -/
abbrev R.rhVsync (h : Nat) : Fld := ⟨⟨367, h, 0⟩, 16, 0⟩
/-- Rh hpol: offset 0x14, bits [31:31], RO. -/
abbrev R.rhHpol (h : Nat) : Fld := ⟨⟨368, h, 0⟩, 1, 0⟩
/-- Rh vpol: offset 0x14, bits [30:30], RO. -/
abbrev R.rhVpol (h : Nat) : Fld := ⟨⟨369, h, 0⟩, 1, 0⟩
/-- Rh pclkKhz: offset 0x14, bits [19:0], RO. -/
abbrev R.rhPclkKhz (h : Nat) : Fld := ⟨⟨370, h, 0⟩, 20, 0⟩
/-- Rh strideP0: offset 0x18, bits [31:16], RO. -/
abbrev R.rhStrideP0 (h : Nat) : Fld := ⟨⟨371, h, 0⟩, 16, 0⟩
/-- Rh strideP1: offset 0x18, bits [15:0], RO. -/
abbrev R.rhStrideP1 (h : Nat) : Fld := ⟨⟨372, h, 0⟩, 16, 0⟩
/-- Rh strideP2: offset 0x1c, bits [15:0], RO. -/
abbrev R.rhStrideP2 (h : Nat) : Fld := ⟨⟨373, h, 0⟩, 16, 0⟩
/-- Rh c00: offset 0x20, bits [31:16], RO. -/
abbrev R.rhC00 (h : Nat) : Fld := ⟨⟨374, h, 0⟩, 16, 0x2000⟩
/-- Rh c01: offset 0x20, bits [15:0], RO. -/
abbrev R.rhC01 (h : Nat) : Fld := ⟨⟨375, h, 0⟩, 16, 0⟩
/-- Rh c02: offset 0x24, bits [31:16], RO. -/
abbrev R.rhC02 (h : Nat) : Fld := ⟨⟨376, h, 0⟩, 16, 0⟩
/-- Rh c10: offset 0x24, bits [15:0], RO. -/
abbrev R.rhC10 (h : Nat) : Fld := ⟨⟨377, h, 0⟩, 16, 0⟩
/-- Rh c11: offset 0x28, bits [31:16], RO. -/
abbrev R.rhC11 (h : Nat) : Fld := ⟨⟨378, h, 0⟩, 16, 0x2000⟩
/-- Rh c12: offset 0x28, bits [15:0], RO. -/
abbrev R.rhC12 (h : Nat) : Fld := ⟨⟨379, h, 0⟩, 16, 0⟩
/-- Rh c20: offset 0x2c, bits [31:16], RO. -/
abbrev R.rhC20 (h : Nat) : Fld := ⟨⟨380, h, 0⟩, 16, 0⟩
/-- Rh c21: offset 0x2c, bits [15:0], RO. -/
abbrev R.rhC21 (h : Nat) : Fld := ⟨⟨381, h, 0⟩, 16, 0⟩
/-- Rh c22: offset 0x30, bits [31:16], RO. -/
abbrev R.rhC22 (h : Nat) : Fld := ⟨⟨382, h, 0⟩, 16, 0x2000⟩
/-- Rh offY: offset 0x34, bits [28:16], RO. -/
abbrev R.rhOffY (h : Nat) : Fld := ⟨⟨383, h, 0⟩, 13, 0⟩
/-- Rh offCb: offset 0x34, bits [12:0], RO. -/
abbrev R.rhOffCb (h : Nat) : Fld := ⟨⟨384, h, 0⟩, 13, 0⟩
/-- Rh offCr: offset 0x38, bits [28:16], RO. -/
abbrev R.rhOffCr (h : Nat) : Fld := ⟨⟨385, h, 0⟩, 13, 0⟩
/-- Rh fillR: offset 0x3c, bits [23:16], RO. -/
abbrev R.rhFillR (h : Nat) : Fld := ⟨⟨386, h, 0⟩, 8, 0⟩
/-- Rh fillG: offset 0x3c, bits [15:8], RO. -/
abbrev R.rhFillG (h : Nat) : Fld := ⟨⟨387, h, 0⟩, 8, 0⟩
/-- Rh fillB: offset 0x3c, bits [7:0], RO. -/
abbrev R.rhFillB (h : Nat) : Fld := ⟨⟨388, h, 0⟩, 8, 0⟩
/-- Rh wmask: offset 0x40, bits [15:0], RO. -/
abbrev R.rhWmask (h : Nat) : Fld := ⟨⟨389, h, 0⟩, 16, 0⟩
/-- Rh state: offset 0x44, bits [31:29], RO. -/
abbrev R.rhState (h : Nat) : Fld := ⟨⟨390, h, 0⟩, 3, 0⟩
/-- Rh vblank: offset 0x44, bits [28:28], RO. -/
abbrev R.rhVblank (h : Nat) : Fld := ⟨⟨391, h, 0⟩, 1, 0⟩
/-- Rh line: offset 0x44, bits [27:15], RO. -/
abbrev R.rhLine (h : Nat) : Fld := ⟨⟨392, h, 0⟩, 13, 0⟩
/-- Rh ltol: offset 0x48, bits [15:0], RO. -/
abbrev R.rhLtol (h : Nat) : Fld := ⟨⟨393, h, 0⟩, 16, 0xFFFF⟩
/-- Rh ltolMin: offset 0x4c, bits [31:16], RC. -/
abbrev R.rhLtolMin (h : Nat) : Fld := ⟨⟨394, h, 0⟩, 16, 0xFFFF⟩
/-- Rh fetchKib: offset 0x4c, bits [15:0], RO. -/
abbrev R.rhFetchKib (h : Nat) : Fld := ⟨⟨395, h, 0⟩, 16, 0⟩
/-- Rh underrun: offset 0x50, bits [31:16], RC. -/
abbrev R.rhUnderrun (h : Nat) : Fld := ⟨⟨396, h, 0⟩, 16, 0⟩
/-- Rh tunDrop: offset 0x50, bits [15:0], RC. -/
abbrev R.rhTunDrop (h : Nat) : Fld := ⟨⟨397, h, 0⟩, 16, 0⟩

/-! 13_raster.md R429: registers at 0x3110000. -/
/-- Wit bandsOk: offset 0x0, bits [31:16], RC. -/
abbrev R.witBandsOk (h : Nat) : Fld := ⟨⟨398, h, 0⟩, 16, 0⟩
/-- Wit bandsBad: offset 0x0, bits [15:0], RC. -/
abbrev R.witBandsBad (h : Nat) : Fld := ⟨⟨399, h, 0⟩, 16, 0⟩
/-- Wit band: offset 0x4, bits [31:26], RO. -/
abbrev R.witBand (h : Nat) : Fld := ⟨⟨400, h, 0⟩, 6, 0⟩
/-- Wit react: offset 0x4, bits [25:25], RO. -/
abbrev R.witReact (h : Nat) : Fld := ⟨⟨401, h, 0⟩, 1, 0⟩
/-- Wit refCrc: offset 0x8, bits [31:0], RO. -/
abbrev R.witRefCrc (h : Nat) : Fld := ⟨⟨402, h, 0⟩, 32, 0⟩
/-- Wit witCrc: offset 0xc, bits [31:0], RO. -/
abbrev R.witWitCrc (h : Nat) : Fld := ⟨⟨403, h, 0⟩, 32, 0⟩

/-! 13_raster.md R429: registers at 0x3120000. -/
/-- Dp en: offset 0x0, bits [31:31], RO. -/
abbrev R.dpEn (d : Nat) : Fld := ⟨⟨404, d, 0⟩, 1, 0⟩
/-- Dp src: offset 0x0, bits [30:28], RO. -/
abbrev R.dpSrc (d : Nat) : Fld := ⟨⟨405, d, 0⟩, 3, 0⟩
/-- Dp lanes: offset 0x0, bits [27:26], RO. -/
abbrev R.dpLanes (d : Nat) : Fld := ⟨⟨406, d, 0⟩, 2, 0⟩
/-- Dp rate: offset 0x0, bits [25:24], RO. -/
abbrev R.dpRate (d : Nat) : Fld := ⟨⟨407, d, 0⟩, 2, 0⟩
/-- Dp ssc: offset 0x0, bits [23:23], RO. -/
abbrev R.dpSsc (d : Nat) : Fld := ⟨⟨408, d, 0⟩, 1, 0⟩
/-- Dp trimEn: offset 0x0, bits [22:22], RO. -/
abbrev R.dpTrimEn (d : Nat) : Fld := ⟨⟨409, d, 0⟩, 1, 1⟩
/-- Dp trimMax: offset 0x0, bits [21:18], RO. -/
abbrev R.dpTrimMax (d : Nat) : Fld := ⟨⟨410, d, 0⟩, 4, 8⟩
/-- Dp lstate: offset 0x4, bits [31:29], RO. -/
abbrev R.dpLstate (d : Nat) : Fld := ⟨⟨411, d, 0⟩, 3, 0⟩
/-- Dp hpd: offset 0x4, bits [28:28], RO. -/
abbrev R.dpHpd (d : Nat) : Fld := ⟨⟨412, d, 0⟩, 1, 0⟩
/-- Dp trimStop: offset 0x4, bits [27:24], RO. -/
abbrev R.dpTrimStop (d : Nat) : Fld := ⟨⟨413, d, 0⟩, 4, 0⟩
/-- Dp trim3: offset 0x8, bits [19:15], RO. -/
abbrev R.dpTrim3 (d : Nat) : Fld := ⟨⟨414, d, 0⟩, 5, 0⟩
/-- Dp trim2: offset 0x8, bits [14:10], RO. -/
abbrev R.dpTrim2 (d : Nat) : Fld := ⟨⟨415, d, 0⟩, 5, 0⟩
/-- Dp trim1: offset 0x8, bits [9:5], RO. -/
abbrev R.dpTrim1 (d : Nat) : Fld := ⟨⟨416, d, 0⟩, 5, 0⟩
/-- Dp trim0: offset 0x8, bits [4:0], RO. -/
abbrev R.dpTrim0 (d : Nat) : Fld := ⟨⟨417, d, 0⟩, 5, 0⟩
/-- Dp retrain: offset 0xc, bits [31:16], RC. -/
abbrev R.dpRetrain (d : Nat) : Fld := ⟨⟨418, d, 0⟩, 16, 0⟩
/-- Dp irqHpd: offset 0xc, bits [15:0], RC. -/
abbrev R.dpIrqHpd (d : Nat) : Fld := ⟨⟨419, d, 0⟩, 16, 0⟩

/-! 14_memory_dma.md R460: registers at 0x3200000. -/
/-- Lp5 rate: offset 0x0, bits [31:29], RO. -/
abbrev R.lp5Rate : Fld := ⟨⟨420, 0, 0⟩, 3, 0⟩
/-- Lp5 rank2: offset 0x0, bits [28:28], RO. -/
abbrev R.lp5Rank2 : Fld := ⟨⟨421, 0, 0⟩, 1, 0⟩
/-- Lp5 dens: offset 0x0, bits [27:24], RO. -/
abbrev R.lp5Dens : Fld := ⟨⟨422, 0, 0⟩, 4, 0⟩
/-- Lp5 lecc: offset 0x0, bits [23:23], RO. -/
abbrev R.lp5Lecc : Fld := ⟨⟨423, 0, 0⟩, 1, 0⟩
/-- Lp5 capMib: offset 0x0, bits [14:0], RO. -/
abbrev R.lp5CapMib : Fld := ⟨⟨424, 0, 0⟩, 15, 0⟩
/-- Lp5 lpstate: offset 0x4, bits [31:29], RO. -/
abbrev R.lp5Lpstate : Fld := ⟨⟨425, 0, 0⟩, 3, 0⟩
/-- Lp5 exit: offset 0x4, bits [28:16], RO. -/
abbrev R.lp5Exit : Fld := ⟨⟨426, 0, 0⟩, 13, 0x64⟩
/-- Lp5 mintol: offset 0x4, bits [15:0], RO. -/
abbrev R.lp5Mintol : Fld := ⟨⟨427, 0, 0⟩, 16, 0xFFFF⟩
/-- Lp5 srEnt: offset 0x8, bits [31:16], RC. -/
abbrev R.lp5SrEnt : Fld := ⟨⟨428, 0, 0⟩, 16, 0⟩
/-- Lp5 pdEnt: offset 0x8, bits [15:0], RC. -/
abbrev R.lp5PdEnt : Fld := ⟨⟨429, 0, 0⟩, 16, 0⟩
/-- Lp5 refused: offset 0xc, bits [31:16], RC. -/
abbrev R.lp5Refused : Fld := ⟨⟨430, 0, 0⟩, 16, 0⟩
/-- Lp5 urgGrant: offset 0xc, bits [15:0], RC. -/
abbrev R.lp5UrgGrant : Fld := ⟨⟨431, 0, 0⟩, 16, 0⟩
/-- Lp5 eccUe: offset 0x10, bits [31:16], RC. -/
abbrev R.lp5EccUe : Fld := ⟨⟨432, 0, 0⟩, 16, 0⟩
/-- Lp5 eccCe: offset 0x10, bits [15:0], RC. -/
abbrev R.lp5EccCe : Fld := ⟨⟨433, 0, 0⟩, 16, 0⟩

/-! 14_memory_dma.md R460: registers at 0x3200100. -/
/-- Win en: offset 0x0, bits [31:31], RO. -/
abbrev R.winEn (w : Nat) : Fld := ⟨⟨434, w, 0⟩, 1, 0⟩
/-- Win base: offset 0x0, bits [13:0], RO. -/
abbrev R.winBase (w : Nat) : Fld := ⟨⟨435, w, 0⟩, 14, 0⟩
/-- Win size: offset 0x4, bits [14:0], RO. -/
abbrev R.winSize (w : Nat) : Fld := ⟨⟨436, w, 0⟩, 15, 0⟩

/-! 14_memory_dma.md R460: registers at 0x3002000. -/
/-- DmaDb stop: offset 0x0, bits [1:1], WO. -/
abbrev R.dmaDbStop (c : Nat) : Fld := ⟨⟨437, c, 0⟩, 1, 0⟩
/-- DmaDb start: offset 0x0, bits [0:0], WO. -/
abbrev R.dmaDbStart (c : Nat) : Fld := ⟨⟨438, c, 0⟩, 1, 0⟩

/-! 14_memory_dma.md R460: registers at 0x3300000. -/
/-- Dma plen: offset 0x0, bits [31:19], RO. -/
abbrev R.dmaPlen (c : Nat) : Fld := ⟨⟨439, c, 0⟩, 13, 0⟩
/-- Dma pstart: offset 0x0, bits [18:7], RO. -/
abbrev R.dmaPstart (c : Nat) : Fld := ⟨⟨440, c, 0⟩, 12, 0⟩
/-- Dma burst: offset 0x0, bits [6:4], RO. -/
abbrev R.dmaBurst (c : Nat) : Fld := ⟨⟨441, c, 0⟩, 3, 0⟩
/-- Dma prio: offset 0x0, bits [3:3], RO. -/
abbrev R.dmaPrio (c : Nat) : Fld := ⟨⟨442, c, 0⟩, 1, 0⟩
/-- Dma noteEnd: offset 0x0, bits [2:2], RO. -/
abbrev R.dmaNoteEnd (c : Nat) : Fld := ⟨⟨443, c, 0⟩, 1, 0⟩
/-- Dma state: offset 0x4, bits [31:28], RO. -/
abbrev R.dmaState (c : Nat) : Fld := ⟨⟨444, c, 0⟩, 4, 0⟩
/-- Dma loader: offset 0x4, bits [27:24], RO. -/
abbrev R.dmaLoader (c : Nat) : Fld := ⟨⟨445, c, 0⟩, 4, 0⟩
/-- Dma ecode: offset 0x4, bits [23:20], RO. -/
abbrev R.dmaEcode (c : Nat) : Fld := ⟨⟨446, c, 0⟩, 4, 0⟩
/-- Dma pc: offset 0x4, bits [19:8], RO. -/
abbrev R.dmaPc (c : Nat) : Fld := ⟨⟨447, c, 0⟩, 12, 0⟩
/-- Dma depth: offset 0x4, bits [2:0], RO. -/
abbrev R.dmaDepth (c : Nat) : Fld := ⟨⟨448, c, 0⟩, 3, 0⟩
/-- Dma sptrLo: offset 0x8, bits [31:0], RO. -/
abbrev R.dmaSptrLo (c : Nat) : Fld := ⟨⟨449, c, 0⟩, 32, 0⟩
/-- Dma dptrLo: offset 0xc, bits [31:0], RO. -/
abbrev R.dmaDptrLo (c : Nat) : Fld := ⟨⟨450, c, 0⟩, 32, 0⟩
/-- Dma dptrHi: offset 0x10, bits [15:8], RO. -/
abbrev R.dmaDptrHi (c : Nat) : Fld := ⟨⟨451, c, 0⟩, 8, 0⟩
/-- Dma sptrHi: offset 0x10, bits [7:0], RO. -/
abbrev R.dmaSptrHi (c : Nat) : Fld := ⟨⟨452, c, 0⟩, 8, 0⟩
/-- Dma loop0: offset 0x14, bits [23:0], RO. -/
abbrev R.dmaLoop0 (c : Nat) : Fld := ⟨⟨453, c, 0⟩, 24, 0⟩
/-- Dma loop1: offset 0x18, bits [23:0], RO. -/
abbrev R.dmaLoop1 (c : Nat) : Fld := ⟨⟨454, c, 0⟩, 24, 0⟩
/-- Dma loop2: offset 0x1c, bits [23:0], RO. -/
abbrev R.dmaLoop2 (c : Nat) : Fld := ⟨⟨455, c, 0⟩, 24, 0⟩
/-- Dma loop3: offset 0x20, bits [23:0], RO. -/
abbrev R.dmaLoop3 (c : Nat) : Fld := ⟨⟨456, c, 0⟩, 24, 0⟩
/-- Dma xferKib: offset 0x24, bits [31:0], RC. -/
abbrev R.dmaXferKib (c : Nat) : Fld := ⟨⟨457, c, 0⟩, 32, 0⟩

/-! 14_memory_dma.md R460: registers at 0x3301000. -/
/-- DmaReq pend0: offset 0x0, bits [3:0], RO. -/
abbrev R.dmaReqPend0 (k : Nat) : Fld := ⟨⟨458, k, 0⟩, 4, 0⟩
/-- DmaReq pend1: offset 0x0, bits [7:4], RO. -/
abbrev R.dmaReqPend1 (k : Nat) : Fld := ⟨⟨459, k, 0⟩, 4, 0⟩
/-- DmaReq pend2: offset 0x0, bits [11:8], RO. -/
abbrev R.dmaReqPend2 (k : Nat) : Fld := ⟨⟨460, k, 0⟩, 4, 0⟩
/-- DmaReq pend3: offset 0x0, bits [15:12], RO. -/
abbrev R.dmaReqPend3 (k : Nat) : Fld := ⟨⟨461, k, 0⟩, 4, 0⟩
/-- DmaReq pend4: offset 0x0, bits [19:16], RO. -/
abbrev R.dmaReqPend4 (k : Nat) : Fld := ⟨⟨462, k, 0⟩, 4, 0⟩
/-- DmaReq pend5: offset 0x0, bits [23:20], RO. -/
abbrev R.dmaReqPend5 (k : Nat) : Fld := ⟨⟨463, k, 0⟩, 4, 0⟩
/-- DmaReq pend6: offset 0x0, bits [27:24], RO. -/
abbrev R.dmaReqPend6 (k : Nat) : Fld := ⟨⟨464, k, 0⟩, 4, 0⟩
/-- DmaReq pend7: offset 0x0, bits [31:28], RO. -/
abbrev R.dmaReqPend7 (k : Nat) : Fld := ⟨⟨465, k, 0⟩, 4, 0⟩

/-! 14_memory_dma.md R460: registers at 0x3301040. -/
/-- DmaSem sem0: offset 0x0, bits [7:0], RO. -/
abbrev R.dmaSemSem0 (k : Nat) : Fld := ⟨⟨466, k, 0⟩, 8, 0⟩
/-- DmaSem sem1: offset 0x0, bits [15:8], RO. -/
abbrev R.dmaSemSem1 (k : Nat) : Fld := ⟨⟨467, k, 0⟩, 8, 0⟩
/-- DmaSem sem2: offset 0x0, bits [23:16], RO. -/
abbrev R.dmaSemSem2 (k : Nat) : Fld := ⟨⟨468, k, 0⟩, 8, 0⟩
/-- DmaSem sem3: offset 0x0, bits [31:24], RO. -/
abbrev R.dmaSemSem3 (k : Nat) : Fld := ⟨⟨469, k, 0⟩, 8, 0⟩

/-! 14_memory_dma.md R460: registers at 0x3301080. -/
/-- DmaCnt reqOvf: offset 0x0, bits [31:16], RC. -/
abbrev R.dmaCntReqOvf : Fld := ⟨⟨470, 0, 0⟩, 16, 0⟩
/-- DmaCnt noteLost: offset 0x0, bits [15:0], RC. -/
abbrev R.dmaCntNoteLost : Fld := ⟨⟨471, 0, 0⟩, 16, 0⟩
/-- DmaCnt dbRefuse: offset 0x4, bits [31:16], RC. -/
abbrev R.dmaCntDbRefuse : Fld := ⟨⟨472, 0, 0⟩, 16, 0⟩
/-- DmaCnt storeFree: offset 0x4, bits [12:0], RO. -/
abbrev R.dmaCntStoreFree : Fld := ⟨⟨473, 0, 0⟩, 13, 0x1000⟩

/-! 15_usb.md R488: registers at 0x7040000. -/
/-- Usb upConn: offset 0x0, bits [31:31], RO. -/
abbrev R.usbUpConn : Fld := ⟨⟨474, 0, 0⟩, 1, 0⟩
/-- Usb upSpeed: offset 0x0, bits [30:29], RO. -/
abbrev R.usbUpSpeed : Fld := ⟨⟨475, 0, 0⟩, 2, 0⟩
/-- Usb upCfg: offset 0x0, bits [28:28], RO. -/
abbrev R.usbUpCfg : Fld := ⟨⟨476, 0, 0⟩, 1, 0⟩
/-- Usb upSusp: offset 0x0, bits [27:27], RO. -/
abbrev R.usbUpSusp : Fld := ⟨⟨477, 0, 0⟩, 1, 0⟩
/-- Usb upRwe: offset 0x0, bits [26:26], RO. -/
abbrev R.usbUpRwe : Fld := ⟨⟨478, 0, 0⟩, 1, 0⟩
/-- Usb upAddr: offset 0x0, bits [25:19], RO. -/
abbrev R.usbUpAddr : Fld := ⟨⟨479, 0, 0⟩, 7, 0⟩
/-- Usb svcConn: offset 0x4, bits [31:31], RO. -/
abbrev R.usbSvcConn : Fld := ⟨⟨480, 0, 0⟩, 1, 0⟩
/-- Usb svcSpeed: offset 0x4, bits [30:30], RO. -/
abbrev R.usbSvcSpeed : Fld := ⟨⟨481, 0, 0⟩, 1, 0⟩
/-- Usb svcCfg: offset 0x4, bits [29:29], RO. -/
abbrev R.usbSvcCfg : Fld := ⟨⟨482, 0, 0⟩, 1, 0⟩
/-- Usb svcSusp: offset 0x4, bits [28:28], RO. -/
abbrev R.usbSvcSusp : Fld := ⟨⟨483, 0, 0⟩, 1, 0⟩
/-- Usb svcAddr: offset 0x4, bits [27:21], RO. -/
abbrev R.usbSvcAddr : Fld := ⟨⟨484, 0, 0⟩, 7, 0⟩
/-- Usb svcHoldn: offset 0x4, bits [20:14], RO. -/
abbrev R.usbSvcHoldn : Fld := ⟨⟨485, 0, 0⟩, 7, 0⟩
/-- Usb minLeft: offset 0x8, bits [15:0], RO. -/
abbrev R.usbMinLeft : Fld := ⟨⟨486, 0, 0⟩, 16, 0⟩
/-- Usb isoRepeat: offset 0x100, bits [31:16], RC. -/
abbrev R.usbIsoRepeat : Fld := ⟨⟨487, 0, 0⟩, 16, 0⟩
/-- Usb ctlAbandon: offset 0x100, bits [15:0], RC. -/
abbrev R.usbCtlAbandon : Fld := ⟨⟨488, 0, 0⟩, 16, 0⟩
/-- Usb badProof: offset 0x104, bits [31:16], RC. -/
abbrev R.usbBadProof : Fld := ⟨⟨489, 0, 0⟩, 16, 0⟩
/-- Usb frmDrop: offset 0x104, bits [15:0], RC. -/
abbrev R.usbFrmDrop : Fld := ⟨⟨490, 0, 0⟩, 16, 0⟩

/-! 15_usb.md R488: registers at 0x7040010. -/
/-- UsbPort conn: offset 0x0, bits [31:31], RO. -/
abbrev R.usbPortConn (p : Nat) : Fld := ⟨⟨491, p, 0⟩, 1, 0⟩
/-- UsbPort en: offset 0x0, bits [30:30], RO. -/
abbrev R.usbPortEn (p : Nat) : Fld := ⟨⟨492, p, 0⟩, 1, 0⟩
/-- UsbPort susp: offset 0x0, bits [29:29], RO. -/
abbrev R.usbPortSusp (p : Nat) : Fld := ⟨⟨493, p, 0⟩, 1, 0⟩
/-- UsbPort oc: offset 0x0, bits [28:28], RO. -/
abbrev R.usbPortOc (p : Nat) : Fld := ⟨⟨494, p, 0⟩, 1, 0⟩
/-- UsbPort pwr: offset 0x0, bits [27:27], RO. -/
abbrev R.usbPortPwr (p : Nat) : Fld := ⟨⟨495, p, 0⟩, 1, 0⟩
/-- UsbPort vbusok: offset 0x0, bits [26:26], RO. -/
abbrev R.usbPortVbusok (p : Nat) : Fld := ⟨⟨496, p, 0⟩, 1, 0⟩
/-- UsbPort speed: offset 0x0, bits [25:24], RO. -/
abbrev R.usbPortSpeed (p : Nat) : Fld := ⟨⟨497, p, 0⟩, 2, 0⟩
/-- UsbPort wakePend: offset 0x0, bits [23:23], W1C. -/
abbrev R.usbPortWakePend (p : Nat) : Fld := ⟨⟨498, p, 0⟩, 1, 0⟩
/-- UsbPort ocCnt: offset 0x0, bits [7:0], RC. -/
abbrev R.usbPortOcCnt (p : Nat) : Fld := ⟨⟨499, p, 0⟩, 8, 0⟩

/-! 15_usb.md R488: registers at 0x7040080. -/
/-- UsbBuf en: offset 0x0, bits [31:31], RO. -/
abbrev R.usbBufEn (b : Nat) : Fld := ⟨⟨500, b, 0⟩, 1, (Config.usbBufReset b).en⟩
/-- UsbBuf dev: offset 0x0, bits [30:30], RO. -/
abbrev R.usbBufDev (b : Nat) : Fld := ⟨⟨501, b, 0⟩, 1, (Config.usbBufReset b).dev⟩
/-- UsbBuf epnum: offset 0x0, bits [29:27], RO. -/
abbrev R.usbBufEpnum (b : Nat) : Fld := ⟨⟨502, b, 0⟩, 3, (Config.usbBufReset b).epnum⟩
/-- UsbBuf dir: offset 0x0, bits [26:26], RO. -/
abbrev R.usbBufDir (b : Nat) : Fld := ⟨⟨503, b, 0⟩, 1, (Config.usbBufReset b).dir⟩
/-- UsbBuf feed: offset 0x0, bits [25:25], RO. -/
abbrev R.usbBufFeed (b : Nat) : Fld := ⟨⟨504, b, 0⟩, 1, 0⟩
/-- UsbBuf offset: offset 0x0, bits [20:11], RO. -/
abbrev R.usbBufOffset (b : Nat) : Fld := ⟨⟨505, b, 0⟩, 10, (Config.usbBufReset b).offset⟩
/-- UsbBuf size: offset 0x0, bits [10:0], RO. -/
abbrev R.usbBufSize (b : Nat) : Fld := ⟨⟨506, b, 0⟩, 11, (Config.usbBufReset b).size⟩

/-! 16_cable_negotiation.md R514: registers at 0x4030000. -/
/-- Cc rplvlSet: offset 0x0, bits [31:30], RO. -/
abbrev R.ccRplvlSet (n : Nat) : Fld := ⟨⟨507, n, 0⟩, 2, 0⟩
/-- Cc frsArm: offset 0x0, bits [29:29], RO. -/
abbrev R.ccFrsArm (n : Nat) : Fld := ⟨⟨508, n, 0⟩, 1, 0⟩
/-- Cc epr: offset 0x0, bits [28:28], RO. -/
abbrev R.ccEpr (n : Nat) : Fld := ⟨⟨509, n, 0⟩, 1, 0⟩
/-- Cc drole: offset 0x0, bits [27:27], RO. -/
abbrev R.ccDrole (n : Nat) : Fld := ⟨⟨510, n, 0⟩, 1, 0⟩
/-- Cc vconnIlim: offset 0x0, bits [26:22], RO. -/
abbrev R.ccVconnIlim (n : Nat) : Fld := ⟨⟨511, n, 0⟩, 5, 0x18⟩
/-- Cc policy: offset 0x0, bits [21:18], RO. -/
abbrev R.ccPolicy (n : Nat) : Fld := ⟨⟨512, n, 0⟩, 4, 0xF⟩
/-- Cc astate: offset 0x4, bits [31:28], RO. -/
abbrev R.ccAstate (n : Nat) : Fld := ⟨⟨513, n, 0⟩, 4, 0⟩
/-- Cc prole: offset 0x4, bits [27:27], RO. -/
abbrev R.ccProle (n : Nat) : Fld := ⟨⟨514, n, 0⟩, 1, 0⟩
/-- Cc vconnOn: offset 0x4, bits [26:26], RO. -/
abbrev R.ccVconnOn (n : Nat) : Fld := ⟨⟨515, n, 0⟩, 1, 0⟩
/-- Cc orient: offset 0x4, bits [25:25], RO. -/
abbrev R.ccOrient (n : Nat) : Fld := ⟨⟨516, n, 0⟩, 1, 0⟩
/-- Cc ra: offset 0x4, bits [24:24], RO. -/
abbrev R.ccRa (n : Nat) : Fld := ⟨⟨517, n, 0⟩, 1, 0⟩
/-- Cc acc: offset 0x4, bits [23:22], RO. -/
abbrev R.ccAcc (n : Nat) : Fld := ⟨⟨518, n, 0⟩, 2, 0⟩
/-- Cc rplvl: offset 0x4, bits [21:20], RO. -/
abbrev R.ccRplvl (n : Nat) : Fld := ⟨⟨519, n, 0⟩, 2, 0⟩
/-- Cc trans: offset 0x4, bits [19:19], RO. -/
abbrev R.ccTrans (n : Nat) : Fld := ⟨⟨520, n, 0⟩, 1, 0⟩
/-- Cc swap: offset 0x4, bits [18:18], RO. -/
abbrev R.ccSwap (n : Nat) : Fld := ⟨⟨521, n, 0⟩, 1, 0⟩
/-- Cc hrst: offset 0x4, bits [17:17], RO. -/
abbrev R.ccHrst (n : Nat) : Fld := ⟨⟨522, n, 0⟩, 1, 0⟩
/-- Cc rxn: offset 0x4, bits [16:13], RO. -/
abbrev R.ccRxn (n : Nat) : Fld := ⟨⟨523, n, 0⟩, 4, 0⟩
/-- Cc ccdb: offset 0x8, bits [31:24], RO. -/
abbrev R.ccCcdb (n : Nat) : Fld := ⟨⟨524, n, 0⟩, 8, 0x96⟩
/-- Cc pddb: offset 0x8, bits [23:19], RO. -/
abbrev R.ccPddb (n : Nat) : Fld := ⟨⟨525, n, 0⟩, 5, 0x0F⟩
/-- Cc pshr: offset 0x8, bits [18:13], RO. -/
abbrev R.ccPshr (n : Nat) : Fld := ⟨⟨526, n, 0⟩, 6, 0x1E⟩
/-- Cc srcrec: offset 0x8, bits [12:3], RO. -/
abbrev R.ccSrcrec (n : Nat) : Fld := ⟨⟨527, n, 0⟩, 10, 0x320⟩
/-- Cc cause: offset 0x10, bits [5:0], W1C. -/
abbrev R.ccCause (n : Nat) : Fld := ⟨⟨528, n, 0⟩, 6, 0⟩
/-- Cc rxMsg: offset 0x14, bits [31:16], RC. -/
abbrev R.ccRxMsg (n : Nat) : Fld := ⟨⟨529, n, 0⟩, 16, 0⟩
/-- Cc txMsg: offset 0x14, bits [15:0], RC. -/
abbrev R.ccTxMsg (n : Nat) : Fld := ⟨⟨530, n, 0⟩, 16, 0⟩
/-- Cc txFail: offset 0x18, bits [31:16], RC. -/
abbrev R.ccTxFail (n : Nat) : Fld := ⟨⟨531, n, 0⟩, 16, 0⟩
/-- Cc retry: offset 0x18, bits [15:0], RC. -/
abbrev R.ccRetry (n : Nat) : Fld := ⟨⟨532, n, 0⟩, 16, 0⟩
/-- Cc dup: offset 0x1c, bits [31:16], RC. -/
abbrev R.ccDup (n : Nat) : Fld := ⟨⟨533, n, 0⟩, 16, 0⟩
/-- Cc rxDrop: offset 0x1c, bits [15:0], RC. -/
abbrev R.ccRxDrop (n : Nat) : Fld := ⟨⟨534, n, 0⟩, 16, 0⟩
/-- Cc recLost: offset 0x20, bits [31:16], RC. -/
abbrev R.ccRecLost (n : Nat) : Fld := ⟨⟨535, n, 0⟩, 16, 0⟩
/-- Cc badCrc: offset 0x20, bits [15:0], RC. -/
abbrev R.ccBadCrc (n : Nat) : Fld := ⟨⟨536, n, 0⟩, 16, 0⟩

/-! 17_hot_swap.md R540: registers at 0x4020000. -/
/-- Stg en: offset 0x0, bits [31:31], RO. -/
abbrev R.stgEn (n : Nat) : Fld := ⟨⟨537, n, 0⟩, 1, 0⟩
/-- Stg startm: offset 0x0, bits [30:29], RO. -/
abbrev R.stgStartm (n : Nat) : Fld := ⟨⟨538, n, 0⟩, 2, 0⟩
/-- Stg prio: offset 0x0, bits [28:26], RO. -/
abbrev R.stgPrio (n : Nat) : Fld := ⟨⟨539, n, 0⟩, 3, 4⟩
/-- Stg safeOff: offset 0x0, bits [25:25], RO. -/
abbrev R.stgSafeOff (n : Nat) : Fld := ⟨⟨540, n, 0⟩, 1, 0⟩
/-- Stg keepBanked: offset 0x0, bits [24:24], RO. -/
abbrev R.stgKeepBanked (n : Nat) : Fld := ⟨⟨541, n, 0⟩, 1, 0⟩
/-- Stg ocEn: offset 0x0, bits [23:23], RO. -/
abbrev R.stgOcEn (n : Nat) : Fld := ⟨⟨542, n, 0⟩, 1, 1⟩
/-- Stg pgDg: offset 0x0, bits [22:15], RO. -/
abbrev R.stgPgDg (n : Nat) : Fld := ⟨⟨543, n, 0⟩, 8, 0x64⟩
/-- Stg retryMax: offset 0x0, bits [14:11], RO. -/
abbrev R.stgRetryMax (n : Nat) : Fld := ⟨⟨544, n, 0⟩, 4, 3⟩
/-- Stg retryT: offset 0x0, bits [10:3], RO. -/
abbrev R.stgRetryT (n : Nat) : Fld := ⟨⟨545, n, 0⟩, 8, 0x0A⟩
/-- Stg forget: offset 0x4, bits [31:24], RO. -/
abbrev R.stgForget (n : Nat) : Fld := ⟨⟨546, n, 0⟩, 8, 0x32⟩
/-- Stg seatDb: offset 0x4, bits [23:16], RO. -/
abbrev R.stgSeatDb (n : Nat) : Fld := ⟨⟨547, n, 0⟩, 8, 0x14⟩
/-- Stg insDly: offset 0x4, bits [15:8], RO. -/
abbrev R.stgInsDly (n : Nat) : Fld := ⟨⟨548, n, 0⟩, 8, 0x0A⟩
/-- Stg iInr: offset 0x8, bits [31:20], RO. -/
abbrev R.stgIInr (n : Nat) : Fld := ⟨⟨549, n, 0⟩, 12, 0⟩
/-- Stg pInr: offset 0x8, bits [19:8], RO. -/
abbrev R.stgPInr (n : Nat) : Fld := ⟨⟨550, n, 0⟩, 12, 0⟩
/-- Stg tInr: offset 0x8, bits [7:0], RO. -/
abbrev R.stgTInr (n : Nat) : Fld := ⟨⟨551, n, 0⟩, 8, 0x64⟩
/-- Stg kv: offset 0xc, bits [31:16], RO. -/
abbrev R.stgKv (n : Nat) : Fld := ⟨⟨552, n, 0⟩, 16, 0⟩
/-- Stg ki: offset 0xc, bits [15:0], RO. -/
abbrev R.stgKi (n : Nat) : Fld := ⟨⟨553, n, 0⟩, 16, 0⟩
/-- Stg uvw: offset 0x10, bits [31:22], RO. -/
abbrev R.stgUvw (n : Nat) : Fld := ⟨⟨554, n, 0⟩, 10, 0⟩
/-- Stg ovw: offset 0x10, bits [21:12], RO. -/
abbrev R.stgOvw (n : Nat) : Fld := ⟨⟨555, n, 0⟩, 10, 0⟩
/-- Stg vset: offset 0x14, bits [11:0], RO. -/
abbrev R.stgVset (n : Nat) : Fld := ⟨⟨556, n, 0⟩, 12, 0x0FA⟩
/-- Stg sstate: offset 0x18, bits [31:29], RO. -/
abbrev R.stgSstate (n : Nat) : Fld := ⟨⟨557, n, 0⟩, 3, 0⟩
/-- Stg pg: offset 0x18, bits [28:28], RO. -/
abbrev R.stgPg (n : Nat) : Fld := ⟨⟨558, n, 0⟩, 1, 0⟩
/-- Stg gateEn: offset 0x18, bits [27:27], RO. -/
abbrev R.stgGateEn (n : Nat) : Fld := ⟨⟨559, n, 0⟩, 1, 0⟩
/-- Stg gateOk: offset 0x18, bits [26:26], RO. -/
abbrev R.stgGateOk (n : Nat) : Fld := ⟨⟨560, n, 0⟩, 1, 0⟩
/-- Stg seated: offset 0x18, bits [25:25], RO. -/
abbrev R.stgSeated (n : Nat) : Fld := ⟨⟨561, n, 0⟩, 1, 0⟩
/-- Stg pres: offset 0x18, bits [24:24], RO. -/
abbrev R.stgPres (n : Nat) : Fld := ⟨⟨562, n, 0⟩, 1, 0⟩
/-- Stg tries: offset 0x18, bits [23:20], RO. -/
abbrev R.stgTries (n : Nat) : Fld := ⟨⟨563, n, 0⟩, 4, 0⟩
/-- Stg cause: offset 0x1c, bits [7:0], W1C. -/
abbrev R.stgCause (n : Nat) : Fld := ⟨⟨564, n, 0⟩, 8, 0⟩
/-- Stg starts: offset 0x20, bits [31:16], RC. -/
abbrev R.stgStarts (n : Nat) : Fld := ⟨⟨565, n, 0⟩, 16, 0⟩
/-- Stg trips: offset 0x20, bits [15:0], RC. -/
abbrev R.stgTrips (n : Nat) : Fld := ⟨⟨566, n, 0⟩, 16, 0⟩
/-- Stg itrip: offset 0x60, bits [31:20], RO. -/
abbrev R.stgItrip (n : Nat) : Fld := ⟨⟨567, n, 0⟩, 12, 0xFFF⟩

/-! 17_hot_swap.md R540: registers at 0x4020040. -/
/-- StgCurve ilvl: offset 0x0, bits [31:20], RO. -/
abbrev R.stgCurveIlvl (n : Nat) (k : Nat) : Fld := ⟨⟨568, n, k⟩, 12, 0⟩
/-- StgCurve tlim: offset 0x0, bits [19:0], RO. -/
abbrev R.stgCurveTlim (n : Nat) (k : Nat) : Fld := ⟨⟨569, n, k⟩, 20, 0⟩

/-! 17_hot_swap.md R540: registers at 0x4010000. -/
/-- Feed uv: offset 0x0, bits [31:22], RO. -/
abbrev R.feedUv (f : Nat) : Fld := ⟨⟨570, f, 0⟩, 10, 0⟩
/-- Feed ov: offset 0x0, bits [21:12], RO. -/
abbrev R.feedOv (f : Nat) : Fld := ⟨⟨571, f, 0⟩, 10, 0⟩
/-- Feed qual: offset 0x0, bits [11:4], RO. -/
abbrev R.feedQual (f : Nat) : Fld := ⟨⟨572, f, 0⟩, 8, 0x0A⟩
/-- Feed en: offset 0x0, bits [3:3], RO. -/
abbrev R.feedEn (f : Nat) : Fld := ⟨⟨573, f, 0⟩, 1, 0⟩
/-- Feed ocEn: offset 0x0, bits [2:2], RO. -/
abbrev R.feedOcEn (f : Nat) : Fld := ⟨⟨574, f, 0⟩, 1, 1⟩
/-- Feed warn: offset 0x4, bits [31:22], RO. -/
abbrev R.feedWarn (f : Nat) : Fld := ⟨⟨575, f, 0⟩, 10, 0⟩
/-- Feed whys: offset 0x4, bits [21:16], RO. -/
abbrev R.feedWhys (f : Nat) : Fld := ⟨⟨576, f, 0⟩, 6, 5⟩
/-- Feed horizon: offset 0x4, bits [15:8], RO. -/
abbrev R.feedHorizon (f : Nat) : Fld := ⟨⟨577, f, 0⟩, 8, 0⟩
/-- Feed iInr: offset 0x8, bits [31:20], RO. -/
abbrev R.feedIInr (f : Nat) : Fld := ⟨⟨578, f, 0⟩, 12, 0⟩
/-- Feed pInr: offset 0x8, bits [19:8], RO. -/
abbrev R.feedPInr (f : Nat) : Fld := ⟨⟨579, f, 0⟩, 12, 0⟩
/-- Feed tInr: offset 0x8, bits [7:0], RO. -/
abbrev R.feedTInr (f : Nat) : Fld := ⟨⟨580, f, 0⟩, 8, 0x64⟩
/-- Feed kv: offset 0xc, bits [31:16], RO. -/
abbrev R.feedKv (f : Nat) : Fld := ⟨⟨581, f, 0⟩, 16, 0⟩
/-- Feed ki: offset 0xc, bits [15:0], RO. -/
abbrev R.feedKi (f : Nat) : Fld := ⟨⟨582, f, 0⟩, 16, 0⟩
/-- Feed itrip: offset 0x10, bits [31:20], RO. -/
abbrev R.feedItrip (f : Nat) : Fld := ⟨⟨583, f, 0⟩, 12, 0xFFF⟩
/-- Feed healthy: offset 0x18, bits [31:31], RO. -/
abbrev R.feedHealthy (f : Nat) : Fld := ⟨⟨584, f, 0⟩, 1, 0⟩
/-- Feed barred: offset 0x18, bits [30:30], RO. -/
abbrev R.feedBarred (f : Nat) : Fld := ⟨⟨585, f, 0⟩, 1, 0⟩
/-- Feed gateEn: offset 0x18, bits [29:29], RO. -/
abbrev R.feedGateEn (f : Nat) : Fld := ⟨⟨586, f, 0⟩, 1, 0⟩
/-- Feed gateOk: offset 0x18, bits [28:28], RO. -/
abbrev R.feedGateOk (f : Nat) : Fld := ⟨⟨587, f, 0⟩, 1, 0⟩
/-- Feed cause: offset 0x18, bits [7:0], W1C. -/
abbrev R.feedCause (f : Nat) : Fld := ⟨⟨588, f, 0⟩, 8, 0⟩

/-! 17_hot_swap.md R540: registers at 0x4010040. -/
/-- FeedCurve ilvl: offset 0x0, bits [31:20], RO. -/
abbrev R.feedCurveIlvl (f : Nat) (k : Nat) : Fld := ⟨⟨589, f, k⟩, 12, 0⟩
/-- FeedCurve tlim: offset 0x0, bits [19:0], RO. -/
abbrev R.feedCurveTlim (f : Nat) (k : Nat) : Fld := ⟨⟨590, f, k⟩, 20, 0⟩

/-! 17_hot_swap.md R540: registers at 0x4000000. -/
/-- Pwr primary: offset 0x10100, bits [31:31], RO. -/
abbrev R.pwrPrimary : Fld := ⟨⟨591, 0, 0⟩, 1, 0⟩
/-- Pwr dead: offset 0x10100, bits [30:24], RO. -/
abbrev R.pwrDead : Fld := ⟨⟨592, 0, 0⟩, 7, 0x0A⟩
/-- Pwr revert: offset 0x10100, bits [23:8], RO. -/
abbrev R.pwrRevert : Fld := ⟨⟨593, 0, 0⟩, 16, 0x3E8⟩
/-- Pwr fwAlt: offset 0x10100, bits [7:7], RO. -/
abbrev R.pwrFwAlt : Fld := ⟨⟨594, 0, 0⟩, 1, 1⟩
/-- Pwr sel: offset 0x10100, bits [6:4], RO. -/
abbrev R.pwrSel : Fld := ⟨⟨595, 0, 0⟩, 3, 0⟩
/-- Pwr busKv: offset 0x10104, bits [31:16], RO. -/
abbrev R.pwrBusKv : Fld := ⟨⟨596, 0, 0⟩, 16, 0⟩
/-- Pwr nmax: offset 0x100, bits [31:27], RO. -/
abbrev R.pwrNmax : Fld := ⟨⟨597, 0, 0⟩, 5, 2⟩
/-- Pwr pmax: offset 0x100, bits [26:12], RO. -/
abbrev R.pwrPmax : Fld := ⟨⟨598, 0, 0⟩, 15, 0x3E8⟩
/-- Pwr ninr: offset 0x104, bits [31:27], RO. -/
abbrev R.pwrNinr : Fld := ⟨⟨599, 0, 0⟩, 5, 0⟩
/-- Pwr pinr: offset 0x104, bits [26:12], RO. -/
abbrev R.pwrPinr : Fld := ⟨⟨600, 0, 0⟩, 15, 0⟩
/-- Pwr nwait: offset 0x104, bits [11:7], RO. -/
abbrev R.pwrNwait : Fld := ⟨⟨601, 0, 0⟩, 5, 0⟩

/-! 18_faults.md R559: registers at 0x7001000. -/
/-- Src sev: offset 0x0, bits [31:30], RO. -/
abbrev R.srcSev (i : Nat) : Fld := ⟨⟨602, i, 0⟩, 2, (Config.srcSeverity i)⟩
/-- Src fnEn: offset 0x0, bits [29:29], RO. -/
abbrev R.srcFnEn (i : Nat) : Fld := ⟨⟨603, i, 0⟩, 1, (if 2 ≤ Config.srcSeverity i then 1 else 0)⟩
/-- Src force: offset 0x0, bits [28:28], RO. -/
abbrev R.srcForce (i : Nat) : Fld := ⟨⟨604, i, 0⟩, 1, 0⟩
/-- Src limit: offset 0x0, bits [27:24], RO. -/
abbrev R.srcLimit (i : Nat) : Fld := ⟨⟨605, i, 0⟩, 4, 8⟩
/-- Src qper: offset 0x0, bits [13:0], RO. -/
abbrev R.srcQper (i : Nat) : Fld := ⟨⟨606, i, 0⟩, 14, 0x3E8⟩
/-- Src active: offset 0x4, bits [31:31], RO. -/
abbrev R.srcActive (i : Nat) : Fld := ⟨⟨607, i, 0⟩, 1, 0⟩
/-- Src sticky: offset 0x4, bits [30:30], RO. -/
abbrev R.srcSticky (i : Nat) : Fld := ⟨⟨608, i, 0⟩, 1, 0⟩
/-- Src rsev: offset 0x4, bits [29:28], RO. -/
abbrev R.srcRsev (i : Nat) : Fld := ⟨⟨609, i, 0⟩, 2, 0⟩
/-- Src rcnt: offset 0x4, bits [27:24], RO. -/
abbrev R.srcRcnt (i : Nat) : Fld := ⟨⟨610, i, 0⟩, 4, 0⟩
/-- Src occ: offset 0x4, bits [23:16], RO. -/
abbrev R.srcOcc (i : Nat) : Fld := ⟨⟨611, i, 0⟩, 8, 0⟩
/-- Src detail: offset 0x4, bits [15:0], RO. -/
abbrev R.srcDetail (i : Nat) : Fld := ⟨⟨612, i, 0⟩, 16, 0⟩

/-! 18_faults.md R559: registers at 0x7000048. -/
/-- Fcol mode: offset 0x0, bits [31:30], RO. -/
abbrev R.fcolMode : Fld := ⟨⟨613, 0, 0⟩, 2, 0⟩
/-- Fcol low: offset 0x0, bits [29:29], RO. -/
abbrev R.fcolLow : Fld := ⟨⟨614, 0, 0⟩, 1, 0⟩
/-- Fcol pw: offset 0x0, bits [9:0], RO. -/
abbrev R.fcolPw : Fld := ⟨⟨615, 0, 0⟩, 10, 0x64⟩
/-- Fcol ovfCnt: offset 0x4, bits [31:20], RC. -/
abbrev R.fcolOvfCnt : Fld := ⟨⟨616, 0, 0⟩, 12, 0⟩
/-- Fcol count: offset 0x4, bits [16:8], RO. -/
abbrev R.fcolCount : Fld := ⟨⟨617, 0, 0⟩, 9, 0⟩
/-- Fcol next: offset 0x4, bits [7:0], RO. -/
abbrev R.fcolNext : Fld := ⟨⟨618, 0, 0⟩, 8, 0⟩

/-! 18_faults.md R559: registers at 0x7000060. -/
/-- Refuse odd: offset 0x0, bits [31:16], RC. -/
abbrev R.refuseOdd (k : Nat) : Fld := ⟨⟨619, k, 0⟩, 16, 0⟩
/-- Refuse even: offset 0x0, bits [15:0], RC. -/
abbrev R.refuseEven (k : Nat) : Fld := ⟨⟨620, k, 0⟩, 16, 0⟩

/-! 19_keys_gates.md R580: registers at 0x6000100. -/
/-- Sec owned: offset 0x0, bits [31:31], RO. -/
abbrev R.secOwned : Fld := ⟨⟨621, 0, 0⟩, 1, 0⟩
/-- Sec owner: offset 0x0, bits [30:27], RO. -/
abbrev R.secOwner : Fld := ⟨⟨622, 0, 0⟩, 4, 0xF⟩
/-- Sec deputy: offset 0x0, bits [26:23], RO. -/
abbrev R.secDeputy : Fld := ⟨⟨623, 0, 0⟩, 4, 0xF⟩
/-- Sec testroot: offset 0x0, bits [22:22], RO. -/
abbrev R.secTestroot : Fld := ⟨⟨624, 0, 0⟩, 1, 0⟩
/-- Sec debug: offset 0x0, bits [21:21], RO. -/
abbrev R.secDebug : Fld := ⟨⟨625, 0, 0⟩, 1, 0⟩
/-- Sec depHold: offset 0x0, bits [20:5], RO. -/
abbrev R.secDepHold : Fld := ⟨⟨626, 0, 0⟩, 16, 0x28⟩
/-- Sec badClaim: offset 0x4, bits [31:16], RC. -/
abbrev R.secBadClaim : Fld := ⟨⟨627, 0, 0⟩, 16, 0⟩
/-- Sec claims: offset 0x4, bits [15:0], RC. -/
abbrev R.secClaims : Fld := ⟨⟨628, 0, 0⟩, 16, 0⟩

/-! 19_keys_gates.md R580: registers at 0x6001000. -/
/-- Key state: offset 0x0, bits [31:30], RO. -/
abbrev R.keyState (s : Nat) : Fld := ⟨⟨629, s, 0⟩, 2, 0⟩
/-- Key level: offset 0x0, bits [29:28], RO. -/
abbrev R.keyLevel (s : Nat) : Fld := ⟨⟨630, s, 0⟩, 2, 0⟩
/-- Key domain: offset 0x0, bits [27:25], RO. -/
abbrev R.keyDomain (s : Nat) : Fld := ⟨⟨631, s, 0⟩, 3, 0⟩
/-- Key parent: offset 0x0, bits [24:18], RO. -/
abbrev R.keyParent (s : Nat) : Fld := ⟨⟨632, s, 0⟩, 7, 0⟩
/-- Key purpose: offset 0x0, bits [17:14], RO. -/
abbrev R.keyPurpose (s : Nat) : Fld := ⟨⟨633, s, 0⟩, 4, 0⟩
/-- Key inst: offset 0x0, bits [13:9], RO. -/
abbrev R.keyInst (s : Nat) : Fld := ⟨⟨634, s, 0⟩, 5, 0⟩
/-- Key kint: offset 0x0, bits [8:4], RO. -/
abbrev R.keyKint (s : Nat) : Fld := ⟨⟨635, s, 0⟩, 5, 0xC⟩
/-- Key default: offset 0x0, bits [3:3], RO. -/
abbrev R.keyDefault (s : Nat) : Fld := ⟨⟨636, s, 0⟩, 1, 0⟩
/-- Key ver: offset 0x4, bits [31:0], RO. -/
abbrev R.keyVer (s : Nat) : Fld := ⟨⟨637, s, 0⟩, 32, 0⟩

/-! 19_keys_gates.md R580: registers at 0x6002000. -/
/-- Gate word: offset 0x0, bits [31:0], RO. -/
abbrev R.gateWord (t : Nat) : Fld := ⟨⟨638, t, 0⟩, 32, (Config.gateReset t)⟩

/-! 20_power_reset.md R602: registers at 0x7030000. -/
/-- Ps entryMax: offset 0x0, bits [31:24], RO. -/
abbrev R.psEntryMax : Fld := ⟨⟨639, 0, 0⟩, 8, 0x0A⟩
/-- Ps wakenEn: offset 0x4, bits [31:31], RO. -/
abbrev R.psWakenEn : Fld := ⟨⟨640, 0, 0⟩, 1, 1⟩
/-- Ps smbEn: offset 0x4, bits [30:30], RO. -/
abbrev R.psSmbEn : Fld := ⟨⟨641, 0, 0⟩, 1, 1⟩
/-- Ps faultEn: offset 0x4, bits [29:29], RO. -/
abbrev R.psFaultEn : Fld := ⟨⟨642, 0, 0⟩, 1, 1⟩
/-- Ps lsdEn: offset 0x4, bits [28:28], RO. -/
abbrev R.psLsdEn : Fld := ⟨⟨643, 0, 0⟩, 1, 0⟩
/-- Ps tsdEn: offset 0x4, bits [23:20], RO. -/
abbrev R.psTsdEn : Fld := ⟨⟨644, 0, 0⟩, 4, 0xF⟩
/-- Ps attEn: offset 0x4, bits [19:4], RO. -/
abbrev R.psAttEn : Fld := ⟨⟨645, 0, 0⟩, 16, 0xFFFF⟩
/-- Ps state: offset 0x8, bits [31:29], RO. -/
abbrev R.psState : Fld := ⟨⟨646, 0, 0⟩, 3, 0⟩
/-- Ps stage: offset 0x8, bits [28:26], RO. -/
abbrev R.psStage : Fld := ⟨⟨647, 0, 0⟩, 3, 0⟩
/-- Ps rstcause: offset 0x8, bits [25:23], RO. -/
abbrev R.psRstcause : Fld := ⟨⟨648, 0, 0⟩, 3, 0⟩
/-- Ps fwrdy: offset 0x8, bits [22:22], RO. -/
abbrev R.psFwrdy : Fld := ⟨⟨649, 0, 0⟩, 1, 0⟩
/-- Ps stfail: offset 0x8, bits [21:21], RO. -/
abbrev R.psStfail : Fld := ⟨⟨650, 0, 0⟩, 1, 0⟩
/-- Ps wakeFail: offset 0x8, bits [20:20], W1C. -/
abbrev R.psWakeFail : Fld := ⟨⟨651, 0, 0⟩, 1, 0⟩
/-- Ps stfReg: offset 0x8, bits [7:0], RO. -/
abbrev R.psStfReg : Fld := ⟨⟨652, 0, 0⟩, 8, 0⟩
/-- Ps wsHi: offset 0xc, bits [31:28], RC. -/
abbrev R.psWsHi : Fld := ⟨⟨653, 0, 0⟩, 4, 0⟩
/-- Ps wsRstn: offset 0xc, bits [27:27], RC. -/
abbrev R.psWsRstn : Fld := ⟨⟨654, 0, 0⟩, 1, 0⟩
/-- Ps wsLo: offset 0xc, bits [23:4], RC. -/
abbrev R.psWsLo : Fld := ⟨⟨655, 0, 0⟩, 20, 0⟩
/-- Ps refRegion: offset 0x10, bits [31:29], RO. -/
abbrev R.psRefRegion : Fld := ⟨⟨656, 0, 0⟩, 3, 0⟩
/-- Ps refCode: offset 0x10, bits [28:24], RO. -/
abbrev R.psRefCode : Fld := ⟨⟨657, 0, 0⟩, 5, 0⟩
/-- Ps refInst: offset 0x10, bits [23:16], RO. -/
abbrev R.psRefInst : Fld := ⟨⟨658, 0, 0⟩, 8, 0⟩
/-- Ps refAnswer: offset 0x10, bits [15:12], RO. -/
abbrev R.psRefAnswer : Fld := ⟨⟨659, 0, 0⟩, 4, 0⟩
/-- Ps bankedCnt: offset 0x14, bits [31:24], RC. -/
abbrev R.psBankedCnt : Fld := ⟨⟨660, 0, 0⟩, 8, 0⟩
/-- Ps emberCnt: offset 0x14, bits [23:16], RC. -/
abbrev R.psEmberCnt : Fld := ⟨⟨661, 0, 0⟩, 8, 0⟩
/-- Ps refusedCnt: offset 0x14, bits [15:8], RC. -/
abbrev R.psRefusedCnt : Fld := ⟨⟨662, 0, 0⟩, 8, 0⟩
/-- Ps wakefailCnt: offset 0x14, bits [7:0], RC. -/
abbrev R.psWakefailCnt : Fld := ⟨⟨663, 0, 0⟩, 8, 0⟩

/-! 21_control_firmware.md R604: registers at 0x7010000. -/
/-- Mbx dbSeq: offset 0x800, bits [15:0], WO. -/
abbrev R.mbxDbSeq (m : Nat) : Fld := ⟨⟨664, m, 0⟩, 16, 0⟩
/-- Mbx seq: offset 0x804, bits [15:0], RO. -/
abbrev R.mbxSeq (m : Nat) : Fld := ⟨⟨665, m, 0⟩, 16, 0⟩
/-- Mbx state: offset 0x808, bits [31:29], RO. -/
abbrev R.mbxState (m : Nat) : Fld := ⟨⟨666, m, 0⟩, 3, 0⟩
/-- Mbx status: offset 0x808, bits [23:16], RO. -/
abbrev R.mbxStatus (m : Nat) : Fld := ⟨⟨667, m, 0⟩, 8, 0⟩
/-- Mbx doneSeq: offset 0x808, bits [15:0], RO. -/
abbrev R.mbxDoneSeq (m : Nat) : Fld := ⟨⟨668, m, 0⟩, 16, 0⟩
/-- Mbx opcode: offset 0x80c, bits [31:16], RO. -/
abbrev R.mbxOpcode (m : Nat) : Fld := ⟨⟨669, m, 0⟩, 16, 0⟩
/-- Mbx rlen: offset 0x80c, bits [10:0], RO. -/
abbrev R.mbxRlen (m : Nat) : Fld := ⟨⟨670, m, 0⟩, 11, 0⟩
/-- Mbx fail: offset 0x810, bits [31:16], RO. -/
abbrev R.mbxFail (m : Nat) : Fld := ⟨⟨671, m, 0⟩, 16, 0xFFFF⟩
/-- Mbx dtick: offset 0x810, bits [15:0], RO. -/
abbrev R.mbxDtick (m : Nat) : Fld := ⟨⟨672, m, 0⟩, 16, 0⟩
/-- Mbx ctag: offset 0x814, bits [31:0], RO. -/
abbrev R.mbxCtag (m : Nat) : Fld := ⟨⟨673, m, 0⟩, 32, 0⟩
/-- Mbx dbIgnored: offset 0x818, bits [31:16], RC. -/
abbrev R.mbxDbIgnored (m : Nat) : Fld := ⟨⟨674, m, 0⟩, 16, 0⟩
/-- Mbx doneCnt: offset 0x818, bits [15:0], RC. -/
abbrev R.mbxDoneCnt (m : Nat) : Fld := ⟨⟨675, m, 0⟩, 16, 0⟩

/-! 21_control_firmware.md R604: registers at 0x7010000. -/
/-- MbxCmd word: offset 0x0, bits [31:0], RW. -/
abbrev R.mbxCmdWord (m : Nat) (w : Nat) : Fld := ⟨⟨676, m, w⟩, 32, 0⟩

/-! 21_control_firmware.md R604: registers at 0x7010400. -/
/-- MbxRsp word: offset 0x0, bits [31:0], RO. -/
abbrev R.mbxRspWord (m : Nat) (w : Nat) : Fld := ⟨⟨677, m, w⟩, 32, 0⟩

/-! 23_test_service_life.md R663: registers at 0x7050000. -/
/-- Obs en: offset 0x0, bits [24:24], RO. -/
abbrev R.obsEn (p : Nat) : Fld := ⟨⟨678, p, 0⟩, 1, 0⟩
/-- Obs signal: offset 0x0, bits [23:16], RO. -/
abbrev R.obsSignal (p : Nat) : Fld := ⟨⟨679, p, 0⟩, 8, 0⟩
/-- Obs region: offset 0x0, bits [14:12], RO. -/
abbrev R.obsRegion (p : Nat) : Fld := ⟨⟨680, p, 0⟩, 3, 0⟩
/-- Obs pin: offset 0x0, bits [10:8], RO. -/
abbrev R.obsPin (p : Nat) : Fld := ⟨⟨681, p, 0⟩, 3, p⟩

/-! 23_test_service_life.md R666: registers at 0x7050040. -/
/-- Featlock baseStep: offset 0x0, bits [31:24], RO. -/
abbrev R.featlockBaseStep : Fld := ⟨⟨682, 0, 0⟩, 8, 1⟩
/-- Featlock feat: offset 0x0, bits [15:0], RO. -/
abbrev R.featlockFeat : Fld := ⟨⟨683, 0, 0⟩, 16, 0⟩

/-! 01_architecture.md R17: the manual gives these no address. -/
/-- Weight of region `r` at the chip fabric, RW. -/
abbrev R.fabWeight (r : Nat) : Fld := ⟨⟨684, r, 0⟩, 4, 4⟩

end Sys2Proof.Machine
end

