-- ==== Sys2Proof/Machine/RegMap.lean ====
section
/-!
DEFINITION. Where each register field lies: address, position in its word, access type (R7) and legal encodings (R9).
-/

namespace Sys2Proof.Machine

/-- The access types of Table 0-3. -/
inductive Acc where
  | rw | ro | w1c | wo | rc
deriving DecidableEq, Repr

/-- A family of register fields: word address of copy (0, 0), how many copies and how far apart in each index,
lowest bit, access type, legal encodings, and the field of copy (i, j). -/
structure RegRow where
  base : Nat
  ni : Nat
  si : Nat
  nj : Nat
  sj : Nat
  lo : Nat
  acc : Acc
  legal : Nat → Bool
  fld : Nat → Nat → Fld

/-- Address rows of R28 (01_architecture.md). -/
def rowsFc : List RegRow := [
  ⟨0x0, 8, 16777216, 1, 0, 0, .w1c, fun _ => true, fun i _ => R.fcStatus i⟩]

/-- Address rows of R66 (02_forge_tick.md). -/
def rowsTick : List RegRow := [
  ⟨0x7000100, 1, 0, 1, 0, 24, .ro, fun _ => true, fun _ _ => R.tickPend⟩,
  ⟨0x7000100, 1, 0, 1, 0, 16, .ro, fun _ => true, fun _ _ => R.tickNext⟩,
  ⟨0x7000100, 1, 0, 1, 0, 11, .ro, fun _ => true, fun _ _ => R.tickSynced⟩,
  ⟨0x7000100, 1, 0, 1, 0, 10, .ro, fun _ => true, fun _ _ => R.tickRefMode⟩,
  ⟨0x7000100, 1, 0, 1, 0, 8, .ro, fun _ => true, fun _ _ => R.tickRefHost⟩,
  ⟨0x7000100, 1, 0, 1, 0, 0, .ro, fun _ => true, fun _ _ => R.tickPeriod⟩,
  ⟨0x7000104, 1, 0, 1, 0, 16, .rc, fun _ => true, fun _ _ => R.tickOvrCount⟩,
  ⟨0x7000104, 1, 0, 1, 0, 0, .rc, fun _ => true, fun _ _ => R.tickSeqHwm⟩]

/-- Address rows of R75 (03_tunnels.md). -/
def rowsTt : List RegRow := [
  ⟨0x2200000, 4096, 32, 1, 0, 28, .ro, fun _ => true, fun i _ => R.ttGen i⟩,
  ⟨0x2200000, 4096, 32, 1, 0, 25, .rw, fun v => decide (v ≤ 6), fun i _ => R.ttClass i⟩,
  ⟨0x2200000, 4096, 32, 1, 0, 22, .ro, fun _ => true, fun i _ => R.ttState i⟩,
  ⟨0x2200000, 4096, 32, 1, 0, 18, .rw, fun _ => true, fun i _ => R.ttOwn i⟩,
  ⟨0x2200000, 4096, 32, 1, 0, 17, .rw, fun _ => true, fun i _ => R.ttBidir i⟩,
  ⟨0x2200000, 4096, 32, 1, 0, 16, .ro, fun _ => true, fun i _ => R.ttFailed i⟩,
  ⟨0x2200000, 4096, 32, 1, 0, 0, .rw, fun _ => true, fun i _ => R.ttMaxlen i⟩,
  ⟨0x2200004, 4096, 32, 1, 0, 25, .rw, fun v => decide (v ≤ 16), fun i _ => R.ttLp5w i⟩,
  ⟨0x2200004, 4096, 32, 1, 0, 20, .rw, fun v => decide (v ≤ 24), fun i _ => R.ttLine i⟩,
  ⟨0x2200004, 4096, 32, 1, 0, 15, .rw, fun v => decide (v ≤ 24), fun i _ => R.ttAltTrk i⟩,
  ⟨0x2200004, 4096, 32, 1, 0, 10, .rw, fun v => decide (v ≤ 24), fun i _ => R.ttAltEgr i⟩,
  ⟨0x2200004, 4096, 32, 1, 0, 5, .rw, fun v => decide (v ≤ 24), fun i _ => R.ttEgr i⟩,
  ⟨0x2200004, 4096, 32, 1, 0, 0, .rw, fun v => decide (v ≤ 24), fun i _ => R.ttIngr i⟩,
  ⟨0x2200008, 4096, 32, 1, 0, 30, .rw, fun _ => true, fun i _ => R.ttSmode i⟩,
  ⟨0x2200008, 4096, 32, 1, 0, 16, .rw, fun _ => true, fun i _ => R.ttWeight i⟩,
  ⟨0x2200008, 4096, 32, 1, 0, 8, .rw, fun _ => true, fun i _ => R.ttProfile i⟩,
  ⟨0x2200008, 4096, 32, 1, 0, 0, .rw, fun _ => true, fun i _ => R.ttBuflim i⟩,
  ⟨0x220000c, 4096, 32, 1, 0, 31, .rw, fun _ => true, fun i _ => R.ttFben i⟩,
  ⟨0x220000c, 4096, 32, 1, 0, 27, .rw, fun _ => true, fun i _ => R.ttFrateE i⟩,
  ⟨0x220000c, 4096, 32, 1, 0, 15, .rw, fun _ => true, fun i _ => R.ttFrateM i⟩,
  ⟨0x220000c, 4096, 32, 1, 0, 11, .rw, fun _ => true, fun i _ => R.ttFburstE i⟩,
  ⟨0x220000c, 4096, 32, 1, 0, 3, .rw, fun _ => true, fun i _ => R.ttFburstM i⟩,
  ⟨0x2200010, 4096, 32, 1, 0, 31, .rw, fun _ => true, fun i _ => R.ttRben i⟩,
  ⟨0x2200010, 4096, 32, 1, 0, 27, .rw, fun _ => true, fun i _ => R.ttRrateE i⟩,
  ⟨0x2200010, 4096, 32, 1, 0, 15, .rw, fun _ => true, fun i _ => R.ttRrateM i⟩,
  ⟨0x2200010, 4096, 32, 1, 0, 11, .rw, fun _ => true, fun i _ => R.ttRburstE i⟩,
  ⟨0x2200010, 4096, 32, 1, 0, 3, .rw, fun _ => true, fun i _ => R.ttRburstM i⟩,
  ⟨0x2200014, 4096, 32, 1, 0, 16, .rw, fun _ => true, fun i _ => R.ttRweight i⟩,
  ⟨0x2200014, 4096, 32, 1, 0, 8, .rw, fun _ => true, fun i _ => R.ttRprofile i⟩,
  ⟨0x2200014, 4096, 32, 1, 0, 0, .rw, fun _ => true, fun i _ => R.ttRbuflim i⟩,
  ⟨0x2200018, 4096, 32, 1, 0, 16, .ro, fun _ => true, fun i _ => R.ttPlanId i⟩,
  ⟨0x2200018, 4096, 32, 1, 0, 0, .rw, fun _ => true, fun i _ => R.ttCookie i⟩]

/-- Address rows of R104 (03_tunnels.md). -/
def rowsRun : List RegRow := [
  ⟨0x2220000, 4096, 16, 1, 0, 16, .ro, fun _ => true, fun i _ => R.runIngSeq i⟩,
  ⟨0x2220000, 4096, 16, 1, 0, 0, .ro, fun _ => true, fun i _ => R.runEgrSeq i⟩,
  ⟨0x2220004, 4096, 16, 1, 0, 16, .ro, fun _ => true, fun i _ => R.runStaleCnt i⟩,
  ⟨0x2220004, 4096, 16, 1, 0, 0, .ro, fun _ => true, fun i _ => R.runNotopenCnt i⟩,
  ⟨0x2220008, 4096, 16, 1, 0, 16, .ro, fun _ => true, fun i _ => R.runIngrCnt i⟩,
  ⟨0x2220008, 4096, 16, 1, 0, 0, .ro, fun _ => true, fun i _ => R.runFmtCnt i⟩,
  ⟨0x222000c, 4096, 16, 1, 0, 24, .ro, fun _ => true, fun i _ => R.runQleft i⟩,
  ⟨0x222000c, 4096, 16, 1, 0, 16, .ro, fun _ => true, fun i _ => R.runDrained i⟩,
  ⟨0x222000c, 4096, 16, 1, 0, 12, .ro, fun _ => true, fun i _ => R.runRsv i⟩]

/-- Address rows of R169 (04_trunk_protocol.md). -/
def rowsLink : List RegRow := [
  ⟨0x10000, 4, 256, 1, 0, 29, .ro, fun _ => true, fun i _ => R.linkState i⟩,
  ⟨0x10000, 4, 256, 1, 0, 27, .ro, fun _ => true, fun i _ => R.linkHost i⟩,
  ⟨0x10000, 4, 256, 1, 0, 26, .ro, fun _ => true, fun i _ => R.linkExtbuf i⟩,
  ⟨0x10000, 4, 256, 1, 0, 25, .ro, fun _ => true, fun i _ => R.linkSpare i⟩,
  ⟨0x10000, 4, 256, 1, 0, 22, .ro, fun _ => true, fun i _ => R.linkNlane i⟩,
  ⟨0x10000, 4, 256, 1, 0, 17, .ro, fun _ => true, fun i _ => R.linkKint i⟩,
  ⟨0x10000, 4, 256, 1, 0, 15, .ro, fun _ => true, fun i _ => R.linkTxep i⟩,
  ⟨0x10000, 4, 256, 1, 0, 8, .ro, fun _ => true, fun i _ => R.linkHoldn i⟩,
  ⟨0x10004, 4, 256, 1, 0, 0, .ro, fun _ => true, fun i _ => R.linkRtt i⟩,
  ⟨0x10008, 4, 256, 1, 0, 24, .ro, fun _ => true, fun i _ => R.linkCtl i⟩,
  ⟨0x10008, 4, 256, 1, 0, 16, .ro, fun _ => true, fun i _ => R.linkIso i⟩,
  ⟨0x10008, 4, 256, 1, 0, 8, .ro, fun _ => true, fun i _ => R.linkRtx i⟩,
  ⟨0x10008, 4, 256, 1, 0, 0, .ro, fun _ => true, fun i _ => R.linkBlk i⟩,
  ⟨0x1000c, 4, 256, 1, 0, 0, .ro, fun _ => true, fun i _ => R.linkEpoch i⟩,
  ⟨0x10010, 4, 256, 1, 0, 16, .rc, fun _ => true, fun i _ => R.linkCrcErr i⟩,
  ⟨0x10010, 4, 256, 1, 0, 0, .rc, fun _ => true, fun i _ => R.linkNakTx i⟩,
  ⟨0x10014, 4, 256, 1, 0, 16, .rc, fun _ => true, fun i _ => R.linkReplayLu i⟩,
  ⟨0x10014, 4, 256, 1, 0, 0, .rc, fun _ => true, fun i _ => R.linkNakRx i⟩,
  ⟨0x10018, 4, 256, 1, 0, 16, .rc, fun _ => true, fun i _ => R.linkUrLost i⟩,
  ⟨0x10018, 4, 256, 1, 0, 0, .rc, fun _ => true, fun i _ => R.linkDup i⟩,
  ⟨0x1001c, 4, 256, 1, 0, 16, .rc, fun _ => true, fun i _ => R.linkGap i⟩,
  ⟨0x1001c, 4, 256, 1, 0, 0, .rc, fun _ => true, fun i _ => R.linkFmtErr i⟩,
  ⟨0x10020, 4, 256, 1, 0, 16, .rc, fun _ => true, fun i _ => R.linkTagFail i⟩,
  ⟨0x10020, 4, 256, 1, 0, 0, .rc, fun _ => true, fun i _ => R.linkCtrRej i⟩,
  ⟨0x10024, 4, 256, 1, 0, 16, .rc, fun _ => true, fun i _ => R.linkAuthRefuse i⟩,
  ⟨0x10024, 4, 256, 1, 0, 0, .rc, fun _ => true, fun i _ => R.linkPreDrop i⟩]

/-- Address rows of R201 (05_trunk_lanes.md). -/
def rowsLane : List RegRow := [
  ⟨0x20000, 4, 256, 1, 0, 24, .rw, fun _ => true, fun i _ => R.laneFomTgt i⟩,
  ⟨0x20000, 4, 256, 1, 0, 16, .rw, fun _ => true, fun i _ => R.laneFomMin i⟩,
  ⟨0x20000, 4, 256, 1, 0, 8, .rw, fun _ => true, fun i _ => R.laneFomFail i⟩,
  ⟨0x20000, 4, 256, 1, 0, 5, .rw, fun v => decide (1 ≤ v ∧ v ≤ 4), fun i _ => R.laneMinw i⟩,
  ⟨0x20000, 4, 256, 1, 0, 4, .rw, fun _ => true, fun i _ => R.laneAutoidle i⟩,
  ⟨0x20000, 4, 256, 1, 0, 3, .rw, fun _ => true, fun i _ => R.laneRotEn i⟩,
  ⟨0x20004, 4, 256, 1, 0, 24, .rw, fun v => decide (1 ≤ v ∧ v ≤ 255), fun i _ => R.laneIdleDly i⟩,
  ⟨0x20004, 4, 256, 1, 0, 20, .rw, fun v => decide (1 ≤ v ∧ v ≤ 15), fun i _ => R.laneSafeDelta i⟩,
  ⟨0x20004, 4, 256, 1, 0, 16, .rw, fun v => decide (1 ≤ v ∧ v ≤ 8), fun i _ => R.lanePresetStart i⟩,
  ⟨0x20004, 4, 256, 1, 0, 14, .rw, fun v => decide (v ≤ 2), fun i _ => R.laneMaxrate i⟩,
  ⟨0x20008, 4, 256, 1, 0, 29, .ro, fun _ => true, fun i _ => R.laneTstate i⟩,
  ⟨0x20008, 4, 256, 1, 0, 27, .ro, fun _ => true, fun i _ => R.laneRate i⟩,
  ⟨0x20008, 4, 256, 1, 0, 24, .ro, fun _ => true, fun i _ => R.laneStandin i⟩,
  ⟨0x20008, 4, 256, 1, 0, 21, .ro, fun _ => true, fun i _ => R.laneRepl i⟩,
  ⟨0x20008, 4, 256, 1, 0, 16, .ro, fun _ => true, fun i _ => R.laneRetired i⟩,
  ⟨0x20008, 4, 256, 1, 0, 15, .ro, fun _ => true, fun i _ => R.laneEidleTx i⟩,
  ⟨0x20008, 4, 256, 1, 0, 14, .ro, fun _ => true, fun i _ => R.laneEidleRx i⟩,
  ⟨0x20008, 4, 256, 1, 0, 0, .ro, fun _ => true, fun i _ => R.laneTrnUs i⟩]

/-- Address rows of R201 (05_trunk_lanes.md). -/
def rowsLn : List RegRow := [
  ⟨0x20020, 4, 256, 5, 16, 29, .ro, fun _ => true, R.lnLstate⟩,
  ⟨0x20020, 4, 256, 5, 16, 26, .ro, fun _ => true, R.lnPos⟩,
  ⟨0x20020, 4, 256, 5, 16, 25, .ro, fun _ => true, R.lnTemperStop⟩,
  ⟨0x20020, 4, 256, 5, 16, 24, .ro, fun _ => true, R.lnLock⟩,
  ⟨0x20020, 4, 256, 5, 16, 16, .ro, fun _ => true, R.lnFom⟩,
  ⟨0x20020, 4, 256, 5, 16, 8, .ro, fun _ => true, R.lnFomTrn⟩,
  ⟨0x20020, 4, 256, 5, 16, 0, .rc, fun _ => true, R.lnFomLow⟩,
  ⟨0x20024, 4, 256, 5, 16, 26, .ro, fun _ => true, R.lnMain⟩,
  ⟨0x20024, 4, 256, 5, 16, 21, .ro, fun _ => true, R.lnP1⟩,
  ⟨0x20024, 4, 256, 5, 16, 17, .ro, fun _ => true, R.lnPre⟩,
  ⟨0x20024, 4, 256, 5, 16, 13, .ro, fun _ => true, R.lnP2⟩,
  ⟨0x20024, 4, 256, 5, 16, 9, .ro, fun _ => true, R.lnCtle⟩,
  ⟨0x20024, 4, 256, 5, 16, 4, .ro, fun _ => true, R.lnPhase⟩,
  ⟨0x20028, 4, 256, 5, 16, 24, .ro, fun _ => true, R.lnDfe5⟩,
  ⟨0x20028, 4, 256, 5, 16, 18, .ro, fun _ => true, R.lnDfe4⟩,
  ⟨0x20028, 4, 256, 5, 16, 12, .ro, fun _ => true, R.lnDfe3⟩,
  ⟨0x20028, 4, 256, 5, 16, 6, .ro, fun _ => true, R.lnDfe2⟩,
  ⟨0x20028, 4, 256, 5, 16, 0, .ro, fun _ => true, R.lnDfe1⟩,
  ⟨0x2002c, 4, 256, 5, 16, 16, .rc, fun _ => true, R.lnSyncErr⟩,
  ⟨0x2002c, 4, 256, 5, 16, 8, .rc, fun _ => true, R.lnSteps⟩,
  ⟨0x2002c, 4, 256, 5, 16, 4, .rc, fun _ => true, R.lnFaults⟩,
  ⟨0x2002c, 4, 256, 5, 16, 0, .rc, fun _ => true, R.lnUndo⟩]

/-- Address rows of R205 (06_strike.md). -/
def rowsTin : List RegRow := [
  ⟨0x2601000, 32, 4, 1, 0, 30, .rw, fun _ => true, fun i _ => R.tinEdgesel i⟩,
  ⟨0x2601000, 32, 4, 1, 0, 29, .rw, fun _ => true, fun i _ => R.tinInv i⟩,
  ⟨0x2601000, 32, 4, 1, 0, 25, .rw, fun _ => true, fun i _ => R.tinFilt i⟩,
  ⟨0x2601000, 32, 4, 1, 0, 0, .rw, fun _ => true, fun i _ => R.tinChan i⟩]

/-- Address rows of R205 (06_strike.md). -/
def rowsTout : List RegRow := [
  ⟨0x2601080, 32, 4, 1, 0, 30, .rw, fun _ => true, fun i _ => R.toutMode i⟩,
  ⟨0x2601080, 32, 4, 1, 0, 28, .rw, fun _ => true, fun i _ => R.toutSafe i⟩,
  ⟨0x2601080, 32, 4, 1, 0, 27, .rw, fun _ => true, fun i _ => R.toutInv i⟩,
  ⟨0x2601080, 32, 4, 1, 0, 26, .rw, fun _ => true, fun i _ => R.toutLateEn i⟩,
  ⟨0x2601080, 32, 4, 1, 0, 12, .rw, fun _ => true, fun i _ => R.toutWidth i⟩]

/-- Address rows of R219 (06_strike.md). -/
def rowsRoute : List RegRow := [
  ⟨0x2600000, 256, 16, 1, 0, 0, .rw, fun _ => true, fun i _ => R.routeOut i⟩,
  ⟨0x2600004, 256, 16, 1, 0, 0, .rw, fun _ => true, fun i _ => R.routeDst i⟩,
  ⟨0x2600008, 256, 16, 1, 0, 27, .rw, fun _ => true, fun i _ => R.routeLocalEv i⟩,
  ⟨0x2600008, 256, 16, 1, 0, 26, .rw, fun _ => true, fun i _ => R.routeAltEn i⟩,
  ⟨0x2600008, 256, 16, 1, 0, 24, .rw, fun _ => true, fun i _ => R.routeAlt i⟩,
  ⟨0x2600008, 256, 16, 1, 0, 23, .rw, fun _ => true, fun i _ => R.routeLateFwd i⟩,
  ⟨0x2600008, 256, 16, 1, 0, 22, .rw, fun _ => true, fun i _ => R.routeLocalSrc i⟩,
  ⟨0x2600008, 256, 16, 1, 0, 0, .rw, fun _ => true, fun i _ => R.routeSrc i⟩]

/-- Address rows of R235 (06_strike.md). -/
def rowsFp : List RegRow := [
  ⟨0x2601100, 20, 32, 1, 0, 16, .rc, fun _ => true, fun i _ => R.fpTx i⟩,
  ⟨0x2601100, 20, 32, 1, 0, 0, .rc, fun _ => true, fun i _ => R.fpRx i⟩,
  ⟨0x2601104, 20, 32, 1, 0, 16, .rc, fun _ => true, fun i _ => R.fpCopyErr i⟩,
  ⟨0x2601104, 20, 32, 1, 0, 0, .rc, fun _ => true, fun i _ => R.fpDiffer i⟩,
  ⟨0x2601108, 20, 32, 1, 0, 16, .rc, fun _ => true, fun i _ => R.fpDenied i⟩,
  ⟨0x2601108, 20, 32, 1, 0, 0, .rc, fun _ => true, fun i _ => R.fpDrop i⟩,
  ⟨0x260110c, 20, 32, 1, 0, 16, .rc, fun _ => true, fun i _ => R.fpLate i⟩,
  ⟨0x260110c, 20, 32, 1, 0, 0, .rc, fun _ => true, fun i _ => R.fpLost i⟩,
  ⟨0x2601110, 20, 32, 1, 0, 16, .rc, fun _ => true, fun i _ => R.fpUnconf i⟩,
  ⟨0x2601110, 20, 32, 1, 0, 0, .rc, fun _ => true, fun i _ => R.fpSummiss i⟩]

/-- Address rows of R235 (06_strike.md). -/
def rowsFpStat : List RegRow := [
  ⟨0x2601400, 1, 0, 1, 0, 16, .rc, fun _ => true, fun _ _ => R.fpStatDenied⟩,
  ⟨0x2601400, 1, 0, 1, 0, 0, .rc, fun _ => true, fun _ _ => R.fpStatDrop⟩,
  ⟨0x2601404, 1, 0, 1, 0, 0, .rc, fun _ => true, fun _ _ => R.fpStatXovf⟩]

/-- Address rows of R265 (07_hearth.md). -/
def rowsProf : List RegRow := [
  ⟨0x2300000, 256, 16, 1, 0, 28, .ro, fun _ => true, fun i _ => R.profCirE i⟩,
  ⟨0x2300000, 256, 16, 1, 0, 16, .ro, fun _ => true, fun i _ => R.profCirM i⟩,
  ⟨0x2300000, 256, 16, 1, 0, 12, .ro, fun _ => true, fun i _ => R.profPirE i⟩,
  ⟨0x2300000, 256, 16, 1, 0, 0, .ro, fun _ => true, fun i _ => R.profPirM i⟩,
  ⟨0x2300004, 256, 16, 1, 0, 28, .ro, fun _ => true, fun i _ => R.profCbsE i⟩,
  ⟨0x2300004, 256, 16, 1, 0, 20, .ro, fun _ => true, fun i _ => R.profCbsM i⟩,
  ⟨0x2300004, 256, 16, 1, 0, 16, .ro, fun _ => true, fun i _ => R.profPbsE i⟩,
  ⟨0x2300004, 256, 16, 1, 0, 8, .ro, fun _ => true, fun i _ => R.profPbsM i⟩,
  ⟨0x2300008, 256, 16, 1, 0, 31, .ro, fun _ => true, fun i _ => R.profValid i⟩,
  ⟨0x2300008, 256, 16, 1, 0, 24, .ro, fun _ => true, fun i _ => R.profOwn i⟩,
  ⟨0x2300008, 256, 16, 1, 0, 1, .ro, fun _ => true, fun i _ => R.profYDrop i⟩,
  ⟨0x2300008, 256, 16, 1, 0, 0, .ro, fun _ => true, fun i _ => R.profRPass i⟩]

/-- Address rows of R265 (07_hearth.md). -/
def rowsPolCnt : List RegRow := [
  ⟨0x2320000, 4096, 16, 1, 0, 16, .ro, fun _ => true, fun i _ => R.polCntGreenF i⟩,
  ⟨0x2320000, 4096, 16, 1, 0, 0, .ro, fun _ => true, fun i _ => R.polCntYellowF i⟩,
  ⟨0x2320004, 4096, 16, 1, 0, 16, .ro, fun _ => true, fun i _ => R.polCntRedF i⟩,
  ⟨0x2320004, 4096, 16, 1, 0, 0, .ro, fun _ => true, fun i _ => R.polCntBufdropF i⟩,
  ⟨0x2320008, 4096, 16, 1, 0, 16, .ro, fun _ => true, fun i _ => R.polCntGreenR i⟩,
  ⟨0x2320008, 4096, 16, 1, 0, 0, .ro, fun _ => true, fun i _ => R.polCntYellowR i⟩,
  ⟨0x232000c, 4096, 16, 1, 0, 16, .ro, fun _ => true, fun i _ => R.polCntRedR i⟩,
  ⟨0x232000c, 4096, 16, 1, 0, 0, .ro, fun _ => true, fun i _ => R.polCntBufdropR i⟩]

/-- Address rows of R265 (07_hearth.md). -/
def rowsBuf : List RegRow := [
  ⟨0x2500000, 1, 0, 1, 0, 0, .ro, fun _ => true, fun _ _ => R.bufQpool⟩,
  ⟨0x2500004, 1, 0, 1, 0, 0, .ro, fun _ => true, fun _ _ => R.bufFloors⟩,
  ⟨0x2500008, 1, 0, 1, 0, 0, .ro, fun _ => true, fun _ _ => R.bufSfree⟩,
  ⟨0x250000c, 1, 0, 1, 0, 0, .rc, fun _ => true, fun _ _ => R.bufSfreeLow⟩,
  ⟨0x2500010, 1, 0, 1, 0, 16, .ro, fun _ => true, fun _ _ => R.bufYelFree⟩,
  ⟨0x2500010, 1, 0, 1, 0, 0, .ro, fun _ => true, fun _ _ => R.bufRedFree⟩,
  ⟨0x250001c, 1, 0, 1, 0, 24, .ro, fun _ => true, fun _ _ => R.bufCtWait⟩,
  ⟨0x250001c, 1, 0, 1, 0, 15, .ro, fun _ => true, fun _ _ => R.bufCtEn⟩,
  ⟨0x250001c, 1, 0, 1, 0, 0, .ro, fun _ => true, fun _ _ => R.bufHoldMax⟩,
  ⟨0x2500400, 1, 0, 1, 0, 16, .rc, fun _ => true, fun _ _ => R.bufEccCe⟩,
  ⟨0x2500400, 1, 0, 1, 0, 0, .rc, fun _ => true, fun _ _ => R.bufEccUe⟩,
  ⟨0x2500404, 1, 0, 1, 0, 16, .rc, fun _ => true, fun _ _ => R.bufLinkUe⟩,
  ⟨0x2500404, 1, 0, 1, 0, 0, .rc, fun _ => true, fun _ _ => R.bufLostCell⟩]

/-- Address rows of R265 (07_hearth.md). -/
def rowsHcap : List RegRow := [
  ⟨0x2500020, 5, 4, 1, 0, 0, .ro, fun _ => true, fun i _ => R.hcapCap i⟩]

/-- Address rows of R265 (07_hearth.md). -/
def rowsAtt : List RegRow := [
  ⟨0x2500100, 24, 16, 1, 0, 16, .rc, fun _ => true, fun i _ => R.attQlimDrop i⟩,
  ⟨0x2500100, 24, 16, 1, 0, 0, .rc, fun _ => true, fun i _ => R.attSharedDrop i⟩,
  ⟨0x2500104, 24, 16, 1, 0, 16, .rc, fun _ => true, fun i _ => R.attPolDrop i⟩,
  ⟨0x2500104, 24, 16, 1, 0, 0, .rc, fun _ => true, fun i _ => R.attHoldDrop i⟩,
  ⟨0x2500108, 24, 16, 1, 0, 16, .rc, fun _ => true, fun i _ => R.attCtAbort i⟩,
  ⟨0x2500108, 24, 16, 1, 0, 0, .rc, fun _ => true, fun i _ => R.attCtFrames i⟩,
  ⟨0x250010c, 24, 16, 1, 0, 0, .rc, fun _ => true, fun i _ => R.attHoldHwm i⟩]

/-- Address rows of R290 (08_scheduling.md). -/
def rowsQc : List RegRow := [
  ⟨0x2400000, 4096, 64, 1, 0, 31, .ro, fun _ => true, fun i _ => R.qcValidF i⟩,
  ⟨0x2400000, 4096, 64, 1, 0, 0, .ro, fun _ => true, fun i _ => R.qcDepthF i⟩,
  ⟨0x2400004, 4096, 64, 1, 0, 0, .ro, fun _ => true, fun i _ => R.qcDlyF i⟩,
  ⟨0x2400008, 4096, 64, 1, 0, 0, .rc, fun _ => true, fun i _ => R.qcHwmDepF i⟩,
  ⟨0x240000c, 4096, 64, 1, 0, 0, .rc, fun _ => true, fun i _ => R.qcHwmDlyF i⟩,
  ⟨0x2400010, 4096, 64, 1, 0, 31, .ro, fun _ => true, fun i _ => R.qcValidR i⟩,
  ⟨0x2400010, 4096, 64, 1, 0, 0, .ro, fun _ => true, fun i _ => R.qcDepthR i⟩,
  ⟨0x2400014, 4096, 64, 1, 0, 0, .ro, fun _ => true, fun i _ => R.qcDlyR i⟩,
  ⟨0x2400018, 4096, 64, 1, 0, 0, .rc, fun _ => true, fun i _ => R.qcHwmDepR i⟩,
  ⟨0x240001c, 4096, 64, 1, 0, 0, .rc, fun _ => true, fun i _ => R.qcHwmDlyR i⟩,
  ⟨0x2400020, 4096, 64, 1, 0, 0, .ro, fun _ => true, fun i _ => R.qcSmpTick i⟩,
  ⟨0x2400024, 4096, 64, 1, 0, 0, .ro, fun _ => true, fun i _ => R.qcTxfrmF i⟩,
  ⟨0x2400028, 4096, 64, 1, 0, 0, .ro, fun _ => true, fun i _ => R.qcTxkibF i⟩,
  ⟨0x240002c, 4096, 64, 1, 0, 0, .ro, fun _ => true, fun i _ => R.qcTxfrmR i⟩,
  ⟨0x2400030, 4096, 64, 1, 0, 0, .ro, fun _ => true, fun i _ => R.qcTxkibR i⟩]

/-- Address rows of R291 (08_scheduling.md). -/
def rowsSch : List RegRow := [
  ⟨0x2700000, 24, 64, 1, 0, 24, .ro, fun _ => true, fun i _ => R.schOvhEnc i⟩,
  ⟨0x2700000, 24, 64, 1, 0, 16, .ro, fun _ => true, fun i _ => R.schGuard i⟩,
  ⟨0x2700004, 24, 64, 1, 0, 0, .ro, fun _ => true, fun i _ => R.schBl0 i⟩,
  ⟨0x2700008, 24, 64, 1, 0, 0, .ro, fun _ => true, fun i _ => R.schBl1 i⟩,
  ⟨0x270000c, 24, 64, 1, 0, 0, .ro, fun _ => true, fun i _ => R.schBl3 i⟩,
  ⟨0x2700014, 24, 64, 1, 0, 0, .ro, fun _ => true, fun i _ => R.schWmap i⟩,
  ⟨0x2700018, 24, 64, 1, 0, 16, .rc, fun _ => true, fun i _ => R.schGuardCnt i⟩,
  ⟨0x2700018, 24, 64, 1, 0, 0, .rc, fun _ => true, fun i _ => R.schB2Frm i⟩]

/-- Address rows of R317 (09_replan.md). -/
def rowsPlan : List RegRow := [
  ⟨0x2810000, 5, 32, 1, 0, 29, .ro, fun _ => true, fun i _ => R.planState i⟩,
  ⟨0x2810000, 5, 32, 1, 0, 26, .ro, fun _ => true, fun i _ => R.planOutcome i⟩,
  ⟨0x2810000, 5, 32, 1, 0, 15, .ro, fun _ => true, fun i _ => R.planNrec i⟩,
  ⟨0x2810004, 5, 32, 1, 0, 16, .ro, fun _ => true, fun i _ => R.planPlanId i⟩,
  ⟨0x2810004, 5, 32, 1, 0, 0, .ro, fun _ => true, fun i _ => R.planTunId i⟩,
  ⟨0x2810008, 5, 32, 1, 0, 16, .ro, fun _ => true, fun i _ => R.planCfgId i⟩,
  ⟨0x2810008, 5, 32, 1, 0, 0, .ro, fun _ => true, fun i _ => R.planLastId i⟩,
  ⟨0x281000c, 5, 32, 1, 0, 0, .ro, fun _ => true, fun i _ => R.planArmLo i⟩,
  ⟨0x2810010, 5, 32, 1, 0, 16, .ro, fun _ => true, fun i _ => R.planSkipped i⟩,
  ⟨0x2810010, 5, 32, 1, 0, 0, .ro, fun _ => true, fun i _ => R.planArmHi i⟩,
  ⟨0x2810014, 5, 32, 1, 0, 16, .ro, fun _ => true, fun i _ => R.planFailRec i⟩,
  ⟨0x2810014, 5, 32, 1, 0, 0, .ro, fun _ => true, fun i _ => R.planFailCode i⟩,
  ⟨0x2810018, 5, 32, 1, 0, 0, .ro, fun _ => true, fun i _ => R.planFailPlan i⟩]

/-- Address rows of R317 (09_replan.md). -/
def rowsShare : List RegRow := [
  ⟨0x2800000, 5, 512, 20, 16, 0, .ro, fun _ => true, R.shareW1⟩,
  ⟨0x2800004, 5, 512, 20, 16, 0, .ro, fun _ => true, R.shareW2⟩,
  ⟨0x2800008, 5, 512, 20, 16, 0, .ro, fun _ => true, R.shareW3⟩,
  ⟨0x280000c, 5, 512, 20, 16, 0, .ro, fun _ => true, R.shareW4⟩]

/-- Address rows of R317 (09_replan.md). -/
def rowsAdm : List RegRow := [
  ⟨0x2820000, 20, 4, 1, 0, 15, .ro, fun _ => true, fun i _ => R.admCap i⟩]

/-- Address rows of R340 (10_failover.md). -/
def rowsFo : List RegRow := [
  ⟨0x2900000, 4, 32, 1, 0, 31, .rw, fun _ => true, fun i _ => R.foAutoret i⟩,
  ⟨0x2900000, 4, 32, 1, 0, 30, .rw, fun _ => true, fun i _ => R.foCrdEn i⟩,
  ⟨0x2900000, 4, 32, 1, 0, 16, .rw, fun _ => true, fun i _ => R.foRtrDly i⟩,
  ⟨0x2900000, 4, 32, 1, 0, 8, .rw, fun v => decide (1 ≤ v ∧ v ≤ 255), fun i _ => R.foCrdTmo i⟩,
  ⟨0x2900004, 4, 32, 1, 0, 0, .rw, fun v => decide (1 ≤ v ∧ v ≤ 65535), fun i _ => R.foRetHold i⟩,
  ⟨0x2900008, 4, 32, 1, 0, 30, .ro, fun _ => true, fun i _ => R.foState i⟩,
  ⟨0x2900008, 4, 32, 1, 0, 26, .ro, fun _ => true, fun i _ => R.foCause i⟩,
  ⟨0x2900008, 4, 32, 1, 0, 16, .rc, fun _ => true, fun i _ => R.foCnt i⟩,
  ⟨0x2900008, 4, 32, 1, 0, 0, .ro, fun _ => true, fun i _ => R.foRplCells i⟩,
  ⟨0x290000c, 4, 32, 1, 0, 16, .ro, fun _ => true, fun i _ => R.foSwLat i⟩,
  ⟨0x290000c, 4, 32, 1, 0, 0, .ro, fun _ => true, fun i _ => R.foResLat i⟩,
  ⟨0x2900010, 4, 32, 1, 0, 16, .rc, fun _ => true, fun i _ => R.foNoaltDrop i⟩,
  ⟨0x2900010, 4, 32, 1, 0, 0, .rc, fun _ => true, fun i _ => R.foRplFrm i⟩]

/-- Address rows of R369 (11_line_ports.md). -/
def rowsLp : List RegRow := [
  ⟨0x1010000, 16, 256, 1, 0, 31, .rw, fun _ => true, fun i _ => R.lpEn i⟩,
  ⟨0x1010000, 16, 256, 1, 0, 30, .rw, fun _ => true, fun i _ => R.lpEncEn i⟩,
  ⟨0x1010000, 16, 256, 1, 0, 29, .rw, fun _ => true, fun i _ => R.lpAutoidle i⟩,
  ⟨0x1010000, 16, 256, 1, 0, 27, .rw, fun v => decide (v ≤ 2), fun i _ => R.lpMaxrate i⟩,
  ⟨0x1010000, 16, 256, 1, 0, 25, .rw, fun v => decide (v ≤ 2), fun i _ => R.lpCabcap i⟩,
  ⟨0x1010000, 16, 256, 1, 0, 24, .rw, fun _ => true, fun i _ => R.lpMinw i⟩,
  ⟨0x1010000, 16, 256, 1, 0, 16, .rw, fun _ => true, fun i _ => R.lpLrtrDly i⟩,
  ⟨0x1010000, 16, 256, 1, 0, 8, .rw, fun v => decide (1 ≤ v ∧ v ≤ 255), fun i _ => R.lpIdleDly i⟩,
  ⟨0x1010000, 16, 256, 1, 0, 4, .rw, fun v => decide (1 ≤ v ∧ v ≤ 8), fun i _ => R.lpPresetStart i⟩,
  ⟨0x1010004, 16, 256, 1, 0, 24, .rw, fun _ => true, fun i _ => R.lpFomTgt i⟩,
  ⟨0x1010004, 16, 256, 1, 0, 16, .rw, fun _ => true, fun i _ => R.lpFomMin i⟩,
  ⟨0x1010004, 16, 256, 1, 0, 8, .rw, fun _ => true, fun i _ => R.lpFomFail i⟩,
  ⟨0x1010008, 16, 256, 1, 0, 29, .ro, fun _ => true, fun i _ => R.lpState i⟩,
  ⟨0x1010008, 16, 256, 1, 0, 28, .ro, fun _ => true, fun i _ => R.lpKind i⟩,
  ⟨0x1010008, 16, 256, 1, 0, 27, .ro, fun _ => true, fun i _ => R.lpSnk i⟩,
  ⟨0x1010008, 16, 256, 1, 0, 26, .ro, fun _ => true, fun i _ => R.lpOrient i⟩,
  ⟨0x1010008, 16, 256, 1, 0, 24, .ro, fun _ => true, fun i _ => R.lpRate i⟩,
  ⟨0x1010008, 16, 256, 1, 0, 22, .ro, fun _ => true, fun i _ => R.lpNlane i⟩,
  ⟨0x1010008, 16, 256, 1, 0, 20, .ro, fun _ => true, fun i _ => R.lpRetired i⟩,
  ⟨0x1010008, 16, 256, 1, 0, 19, .ro, fun _ => true, fun i _ => R.lpEidleTx i⟩,
  ⟨0x1010008, 16, 256, 1, 0, 18, .ro, fun _ => true, fun i _ => R.lpEidleRx i⟩,
  ⟨0x1010008, 16, 256, 1, 0, 17, .ro, fun _ => true, fun i _ => R.lpEnc i⟩,
  ⟨0x1010008, 16, 256, 1, 0, 8, .ro, fun _ => true, fun i _ => R.lpHoldn i⟩,
  ⟨0x101000c, 16, 256, 1, 0, 24, .ro, fun _ => true, fun i _ => R.lpCtl i⟩,
  ⟨0x101000c, 16, 256, 1, 0, 16, .ro, fun _ => true, fun i _ => R.lpIso i⟩,
  ⟨0x101000c, 16, 256, 1, 0, 8, .ro, fun _ => true, fun i _ => R.lpRtx i⟩,
  ⟨0x101000c, 16, 256, 1, 0, 0, .ro, fun _ => true, fun i _ => R.lpBlk i⟩,
  ⟨0x1010010, 16, 256, 1, 0, 24, .rw, fun v => decide (1 ≤ v ∧ v ≤ 255), fun i _ => R.lpNbTmo i⟩,
  ⟨0x1010010, 16, 256, 1, 0, 20, .rw, fun v => decide (1 ≤ v ∧ v ≤ 15), fun i _ => R.lpNbWin i⟩,
  ⟨0x1010010, 16, 256, 1, 0, 8, .rw, fun v => decide (1 ≤ v ∧ v ≤ 4095), fun i _ => R.lpNbWeight i⟩,
  ⟨0x1010014, 16, 256, 1, 0, 0, .ro, fun _ => true, fun i _ => R.lpRtt i⟩,
  ⟨0x1010018, 16, 256, 1, 0, 0, .w1c, fun _ => true, fun i _ => R.lpCause i⟩,
  ⟨0x101001c, 16, 256, 1, 0, 0, .ro, fun _ => true, fun i _ => R.lpEpoch i⟩,
  ⟨0x1010060, 16, 256, 1, 0, 16, .rc, fun _ => true, fun i _ => R.lpCrcErr i⟩,
  ⟨0x1010060, 16, 256, 1, 0, 0, .rc, fun _ => true, fun i _ => R.lpNakTx i⟩,
  ⟨0x1010064, 16, 256, 1, 0, 16, .rc, fun _ => true, fun i _ => R.lpReplayLu i⟩,
  ⟨0x1010064, 16, 256, 1, 0, 0, .rc, fun _ => true, fun i _ => R.lpNakRx i⟩,
  ⟨0x1010068, 16, 256, 1, 0, 16, .rc, fun _ => true, fun i _ => R.lpUrLost i⟩,
  ⟨0x1010068, 16, 256, 1, 0, 0, .rc, fun _ => true, fun i _ => R.lpDup i⟩,
  ⟨0x101006c, 16, 256, 1, 0, 16, .rc, fun _ => true, fun i _ => R.lpGap i⟩,
  ⟨0x101006c, 16, 256, 1, 0, 0, .rc, fun _ => true, fun i _ => R.lpFmtErr i⟩,
  ⟨0x1010070, 16, 256, 1, 0, 16, .rc, fun _ => true, fun i _ => R.lpTagFail i⟩,
  ⟨0x1010070, 16, 256, 1, 0, 0, .rc, fun _ => true, fun i _ => R.lpCtrRej i⟩,
  ⟨0x1010074, 16, 256, 1, 0, 16, .rc, fun _ => true, fun i _ => R.lpAuthRefuse i⟩,
  ⟨0x1010074, 16, 256, 1, 0, 0, .rc, fun _ => true, fun i _ => R.lpPreDrop i⟩,
  ⟨0x1010080, 16, 256, 1, 0, 0, .ro, fun _ => true, fun i _ => R.lpNodeIdLo i⟩,
  ⟨0x1010084, 16, 256, 1, 0, 0, .ro, fun _ => true, fun i _ => R.lpNodeIdHi i⟩,
  ⟨0x1010088, 16, 256, 1, 0, 16, .ro, fun _ => true, fun i _ => R.lpVendor i⟩,
  ⟨0x1010088, 16, 256, 1, 0, 0, .ro, fun _ => true, fun i _ => R.lpModel i⟩,
  ⟨0x101008c, 16, 256, 1, 0, 0, .ro, fun _ => true, fun i _ => R.lpNodeCap i⟩,
  ⟨0x1010090, 16, 256, 1, 0, 0, .ro, fun _ => true, fun i _ => R.lpNodeNb i⟩,
  ⟨0x1010094, 16, 256, 1, 0, 16, .rc, fun _ => true, fun i _ => R.lpNbReqTx i⟩,
  ⟨0x1010094, 16, 256, 1, 0, 0, .rc, fun _ => true, fun i _ => R.lpNbTmout i⟩,
  ⟨0x1010098, 16, 256, 1, 0, 16, .rc, fun _ => true, fun i _ => R.lpNbFmt i⟩,
  ⟨0x1010098, 16, 256, 1, 0, 0, .rc, fun _ => true, fun i _ => R.lpNodeDrop i⟩,
  ⟨0x101009c, 16, 256, 1, 0, 16, .rc, fun _ => true, fun i _ => R.lpLdownDrop i⟩,
  ⟨0x101009c, 16, 256, 1, 0, 0, .rc, fun _ => true, fun i _ => R.lpHelloRpt i⟩]

/-- Address rows of R369 (11_line_ports.md). -/
def rowsLln : List RegRow := [
  ⟨0x1010040, 16, 256, 2, 16, 29, .ro, fun _ => true, R.llnLstate⟩,
  ⟨0x1010040, 16, 256, 2, 16, 26, .ro, fun _ => true, R.llnPos⟩,
  ⟨0x1010040, 16, 256, 2, 16, 25, .ro, fun _ => true, R.llnTemperStop⟩,
  ⟨0x1010040, 16, 256, 2, 16, 24, .ro, fun _ => true, R.llnLock⟩,
  ⟨0x1010040, 16, 256, 2, 16, 16, .ro, fun _ => true, R.llnFom⟩,
  ⟨0x1010040, 16, 256, 2, 16, 8, .ro, fun _ => true, R.llnFomTrn⟩,
  ⟨0x1010040, 16, 256, 2, 16, 0, .rc, fun _ => true, R.llnFomLow⟩,
  ⟨0x1010044, 16, 256, 2, 16, 26, .ro, fun _ => true, R.llnMain⟩,
  ⟨0x1010044, 16, 256, 2, 16, 21, .ro, fun _ => true, R.llnP1⟩,
  ⟨0x1010044, 16, 256, 2, 16, 17, .ro, fun _ => true, R.llnPre⟩,
  ⟨0x1010044, 16, 256, 2, 16, 13, .ro, fun _ => true, R.llnP2⟩,
  ⟨0x1010044, 16, 256, 2, 16, 9, .ro, fun _ => true, R.llnCtle⟩,
  ⟨0x1010044, 16, 256, 2, 16, 4, .ro, fun _ => true, R.llnPhase⟩,
  ⟨0x1010048, 16, 256, 2, 16, 24, .ro, fun _ => true, R.llnDfe5⟩,
  ⟨0x1010048, 16, 256, 2, 16, 18, .ro, fun _ => true, R.llnDfe4⟩,
  ⟨0x1010048, 16, 256, 2, 16, 12, .ro, fun _ => true, R.llnDfe3⟩,
  ⟨0x1010048, 16, 256, 2, 16, 6, .ro, fun _ => true, R.llnDfe2⟩,
  ⟨0x1010048, 16, 256, 2, 16, 0, .ro, fun _ => true, R.llnDfe1⟩,
  ⟨0x101004c, 16, 256, 2, 16, 16, .rc, fun _ => true, R.llnSyncErr⟩,
  ⟨0x101004c, 16, 256, 2, 16, 8, .rc, fun _ => true, R.llnSteps⟩,
  ⟨0x101004c, 16, 256, 2, 16, 4, .rc, fun _ => true, R.llnFaults⟩,
  ⟨0x101004c, 16, 256, 2, 16, 0, .rc, fun _ => true, R.llnUndo⟩]

/-- Address rows of R396 (12_bridging.md). -/
def rowsBrg : List RegRow := [
  ⟨0x5000100, 1, 0, 1, 0, 22, .rw, fun v => decide (1 ≤ v ∧ v ≤ 1023), fun _ _ => R.brgHoldUs⟩,
  ⟨0x5000100, 1, 0, 1, 0, 12, .rw, fun v => decide (1 ≤ v ∧ v ≤ 1023), fun _ _ => R.brgNholdUs⟩,
  ⟨0x5000100, 1, 0, 1, 0, 4, .rw, fun v => decide (1 ≤ v ∧ v ≤ 255), fun _ _ => R.brgLrecMax⟩,
  ⟨0x5000140, 1, 0, 1, 0, 16, .rc, fun _ => true, fun _ _ => R.brgRetryTx⟩,
  ⟨0x5000140, 1, 0, 1, 0, 0, .rc, fun _ => true, fun _ _ => R.brgHoldHit⟩,
  ⟨0x5000144, 1, 0, 1, 0, 16, .rc, fun _ => true, fun _ _ => R.brgHoldLost⟩,
  ⟨0x5000144, 1, 0, 1, 0, 0, .rc, fun _ => true, fun _ _ => R.brgSlotFull⟩,
  ⟨0x5000148, 1, 0, 1, 0, 16, .rc, fun _ => true, fun _ _ => R.brgTagClash⟩,
  ⟨0x5000148, 1, 0, 1, 0, 0, .rc, fun _ => true, fun _ _ => R.brgLateRec⟩,
  ⟨0x500014c, 1, 0, 1, 0, 16, .rc, fun _ => true, fun _ _ => R.brgNretryTx⟩,
  ⟨0x500014c, 1, 0, 1, 0, 0, .rc, fun _ => true, fun _ _ => R.brgNholdLost⟩,
  ⟨0x5000150, 1, 0, 1, 0, 16, .rc, fun _ => true, fun _ _ => R.brgCross⟩,
  ⟨0x5000150, 1, 0, 1, 0, 0, .rc, fun _ => true, fun _ _ => R.brgNbRefuse⟩,
  ⟨0x5000164, 1, 0, 1, 0, 16, .rc, fun _ => true, fun _ _ => R.brgMirFull⟩,
  ⟨0x5000164, 1, 0, 1, 0, 0, .rc, fun _ => true, fun _ _ => R.brgMirFmt⟩]

/-- Address rows of R396 (12_bridging.md). -/
def rowsNwin : List RegRow := [
  ⟨0x5000200, 16, 4, 1, 0, 0, .rw, fun _ => true, fun i _ => R.nwinWmask i⟩]

/-- Address rows of R396 (12_bridging.md). -/
def rowsBlog : List RegRow := [
  ⟨0x5018000, 17, 4, 1, 0, 16, .rc, fun _ => true, fun i _ => R.blogOvfCnt i⟩,
  ⟨0x5018000, 17, 4, 1, 0, 8, .ro, fun _ => true, fun i _ => R.blogNext i⟩,
  ⟨0x5018000, 17, 4, 1, 0, 0, .ro, fun _ => true, fun i _ => R.blogCount i⟩]

/-- Address rows of R429 (13_raster.md). -/
def rowsFlip : List RegRow := [
  ⟨0x3001018, 8, 256, 1, 0, 31, .rw, fun _ => true, fun i _ => R.flipArmBit i⟩,
  ⟨0x3001018, 8, 256, 1, 0, 0, .rw, fun _ => true, fun i _ => R.flipFlipId i⟩,
  ⟨0x300101c, 8, 256, 1, 0, 16, .ro, fun _ => true, fun i _ => R.flipDoneId i⟩,
  ⟨0x300101c, 8, 256, 1, 0, 15, .rc, fun _ => true, fun i _ => R.flipErr i⟩,
  ⟨0x300101c, 8, 256, 1, 0, 12, .ro, fun _ => true, fun i _ => R.flipEcode i⟩,
  ⟨0x3001020, 8, 256, 1, 0, 0, .ro, fun _ => true, fun i _ => R.flipCnt i⟩]

/-- Address rows of R429 (13_raster.md). -/
def rowsFlipP : List RegRow := [
  ⟨0x3001000, 8, 256, 3, 8, 8, .rw, fun _ => true, R.flipPLo⟩,
  ⟨0x3001004, 8, 256, 3, 8, 0, .rw, fun _ => true, R.flipPHi⟩,
  ⟨0x3001030, 8, 256, 3, 8, 8, .ro, fun _ => true, R.flipPCurLo⟩,
  ⟨0x3001034, 8, 256, 3, 8, 0, .ro, fun _ => true, R.flipPCurHi⟩]

/-- Address rows of R429 (13_raster.md). -/
def rowsRh : List RegRow := [
  ⟨0x3100000, 8, 256, 1, 0, 31, .ro, fun _ => true, fun i _ => R.rhEn i⟩,
  ⟨0x3100000, 8, 256, 1, 0, 29, .ro, fun _ => true, fun i _ => R.rhSink i⟩,
  ⟨0x3100000, 8, 256, 1, 0, 27, .ro, fun v => decide (v ≤ 2), fun i _ => R.rhFmt i⟩,
  ⟨0x3100000, 8, 256, 1, 0, 25, .ro, fun v => decide (v ≤ 2), fun i _ => R.rhDepth i⟩,
  ⟨0x3100000, 8, 256, 1, 0, 23, .ro, fun _ => true, fun i _ => R.rhObpc i⟩,
  ⟨0x3100000, 8, 256, 1, 0, 22, .ro, fun _ => true, fun i _ => R.rhUps i⟩,
  ⟨0x3100000, 8, 256, 1, 0, 21, .ro, fun _ => true, fun i _ => R.rhWitEn i⟩,
  ⟨0x3100000, 8, 256, 1, 0, 19, .ro, fun v => decide (v ≤ 2), fun i _ => R.rhWitAct i⟩,
  ⟨0x3100000, 8, 256, 1, 0, 18, .ro, fun _ => true, fun i _ => R.rhSafeAct i⟩,
  ⟨0x3100000, 8, 256, 1, 0, 16, .ro, fun _ => true, fun i _ => R.rhNseg i⟩,
  ⟨0x3100000, 8, 256, 1, 0, 0, .ro, fun _ => true, fun i _ => R.rhTunnel i⟩,
  ⟨0x3100004, 8, 256, 1, 0, 16, .ro, fun _ => true, fun i _ => R.rhHact i⟩,
  ⟨0x3100004, 8, 256, 1, 0, 0, .ro, fun _ => true, fun i _ => R.rhHtotal i⟩,
  ⟨0x3100008, 8, 256, 1, 0, 16, .ro, fun _ => true, fun i _ => R.rhHfp i⟩,
  ⟨0x3100008, 8, 256, 1, 0, 0, .ro, fun _ => true, fun i _ => R.rhHsync i⟩,
  ⟨0x310000c, 8, 256, 1, 0, 16, .ro, fun _ => true, fun i _ => R.rhVact i⟩,
  ⟨0x310000c, 8, 256, 1, 0, 0, .ro, fun _ => true, fun i _ => R.rhVtotal i⟩,
  ⟨0x3100010, 8, 256, 1, 0, 16, .ro, fun _ => true, fun i _ => R.rhVfp i⟩,
  ⟨0x3100010, 8, 256, 1, 0, 0, .ro, fun _ => true, fun i _ => R.rhVsync i⟩,
  ⟨0x3100014, 8, 256, 1, 0, 31, .ro, fun _ => true, fun i _ => R.rhHpol i⟩,
  ⟨0x3100014, 8, 256, 1, 0, 30, .ro, fun _ => true, fun i _ => R.rhVpol i⟩,
  ⟨0x3100014, 8, 256, 1, 0, 0, .ro, fun _ => true, fun i _ => R.rhPclkKhz i⟩,
  ⟨0x3100018, 8, 256, 1, 0, 16, .ro, fun _ => true, fun i _ => R.rhStrideP0 i⟩,
  ⟨0x3100018, 8, 256, 1, 0, 0, .ro, fun _ => true, fun i _ => R.rhStrideP1 i⟩,
  ⟨0x310001c, 8, 256, 1, 0, 0, .ro, fun _ => true, fun i _ => R.rhStrideP2 i⟩,
  ⟨0x3100020, 8, 256, 1, 0, 16, .ro, fun _ => true, fun i _ => R.rhC00 i⟩,
  ⟨0x3100020, 8, 256, 1, 0, 0, .ro, fun _ => true, fun i _ => R.rhC01 i⟩,
  ⟨0x3100024, 8, 256, 1, 0, 16, .ro, fun _ => true, fun i _ => R.rhC02 i⟩,
  ⟨0x3100024, 8, 256, 1, 0, 0, .ro, fun _ => true, fun i _ => R.rhC10 i⟩,
  ⟨0x3100028, 8, 256, 1, 0, 16, .ro, fun _ => true, fun i _ => R.rhC11 i⟩,
  ⟨0x3100028, 8, 256, 1, 0, 0, .ro, fun _ => true, fun i _ => R.rhC12 i⟩,
  ⟨0x310002c, 8, 256, 1, 0, 16, .ro, fun _ => true, fun i _ => R.rhC20 i⟩,
  ⟨0x310002c, 8, 256, 1, 0, 0, .ro, fun _ => true, fun i _ => R.rhC21 i⟩,
  ⟨0x3100030, 8, 256, 1, 0, 16, .ro, fun _ => true, fun i _ => R.rhC22 i⟩,
  ⟨0x3100034, 8, 256, 1, 0, 16, .ro, fun _ => true, fun i _ => R.rhOffY i⟩,
  ⟨0x3100034, 8, 256, 1, 0, 0, .ro, fun _ => true, fun i _ => R.rhOffCb i⟩,
  ⟨0x3100038, 8, 256, 1, 0, 16, .ro, fun _ => true, fun i _ => R.rhOffCr i⟩,
  ⟨0x310003c, 8, 256, 1, 0, 16, .ro, fun _ => true, fun i _ => R.rhFillR i⟩,
  ⟨0x310003c, 8, 256, 1, 0, 8, .ro, fun _ => true, fun i _ => R.rhFillG i⟩,
  ⟨0x310003c, 8, 256, 1, 0, 0, .ro, fun _ => true, fun i _ => R.rhFillB i⟩,
  ⟨0x3100040, 8, 256, 1, 0, 0, .ro, fun _ => true, fun i _ => R.rhWmask i⟩,
  ⟨0x3100044, 8, 256, 1, 0, 29, .ro, fun _ => true, fun i _ => R.rhState i⟩,
  ⟨0x3100044, 8, 256, 1, 0, 28, .ro, fun _ => true, fun i _ => R.rhVblank i⟩,
  ⟨0x3100044, 8, 256, 1, 0, 15, .ro, fun _ => true, fun i _ => R.rhLine i⟩,
  ⟨0x3100048, 8, 256, 1, 0, 0, .ro, fun _ => true, fun i _ => R.rhLtol i⟩,
  ⟨0x310004c, 8, 256, 1, 0, 16, .rc, fun _ => true, fun i _ => R.rhLtolMin i⟩,
  ⟨0x310004c, 8, 256, 1, 0, 0, .ro, fun _ => true, fun i _ => R.rhFetchKib i⟩,
  ⟨0x3100050, 8, 256, 1, 0, 16, .rc, fun _ => true, fun i _ => R.rhUnderrun i⟩,
  ⟨0x3100050, 8, 256, 1, 0, 0, .rc, fun _ => true, fun i _ => R.rhTunDrop i⟩]

/-- Address rows of R429 (13_raster.md). -/
def rowsWit : List RegRow := [
  ⟨0x3110000, 8, 64, 1, 0, 16, .rc, fun _ => true, fun i _ => R.witBandsOk i⟩,
  ⟨0x3110000, 8, 64, 1, 0, 0, .rc, fun _ => true, fun i _ => R.witBandsBad i⟩,
  ⟨0x3110004, 8, 64, 1, 0, 26, .ro, fun _ => true, fun i _ => R.witBand i⟩,
  ⟨0x3110004, 8, 64, 1, 0, 25, .ro, fun _ => true, fun i _ => R.witReact i⟩,
  ⟨0x3110008, 8, 64, 1, 0, 0, .ro, fun _ => true, fun i _ => R.witRefCrc i⟩,
  ⟨0x311000c, 8, 64, 1, 0, 0, .ro, fun _ => true, fun i _ => R.witWitCrc i⟩]

/-- Address rows of R429 (13_raster.md). -/
def rowsDp : List RegRow := [
  ⟨0x3120000, 2, 64, 1, 0, 31, .ro, fun _ => true, fun i _ => R.dpEn i⟩,
  ⟨0x3120000, 2, 64, 1, 0, 28, .ro, fun _ => true, fun i _ => R.dpSrc i⟩,
  ⟨0x3120000, 2, 64, 1, 0, 26, .ro, fun v => decide (v ≤ 2), fun i _ => R.dpLanes i⟩,
  ⟨0x3120000, 2, 64, 1, 0, 24, .ro, fun _ => true, fun i _ => R.dpRate i⟩,
  ⟨0x3120000, 2, 64, 1, 0, 23, .ro, fun _ => true, fun i _ => R.dpSsc i⟩,
  ⟨0x3120000, 2, 64, 1, 0, 22, .ro, fun _ => true, fun i _ => R.dpTrimEn i⟩,
  ⟨0x3120000, 2, 64, 1, 0, 18, .ro, fun v => decide (1 ≤ v ∧ v ≤ 15), fun i _ => R.dpTrimMax i⟩,
  ⟨0x3120004, 2, 64, 1, 0, 29, .ro, fun _ => true, fun i _ => R.dpLstate i⟩,
  ⟨0x3120004, 2, 64, 1, 0, 28, .ro, fun _ => true, fun i _ => R.dpHpd i⟩,
  ⟨0x3120004, 2, 64, 1, 0, 24, .ro, fun _ => true, fun i _ => R.dpTrimStop i⟩,
  ⟨0x3120008, 2, 64, 1, 0, 15, .ro, fun _ => true, fun i _ => R.dpTrim3 i⟩,
  ⟨0x3120008, 2, 64, 1, 0, 10, .ro, fun _ => true, fun i _ => R.dpTrim2 i⟩,
  ⟨0x3120008, 2, 64, 1, 0, 5, .ro, fun _ => true, fun i _ => R.dpTrim1 i⟩,
  ⟨0x3120008, 2, 64, 1, 0, 0, .ro, fun _ => true, fun i _ => R.dpTrim0 i⟩,
  ⟨0x312000c, 2, 64, 1, 0, 16, .rc, fun _ => true, fun i _ => R.dpRetrain i⟩,
  ⟨0x312000c, 2, 64, 1, 0, 0, .rc, fun _ => true, fun i _ => R.dpIrqHpd i⟩]

/-- Address rows of R460 (14_memory_dma.md). -/
def rowsLp5 : List RegRow := [
  ⟨0x3200000, 1, 0, 1, 0, 29, .ro, fun _ => true, fun _ _ => R.lp5Rate⟩,
  ⟨0x3200000, 1, 0, 1, 0, 28, .ro, fun _ => true, fun _ _ => R.lp5Rank2⟩,
  ⟨0x3200000, 1, 0, 1, 0, 24, .ro, fun _ => true, fun _ _ => R.lp5Dens⟩,
  ⟨0x3200000, 1, 0, 1, 0, 23, .ro, fun _ => true, fun _ _ => R.lp5Lecc⟩,
  ⟨0x3200000, 1, 0, 1, 0, 0, .ro, fun _ => true, fun _ _ => R.lp5CapMib⟩,
  ⟨0x3200004, 1, 0, 1, 0, 29, .ro, fun _ => true, fun _ _ => R.lp5Lpstate⟩,
  ⟨0x3200004, 1, 0, 1, 0, 16, .ro, fun _ => true, fun _ _ => R.lp5Exit⟩,
  ⟨0x3200004, 1, 0, 1, 0, 0, .ro, fun _ => true, fun _ _ => R.lp5Mintol⟩,
  ⟨0x3200008, 1, 0, 1, 0, 16, .rc, fun _ => true, fun _ _ => R.lp5SrEnt⟩,
  ⟨0x3200008, 1, 0, 1, 0, 0, .rc, fun _ => true, fun _ _ => R.lp5PdEnt⟩,
  ⟨0x320000c, 1, 0, 1, 0, 16, .rc, fun _ => true, fun _ _ => R.lp5Refused⟩,
  ⟨0x320000c, 1, 0, 1, 0, 0, .rc, fun _ => true, fun _ _ => R.lp5UrgGrant⟩,
  ⟨0x3200010, 1, 0, 1, 0, 16, .rc, fun _ => true, fun _ _ => R.lp5EccUe⟩,
  ⟨0x3200010, 1, 0, 1, 0, 0, .rc, fun _ => true, fun _ _ => R.lp5EccCe⟩]

/-- Address rows of R460 (14_memory_dma.md). -/
def rowsWin : List RegRow := [
  ⟨0x3200100, 16, 8, 1, 0, 31, .ro, fun _ => true, fun i _ => R.winEn i⟩,
  ⟨0x3200100, 16, 8, 1, 0, 0, .ro, fun _ => true, fun i _ => R.winBase i⟩,
  ⟨0x3200104, 16, 8, 1, 0, 0, .ro, fun _ => true, fun i _ => R.winSize i⟩]

/-- Address rows of R460 (14_memory_dma.md). -/
def rowsDmaDb : List RegRow := [
  ⟨0x3002000, 64, 16, 1, 0, 1, .wo, fun _ => true, fun i _ => R.dmaDbStop i⟩,
  ⟨0x3002000, 64, 16, 1, 0, 0, .wo, fun _ => true, fun i _ => R.dmaDbStart i⟩]

/-- Address rows of R460 (14_memory_dma.md). -/
def rowsDma : List RegRow := [
  ⟨0x3300000, 64, 64, 1, 0, 19, .ro, fun _ => true, fun i _ => R.dmaPlen i⟩,
  ⟨0x3300000, 64, 64, 1, 0, 7, .ro, fun _ => true, fun i _ => R.dmaPstart i⟩,
  ⟨0x3300000, 64, 64, 1, 0, 4, .ro, fun _ => true, fun i _ => R.dmaBurst i⟩,
  ⟨0x3300000, 64, 64, 1, 0, 3, .ro, fun _ => true, fun i _ => R.dmaPrio i⟩,
  ⟨0x3300000, 64, 64, 1, 0, 2, .ro, fun _ => true, fun i _ => R.dmaNoteEnd i⟩,
  ⟨0x3300004, 64, 64, 1, 0, 28, .ro, fun _ => true, fun i _ => R.dmaState i⟩,
  ⟨0x3300004, 64, 64, 1, 0, 24, .ro, fun _ => true, fun i _ => R.dmaLoader i⟩,
  ⟨0x3300004, 64, 64, 1, 0, 20, .ro, fun _ => true, fun i _ => R.dmaEcode i⟩,
  ⟨0x3300004, 64, 64, 1, 0, 8, .ro, fun _ => true, fun i _ => R.dmaPc i⟩,
  ⟨0x3300004, 64, 64, 1, 0, 0, .ro, fun _ => true, fun i _ => R.dmaDepth i⟩,
  ⟨0x3300008, 64, 64, 1, 0, 0, .ro, fun _ => true, fun i _ => R.dmaSptrLo i⟩,
  ⟨0x330000c, 64, 64, 1, 0, 0, .ro, fun _ => true, fun i _ => R.dmaDptrLo i⟩,
  ⟨0x3300010, 64, 64, 1, 0, 8, .ro, fun _ => true, fun i _ => R.dmaDptrHi i⟩,
  ⟨0x3300010, 64, 64, 1, 0, 0, .ro, fun _ => true, fun i _ => R.dmaSptrHi i⟩,
  ⟨0x3300014, 64, 64, 1, 0, 0, .ro, fun _ => true, fun i _ => R.dmaLoop0 i⟩,
  ⟨0x3300018, 64, 64, 1, 0, 0, .ro, fun _ => true, fun i _ => R.dmaLoop1 i⟩,
  ⟨0x330001c, 64, 64, 1, 0, 0, .ro, fun _ => true, fun i _ => R.dmaLoop2 i⟩,
  ⟨0x3300020, 64, 64, 1, 0, 0, .ro, fun _ => true, fun i _ => R.dmaLoop3 i⟩,
  ⟨0x3300024, 64, 64, 1, 0, 0, .rc, fun _ => true, fun i _ => R.dmaXferKib i⟩]

/-- Address rows of R460 (14_memory_dma.md). -/
def rowsDmaReq : List RegRow := [
  ⟨0x3301000, 16, 4, 1, 0, 0, .ro, fun _ => true, fun i _ => R.dmaReqPend0 i⟩,
  ⟨0x3301000, 16, 4, 1, 0, 4, .ro, fun _ => true, fun i _ => R.dmaReqPend1 i⟩,
  ⟨0x3301000, 16, 4, 1, 0, 8, .ro, fun _ => true, fun i _ => R.dmaReqPend2 i⟩,
  ⟨0x3301000, 16, 4, 1, 0, 12, .ro, fun _ => true, fun i _ => R.dmaReqPend3 i⟩,
  ⟨0x3301000, 16, 4, 1, 0, 16, .ro, fun _ => true, fun i _ => R.dmaReqPend4 i⟩,
  ⟨0x3301000, 16, 4, 1, 0, 20, .ro, fun _ => true, fun i _ => R.dmaReqPend5 i⟩,
  ⟨0x3301000, 16, 4, 1, 0, 24, .ro, fun _ => true, fun i _ => R.dmaReqPend6 i⟩,
  ⟨0x3301000, 16, 4, 1, 0, 28, .ro, fun _ => true, fun i _ => R.dmaReqPend7 i⟩]

/-- Address rows of R460 (14_memory_dma.md). -/
def rowsDmaSem : List RegRow := [
  ⟨0x3301040, 16, 4, 1, 0, 0, .ro, fun _ => true, fun i _ => R.dmaSemSem0 i⟩,
  ⟨0x3301040, 16, 4, 1, 0, 8, .ro, fun _ => true, fun i _ => R.dmaSemSem1 i⟩,
  ⟨0x3301040, 16, 4, 1, 0, 16, .ro, fun _ => true, fun i _ => R.dmaSemSem2 i⟩,
  ⟨0x3301040, 16, 4, 1, 0, 24, .ro, fun _ => true, fun i _ => R.dmaSemSem3 i⟩]

/-- Address rows of R460 (14_memory_dma.md). -/
def rowsDmaCnt : List RegRow := [
  ⟨0x3301080, 1, 0, 1, 0, 16, .rc, fun _ => true, fun _ _ => R.dmaCntReqOvf⟩,
  ⟨0x3301080, 1, 0, 1, 0, 0, .rc, fun _ => true, fun _ _ => R.dmaCntNoteLost⟩,
  ⟨0x3301084, 1, 0, 1, 0, 16, .rc, fun _ => true, fun _ _ => R.dmaCntDbRefuse⟩,
  ⟨0x3301084, 1, 0, 1, 0, 0, .ro, fun _ => true, fun _ _ => R.dmaCntStoreFree⟩]

/-- Address rows of R488 (15_usb.md). -/
def rowsUsb : List RegRow := [
  ⟨0x7040000, 1, 0, 1, 0, 31, .ro, fun _ => true, fun _ _ => R.usbUpConn⟩,
  ⟨0x7040000, 1, 0, 1, 0, 29, .ro, fun _ => true, fun _ _ => R.usbUpSpeed⟩,
  ⟨0x7040000, 1, 0, 1, 0, 28, .ro, fun _ => true, fun _ _ => R.usbUpCfg⟩,
  ⟨0x7040000, 1, 0, 1, 0, 27, .ro, fun _ => true, fun _ _ => R.usbUpSusp⟩,
  ⟨0x7040000, 1, 0, 1, 0, 26, .ro, fun _ => true, fun _ _ => R.usbUpRwe⟩,
  ⟨0x7040000, 1, 0, 1, 0, 19, .ro, fun _ => true, fun _ _ => R.usbUpAddr⟩,
  ⟨0x7040004, 1, 0, 1, 0, 31, .ro, fun _ => true, fun _ _ => R.usbSvcConn⟩,
  ⟨0x7040004, 1, 0, 1, 0, 30, .ro, fun _ => true, fun _ _ => R.usbSvcSpeed⟩,
  ⟨0x7040004, 1, 0, 1, 0, 29, .ro, fun _ => true, fun _ _ => R.usbSvcCfg⟩,
  ⟨0x7040004, 1, 0, 1, 0, 28, .ro, fun _ => true, fun _ _ => R.usbSvcSusp⟩,
  ⟨0x7040004, 1, 0, 1, 0, 21, .ro, fun _ => true, fun _ _ => R.usbSvcAddr⟩,
  ⟨0x7040004, 1, 0, 1, 0, 14, .ro, fun _ => true, fun _ _ => R.usbSvcHoldn⟩,
  ⟨0x7040008, 1, 0, 1, 0, 0, .ro, fun _ => true, fun _ _ => R.usbMinLeft⟩,
  ⟨0x7040100, 1, 0, 1, 0, 16, .rc, fun _ => true, fun _ _ => R.usbIsoRepeat⟩,
  ⟨0x7040100, 1, 0, 1, 0, 0, .rc, fun _ => true, fun _ _ => R.usbCtlAbandon⟩,
  ⟨0x7040104, 1, 0, 1, 0, 16, .rc, fun _ => true, fun _ _ => R.usbBadProof⟩,
  ⟨0x7040104, 1, 0, 1, 0, 0, .rc, fun _ => true, fun _ _ => R.usbFrmDrop⟩]

/-- Address rows of R488 (15_usb.md). -/
def rowsUsbPort : List RegRow := [
  ⟨0x7040010, 16, 4, 1, 0, 31, .ro, fun _ => true, fun i _ => R.usbPortConn i⟩,
  ⟨0x7040010, 16, 4, 1, 0, 30, .ro, fun _ => true, fun i _ => R.usbPortEn i⟩,
  ⟨0x7040010, 16, 4, 1, 0, 29, .ro, fun _ => true, fun i _ => R.usbPortSusp i⟩,
  ⟨0x7040010, 16, 4, 1, 0, 28, .ro, fun _ => true, fun i _ => R.usbPortOc i⟩,
  ⟨0x7040010, 16, 4, 1, 0, 27, .ro, fun _ => true, fun i _ => R.usbPortPwr i⟩,
  ⟨0x7040010, 16, 4, 1, 0, 26, .ro, fun _ => true, fun i _ => R.usbPortVbusok i⟩,
  ⟨0x7040010, 16, 4, 1, 0, 24, .ro, fun _ => true, fun i _ => R.usbPortSpeed i⟩,
  ⟨0x7040010, 16, 4, 1, 0, 23, .w1c, fun _ => true, fun i _ => R.usbPortWakePend i⟩,
  ⟨0x7040010, 16, 4, 1, 0, 0, .rc, fun _ => true, fun i _ => R.usbPortOcCnt i⟩]

/-- Address rows of R488 (15_usb.md). -/
def rowsUsbBuf : List RegRow := [
  ⟨0x7040080, 32, 4, 1, 0, 31, .ro, fun _ => true, fun i _ => R.usbBufEn i⟩,
  ⟨0x7040080, 32, 4, 1, 0, 30, .ro, fun _ => true, fun i _ => R.usbBufDev i⟩,
  ⟨0x7040080, 32, 4, 1, 0, 27, .ro, fun _ => true, fun i _ => R.usbBufEpnum i⟩,
  ⟨0x7040080, 32, 4, 1, 0, 26, .ro, fun _ => true, fun i _ => R.usbBufDir i⟩,
  ⟨0x7040080, 32, 4, 1, 0, 25, .ro, fun _ => true, fun i _ => R.usbBufFeed i⟩,
  ⟨0x7040080, 32, 4, 1, 0, 11, .ro, fun _ => true, fun i _ => R.usbBufOffset i⟩,
  ⟨0x7040080, 32, 4, 1, 0, 0, .ro, fun _ => true, fun i _ => R.usbBufSize i⟩]

/-- Address rows of R514 (16_cable_negotiation.md). -/
def rowsCc : List RegRow := [
  ⟨0x4030000, 16, 64, 1, 0, 30, .ro, fun v => decide (v ≤ 2), fun i _ => R.ccRplvlSet i⟩,
  ⟨0x4030000, 16, 64, 1, 0, 29, .ro, fun _ => true, fun i _ => R.ccFrsArm i⟩,
  ⟨0x4030000, 16, 64, 1, 0, 28, .ro, fun _ => true, fun i _ => R.ccEpr i⟩,
  ⟨0x4030000, 16, 64, 1, 0, 27, .ro, fun _ => true, fun i _ => R.ccDrole i⟩,
  ⟨0x4030000, 16, 64, 1, 0, 22, .ro, fun v => decide (10 ≤ v ∧ v ≤ 30), fun i _ => R.ccVconnIlim i⟩,
  ⟨0x4030000, 16, 64, 1, 0, 18, .ro, fun _ => true, fun i _ => R.ccPolicy i⟩,
  ⟨0x4030004, 16, 64, 1, 0, 28, .ro, fun _ => true, fun i _ => R.ccAstate i⟩,
  ⟨0x4030004, 16, 64, 1, 0, 27, .ro, fun _ => true, fun i _ => R.ccProle i⟩,
  ⟨0x4030004, 16, 64, 1, 0, 26, .ro, fun _ => true, fun i _ => R.ccVconnOn i⟩,
  ⟨0x4030004, 16, 64, 1, 0, 25, .ro, fun _ => true, fun i _ => R.ccOrient i⟩,
  ⟨0x4030004, 16, 64, 1, 0, 24, .ro, fun _ => true, fun i _ => R.ccRa i⟩,
  ⟨0x4030004, 16, 64, 1, 0, 22, .ro, fun _ => true, fun i _ => R.ccAcc i⟩,
  ⟨0x4030004, 16, 64, 1, 0, 20, .ro, fun _ => true, fun i _ => R.ccRplvl i⟩,
  ⟨0x4030004, 16, 64, 1, 0, 19, .ro, fun _ => true, fun i _ => R.ccTrans i⟩,
  ⟨0x4030004, 16, 64, 1, 0, 18, .ro, fun _ => true, fun i _ => R.ccSwap i⟩,
  ⟨0x4030004, 16, 64, 1, 0, 17, .ro, fun _ => true, fun i _ => R.ccHrst i⟩,
  ⟨0x4030004, 16, 64, 1, 0, 13, .ro, fun _ => true, fun i _ => R.ccRxn i⟩,
  ⟨0x4030008, 16, 64, 1, 0, 24, .ro, fun _ => true, fun i _ => R.ccCcdb i⟩,
  ⟨0x4030008, 16, 64, 1, 0, 19, .ro, fun _ => true, fun i _ => R.ccPddb i⟩,
  ⟨0x4030008, 16, 64, 1, 0, 13, .ro, fun _ => true, fun i _ => R.ccPshr i⟩,
  ⟨0x4030008, 16, 64, 1, 0, 3, .ro, fun _ => true, fun i _ => R.ccSrcrec i⟩,
  ⟨0x4030010, 16, 64, 1, 0, 0, .w1c, fun _ => true, fun i _ => R.ccCause i⟩,
  ⟨0x4030014, 16, 64, 1, 0, 16, .rc, fun _ => true, fun i _ => R.ccRxMsg i⟩,
  ⟨0x4030014, 16, 64, 1, 0, 0, .rc, fun _ => true, fun i _ => R.ccTxMsg i⟩,
  ⟨0x4030018, 16, 64, 1, 0, 16, .rc, fun _ => true, fun i _ => R.ccTxFail i⟩,
  ⟨0x4030018, 16, 64, 1, 0, 0, .rc, fun _ => true, fun i _ => R.ccRetry i⟩,
  ⟨0x403001c, 16, 64, 1, 0, 16, .rc, fun _ => true, fun i _ => R.ccDup i⟩,
  ⟨0x403001c, 16, 64, 1, 0, 0, .rc, fun _ => true, fun i _ => R.ccRxDrop i⟩,
  ⟨0x4030020, 16, 64, 1, 0, 16, .rc, fun _ => true, fun i _ => R.ccRecLost i⟩,
  ⟨0x4030020, 16, 64, 1, 0, 0, .rc, fun _ => true, fun i _ => R.ccBadCrc i⟩]

/-- Address rows of R540 (17_hot_swap.md). -/
def rowsStg : List RegRow := [
  ⟨0x4020000, 16, 128, 1, 0, 31, .ro, fun _ => true, fun i _ => R.stgEn i⟩,
  ⟨0x4020000, 16, 128, 1, 0, 29, .ro, fun _ => true, fun i _ => R.stgStartm i⟩,
  ⟨0x4020000, 16, 128, 1, 0, 26, .ro, fun _ => true, fun i _ => R.stgPrio i⟩,
  ⟨0x4020000, 16, 128, 1, 0, 25, .ro, fun _ => true, fun i _ => R.stgSafeOff i⟩,
  ⟨0x4020000, 16, 128, 1, 0, 24, .ro, fun _ => true, fun i _ => R.stgKeepBanked i⟩,
  ⟨0x4020000, 16, 128, 1, 0, 23, .ro, fun _ => true, fun i _ => R.stgOcEn i⟩,
  ⟨0x4020000, 16, 128, 1, 0, 15, .ro, fun v => decide (1 ≤ v ∧ v ≤ 255), fun i _ => R.stgPgDg i⟩,
  ⟨0x4020000, 16, 128, 1, 0, 11, .ro, fun _ => true, fun i _ => R.stgRetryMax i⟩,
  ⟨0x4020000, 16, 128, 1, 0, 3, .ro, fun v => decide (1 ≤ v ∧ v ≤ 255), fun i _ => R.stgRetryT i⟩,
  ⟨0x4020004, 16, 128, 1, 0, 24, .ro, fun v => decide (1 ≤ v ∧ v ≤ 255), fun i _ => R.stgForget i⟩,
  ⟨0x4020004, 16, 128, 1, 0, 16, .ro, fun v => decide (1 ≤ v ∧ v ≤ 255), fun i _ => R.stgSeatDb i⟩,
  ⟨0x4020004, 16, 128, 1, 0, 8, .ro, fun v => decide (1 ≤ v ∧ v ≤ 255), fun i _ => R.stgInsDly i⟩,
  ⟨0x4020008, 16, 128, 1, 0, 20, .ro, fun _ => true, fun i _ => R.stgIInr i⟩,
  ⟨0x4020008, 16, 128, 1, 0, 8, .ro, fun _ => true, fun i _ => R.stgPInr i⟩,
  ⟨0x4020008, 16, 128, 1, 0, 0, .ro, fun v => decide (1 ≤ v ∧ v ≤ 255), fun i _ => R.stgTInr i⟩,
  ⟨0x402000c, 16, 128, 1, 0, 16, .ro, fun _ => true, fun i _ => R.stgKv i⟩,
  ⟨0x402000c, 16, 128, 1, 0, 0, .ro, fun _ => true, fun i _ => R.stgKi i⟩,
  ⟨0x4020010, 16, 128, 1, 0, 22, .ro, fun _ => true, fun i _ => R.stgUvw i⟩,
  ⟨0x4020010, 16, 128, 1, 0, 12, .ro, fun _ => true, fun i _ => R.stgOvw i⟩,
  ⟨0x4020014, 16, 128, 1, 0, 0, .ro, fun v => decide (150 ≤ v ∧ v ≤ 2400), fun i _ => R.stgVset i⟩,
  ⟨0x4020018, 16, 128, 1, 0, 29, .ro, fun _ => true, fun i _ => R.stgSstate i⟩,
  ⟨0x4020018, 16, 128, 1, 0, 28, .ro, fun _ => true, fun i _ => R.stgPg i⟩,
  ⟨0x4020018, 16, 128, 1, 0, 27, .ro, fun _ => true, fun i _ => R.stgGateEn i⟩,
  ⟨0x4020018, 16, 128, 1, 0, 26, .ro, fun _ => true, fun i _ => R.stgGateOk i⟩,
  ⟨0x4020018, 16, 128, 1, 0, 25, .ro, fun _ => true, fun i _ => R.stgSeated i⟩,
  ⟨0x4020018, 16, 128, 1, 0, 24, .ro, fun _ => true, fun i _ => R.stgPres i⟩,
  ⟨0x4020018, 16, 128, 1, 0, 20, .ro, fun _ => true, fun i _ => R.stgTries i⟩,
  ⟨0x402001c, 16, 128, 1, 0, 0, .w1c, fun _ => true, fun i _ => R.stgCause i⟩,
  ⟨0x4020020, 16, 128, 1, 0, 16, .rc, fun _ => true, fun i _ => R.stgStarts i⟩,
  ⟨0x4020020, 16, 128, 1, 0, 0, .rc, fun _ => true, fun i _ => R.stgTrips i⟩,
  ⟨0x4020060, 16, 128, 1, 0, 20, .ro, fun _ => true, fun i _ => R.stgItrip i⟩]

/-- Address rows of R540 (17_hot_swap.md). -/
def rowsStgCurve : List RegRow := [
  ⟨0x4020040, 16, 128, 8, 4, 20, .ro, fun _ => true, R.stgCurveIlvl⟩,
  ⟨0x4020040, 16, 128, 8, 4, 0, .ro, fun _ => true, R.stgCurveTlim⟩]

/-- Address rows of R540 (17_hot_swap.md). -/
def rowsFeed : List RegRow := [
  ⟨0x4010000, 2, 128, 1, 0, 22, .ro, fun _ => true, fun i _ => R.feedUv i⟩,
  ⟨0x4010000, 2, 128, 1, 0, 12, .ro, fun _ => true, fun i _ => R.feedOv i⟩,
  ⟨0x4010000, 2, 128, 1, 0, 4, .ro, fun v => decide (1 ≤ v ∧ v ≤ 255), fun i _ => R.feedQual i⟩,
  ⟨0x4010000, 2, 128, 1, 0, 3, .ro, fun _ => true, fun i _ => R.feedEn i⟩,
  ⟨0x4010000, 2, 128, 1, 0, 2, .ro, fun _ => true, fun i _ => R.feedOcEn i⟩,
  ⟨0x4010004, 2, 128, 1, 0, 22, .ro, fun _ => true, fun i _ => R.feedWarn i⟩,
  ⟨0x4010004, 2, 128, 1, 0, 16, .ro, fun _ => true, fun i _ => R.feedWhys i⟩,
  ⟨0x4010004, 2, 128, 1, 0, 8, .ro, fun _ => true, fun i _ => R.feedHorizon i⟩,
  ⟨0x4010008, 2, 128, 1, 0, 20, .ro, fun _ => true, fun i _ => R.feedIInr i⟩,
  ⟨0x4010008, 2, 128, 1, 0, 8, .ro, fun _ => true, fun i _ => R.feedPInr i⟩,
  ⟨0x4010008, 2, 128, 1, 0, 0, .ro, fun v => decide (1 ≤ v ∧ v ≤ 255), fun i _ => R.feedTInr i⟩,
  ⟨0x401000c, 2, 128, 1, 0, 16, .ro, fun _ => true, fun i _ => R.feedKv i⟩,
  ⟨0x401000c, 2, 128, 1, 0, 0, .ro, fun _ => true, fun i _ => R.feedKi i⟩,
  ⟨0x4010010, 2, 128, 1, 0, 20, .ro, fun _ => true, fun i _ => R.feedItrip i⟩,
  ⟨0x4010018, 2, 128, 1, 0, 31, .ro, fun _ => true, fun i _ => R.feedHealthy i⟩,
  ⟨0x4010018, 2, 128, 1, 0, 30, .ro, fun _ => true, fun i _ => R.feedBarred i⟩,
  ⟨0x4010018, 2, 128, 1, 0, 29, .ro, fun _ => true, fun i _ => R.feedGateEn i⟩,
  ⟨0x4010018, 2, 128, 1, 0, 28, .ro, fun _ => true, fun i _ => R.feedGateOk i⟩,
  ⟨0x4010018, 2, 128, 1, 0, 0, .w1c, fun _ => true, fun i _ => R.feedCause i⟩]

/-- Address rows of R540 (17_hot_swap.md). -/
def rowsFeedCurve : List RegRow := [
  ⟨0x4010040, 2, 128, 8, 4, 20, .ro, fun _ => true, R.feedCurveIlvl⟩,
  ⟨0x4010040, 2, 128, 8, 4, 0, .ro, fun _ => true, R.feedCurveTlim⟩]

/-- Address rows of R540 (17_hot_swap.md). -/
def rowsPwr : List RegRow := [
  ⟨0x4010100, 1, 0, 1, 0, 31, .ro, fun _ => true, fun _ _ => R.pwrPrimary⟩,
  ⟨0x4010100, 1, 0, 1, 0, 24, .ro, fun v => decide (1 ≤ v ∧ v ≤ 100), fun _ _ => R.pwrDead⟩,
  ⟨0x4010100, 1, 0, 1, 0, 8, .ro, fun v => decide (1 ≤ v ∧ v ≤ 65535), fun _ _ => R.pwrRevert⟩,
  ⟨0x4010100, 1, 0, 1, 0, 7, .ro, fun _ => true, fun _ _ => R.pwrFwAlt⟩,
  ⟨0x4010100, 1, 0, 1, 0, 4, .ro, fun _ => true, fun _ _ => R.pwrSel⟩,
  ⟨0x4010104, 1, 0, 1, 0, 16, .ro, fun _ => true, fun _ _ => R.pwrBusKv⟩,
  ⟨0x4000100, 1, 0, 1, 0, 27, .ro, fun v => decide (1 ≤ v ∧ v ≤ 16), fun _ _ => R.pwrNmax⟩,
  ⟨0x4000100, 1, 0, 1, 0, 12, .ro, fun v => decide (1 ≤ v ∧ v ≤ 32767), fun _ _ => R.pwrPmax⟩,
  ⟨0x4000104, 1, 0, 1, 0, 27, .ro, fun _ => true, fun _ _ => R.pwrNinr⟩,
  ⟨0x4000104, 1, 0, 1, 0, 12, .ro, fun _ => true, fun _ _ => R.pwrPinr⟩,
  ⟨0x4000104, 1, 0, 1, 0, 7, .ro, fun _ => true, fun _ _ => R.pwrNwait⟩]

/-- Address rows of R559 (18_faults.md). -/
def rowsSrc : List RegRow := [
  ⟨0x7001000, 256, 8, 1, 0, 30, .ro, fun _ => true, fun i _ => R.srcSev i⟩,
  ⟨0x7001000, 256, 8, 1, 0, 29, .ro, fun _ => true, fun i _ => R.srcFnEn i⟩,
  ⟨0x7001000, 256, 8, 1, 0, 28, .ro, fun _ => true, fun i _ => R.srcForce i⟩,
  ⟨0x7001000, 256, 8, 1, 0, 24, .ro, fun v => decide (1 ≤ v ∧ v ≤ 15), fun i _ => R.srcLimit i⟩,
  ⟨0x7001000, 256, 8, 1, 0, 0, .ro, fun v => decide (v ≤ 10000), fun i _ => R.srcQper i⟩,
  ⟨0x7001004, 256, 8, 1, 0, 31, .ro, fun _ => true, fun i _ => R.srcActive i⟩,
  ⟨0x7001004, 256, 8, 1, 0, 30, .ro, fun _ => true, fun i _ => R.srcSticky i⟩,
  ⟨0x7001004, 256, 8, 1, 0, 28, .ro, fun _ => true, fun i _ => R.srcRsev i⟩,
  ⟨0x7001004, 256, 8, 1, 0, 24, .ro, fun _ => true, fun i _ => R.srcRcnt i⟩,
  ⟨0x7001004, 256, 8, 1, 0, 16, .ro, fun _ => true, fun i _ => R.srcOcc i⟩,
  ⟨0x7001004, 256, 8, 1, 0, 0, .ro, fun _ => true, fun i _ => R.srcDetail i⟩]

/-- Address rows of R559 (18_faults.md). -/
def rowsFcol : List RegRow := [
  ⟨0x7000048, 1, 0, 1, 0, 30, .ro, fun v => decide (v ≤ 2), fun _ _ => R.fcolMode⟩,
  ⟨0x7000048, 1, 0, 1, 0, 29, .ro, fun _ => true, fun _ _ => R.fcolLow⟩,
  ⟨0x7000048, 1, 0, 1, 0, 0, .ro, fun v => decide (1 ≤ v ∧ v ≤ 1000), fun _ _ => R.fcolPw⟩,
  ⟨0x700004c, 1, 0, 1, 0, 20, .rc, fun _ => true, fun _ _ => R.fcolOvfCnt⟩,
  ⟨0x700004c, 1, 0, 1, 0, 8, .ro, fun _ => true, fun _ _ => R.fcolCount⟩,
  ⟨0x700004c, 1, 0, 1, 0, 0, .ro, fun _ => true, fun _ _ => R.fcolNext⟩]

/-- Address rows of R559 (18_faults.md). -/
def rowsRefuse : List RegRow := [
  ⟨0x7000060, 8, 4, 1, 0, 16, .rc, fun _ => true, fun i _ => R.refuseOdd i⟩,
  ⟨0x7000060, 8, 4, 1, 0, 0, .rc, fun _ => true, fun i _ => R.refuseEven i⟩]

/-- Address rows of R580 (19_keys_gates.md). -/
def rowsSec : List RegRow := [
  ⟨0x6000100, 1, 0, 1, 0, 31, .ro, fun _ => true, fun _ _ => R.secOwned⟩,
  ⟨0x6000100, 1, 0, 1, 0, 27, .ro, fun _ => true, fun _ _ => R.secOwner⟩,
  ⟨0x6000100, 1, 0, 1, 0, 23, .ro, fun _ => true, fun _ _ => R.secDeputy⟩,
  ⟨0x6000100, 1, 0, 1, 0, 22, .ro, fun _ => true, fun _ _ => R.secTestroot⟩,
  ⟨0x6000100, 1, 0, 1, 0, 21, .ro, fun _ => true, fun _ _ => R.secDebug⟩,
  ⟨0x6000100, 1, 0, 1, 0, 5, .ro, fun v => decide (1 ≤ v ∧ v ≤ 65535), fun _ _ => R.secDepHold⟩,
  ⟨0x6000104, 1, 0, 1, 0, 16, .rc, fun _ => true, fun _ _ => R.secBadClaim⟩,
  ⟨0x6000104, 1, 0, 1, 0, 0, .rc, fun _ => true, fun _ _ => R.secClaims⟩]

/-- Address rows of R580 (19_keys_gates.md). -/
def rowsKey : List RegRow := [
  ⟨0x6001000, 128, 8, 1, 0, 30, .ro, fun _ => true, fun i _ => R.keyState i⟩,
  ⟨0x6001000, 128, 8, 1, 0, 28, .ro, fun _ => true, fun i _ => R.keyLevel i⟩,
  ⟨0x6001000, 128, 8, 1, 0, 25, .ro, fun _ => true, fun i _ => R.keyDomain i⟩,
  ⟨0x6001000, 128, 8, 1, 0, 18, .ro, fun _ => true, fun i _ => R.keyParent i⟩,
  ⟨0x6001000, 128, 8, 1, 0, 14, .ro, fun _ => true, fun i _ => R.keyPurpose i⟩,
  ⟨0x6001000, 128, 8, 1, 0, 9, .ro, fun _ => true, fun i _ => R.keyInst i⟩,
  ⟨0x6001000, 128, 8, 1, 0, 4, .ro, fun _ => true, fun i _ => R.keyKint i⟩,
  ⟨0x6001000, 128, 8, 1, 0, 3, .ro, fun _ => true, fun i _ => R.keyDefault i⟩,
  ⟨0x6001004, 128, 8, 1, 0, 0, .ro, fun _ => true, fun i _ => R.keyVer i⟩]

/-- Address rows of R580 (19_keys_gates.md). -/
def rowsGate : List RegRow := [
  ⟨0x6002000, 128, 4, 1, 0, 0, .ro, fun _ => true, fun i _ => R.gateWord i⟩]

/-- Address rows of R602 (20_power_reset.md). -/
def rowsPs : List RegRow := [
  ⟨0x7030000, 1, 0, 1, 0, 24, .ro, fun v => decide (1 ≤ v ∧ v ≤ 255), fun _ _ => R.psEntryMax⟩,
  ⟨0x7030004, 1, 0, 1, 0, 31, .ro, fun _ => true, fun _ _ => R.psWakenEn⟩,
  ⟨0x7030004, 1, 0, 1, 0, 30, .ro, fun _ => true, fun _ _ => R.psSmbEn⟩,
  ⟨0x7030004, 1, 0, 1, 0, 29, .ro, fun _ => true, fun _ _ => R.psFaultEn⟩,
  ⟨0x7030004, 1, 0, 1, 0, 28, .ro, fun _ => true, fun _ _ => R.psLsdEn⟩,
  ⟨0x7030004, 1, 0, 1, 0, 20, .ro, fun _ => true, fun _ _ => R.psTsdEn⟩,
  ⟨0x7030004, 1, 0, 1, 0, 4, .ro, fun _ => true, fun _ _ => R.psAttEn⟩,
  ⟨0x7030008, 1, 0, 1, 0, 29, .ro, fun _ => true, fun _ _ => R.psState⟩,
  ⟨0x7030008, 1, 0, 1, 0, 26, .ro, fun _ => true, fun _ _ => R.psStage⟩,
  ⟨0x7030008, 1, 0, 1, 0, 23, .ro, fun _ => true, fun _ _ => R.psRstcause⟩,
  ⟨0x7030008, 1, 0, 1, 0, 22, .ro, fun _ => true, fun _ _ => R.psFwrdy⟩,
  ⟨0x7030008, 1, 0, 1, 0, 21, .ro, fun _ => true, fun _ _ => R.psStfail⟩,
  ⟨0x7030008, 1, 0, 1, 0, 20, .w1c, fun _ => true, fun _ _ => R.psWakeFail⟩,
  ⟨0x7030008, 1, 0, 1, 0, 0, .ro, fun _ => true, fun _ _ => R.psStfReg⟩,
  ⟨0x703000c, 1, 0, 1, 0, 28, .rc, fun _ => true, fun _ _ => R.psWsHi⟩,
  ⟨0x703000c, 1, 0, 1, 0, 27, .rc, fun _ => true, fun _ _ => R.psWsRstn⟩,
  ⟨0x703000c, 1, 0, 1, 0, 4, .rc, fun _ => true, fun _ _ => R.psWsLo⟩,
  ⟨0x7030010, 1, 0, 1, 0, 29, .ro, fun _ => true, fun _ _ => R.psRefRegion⟩,
  ⟨0x7030010, 1, 0, 1, 0, 24, .ro, fun _ => true, fun _ _ => R.psRefCode⟩,
  ⟨0x7030010, 1, 0, 1, 0, 16, .ro, fun _ => true, fun _ _ => R.psRefInst⟩,
  ⟨0x7030010, 1, 0, 1, 0, 12, .ro, fun _ => true, fun _ _ => R.psRefAnswer⟩,
  ⟨0x7030014, 1, 0, 1, 0, 24, .rc, fun _ => true, fun _ _ => R.psBankedCnt⟩,
  ⟨0x7030014, 1, 0, 1, 0, 16, .rc, fun _ => true, fun _ _ => R.psEmberCnt⟩,
  ⟨0x7030014, 1, 0, 1, 0, 8, .rc, fun _ => true, fun _ _ => R.psRefusedCnt⟩,
  ⟨0x7030014, 1, 0, 1, 0, 0, .rc, fun _ => true, fun _ _ => R.psWakefailCnt⟩]

/-- Address rows of R604 (21_control_firmware.md). -/
def rowsMbx : List RegRow := [
  ⟨0x7010800, 8, 4096, 1, 0, 0, .wo, fun _ => true, fun i _ => R.mbxDbSeq i⟩,
  ⟨0x7010804, 8, 4096, 1, 0, 0, .ro, fun _ => true, fun i _ => R.mbxSeq i⟩,
  ⟨0x7010808, 8, 4096, 1, 0, 29, .ro, fun _ => true, fun i _ => R.mbxState i⟩,
  ⟨0x7010808, 8, 4096, 1, 0, 16, .ro, fun _ => true, fun i _ => R.mbxStatus i⟩,
  ⟨0x7010808, 8, 4096, 1, 0, 0, .ro, fun _ => true, fun i _ => R.mbxDoneSeq i⟩,
  ⟨0x701080c, 8, 4096, 1, 0, 16, .ro, fun _ => true, fun i _ => R.mbxOpcode i⟩,
  ⟨0x701080c, 8, 4096, 1, 0, 0, .ro, fun _ => true, fun i _ => R.mbxRlen i⟩,
  ⟨0x7010810, 8, 4096, 1, 0, 16, .ro, fun _ => true, fun i _ => R.mbxFail i⟩,
  ⟨0x7010810, 8, 4096, 1, 0, 0, .ro, fun _ => true, fun i _ => R.mbxDtick i⟩,
  ⟨0x7010814, 8, 4096, 1, 0, 0, .ro, fun _ => true, fun i _ => R.mbxCtag i⟩,
  ⟨0x7010818, 8, 4096, 1, 0, 16, .rc, fun _ => true, fun i _ => R.mbxDbIgnored i⟩,
  ⟨0x7010818, 8, 4096, 1, 0, 0, .rc, fun _ => true, fun i _ => R.mbxDoneCnt i⟩]

/-- Address rows of R604 (21_control_firmware.md). -/
def rowsMbxCmd : List RegRow := [
  ⟨0x7010000, 8, 4096, 256, 4, 0, .rw, fun _ => true, R.mbxCmdWord⟩]

/-- Address rows of R604 (21_control_firmware.md). -/
def rowsMbxRsp : List RegRow := [
  ⟨0x7010400, 8, 4096, 256, 4, 0, .ro, fun _ => true, R.mbxRspWord⟩]

/-- Address rows of R663 (23_test_service_life.md). -/
def rowsObs : List RegRow := [
  ⟨0x7050000, 8, 4, 1, 0, 24, .ro, fun _ => true, fun i _ => R.obsEn i⟩,
  ⟨0x7050000, 8, 4, 1, 0, 16, .ro, fun _ => true, fun i _ => R.obsSignal i⟩,
  ⟨0x7050000, 8, 4, 1, 0, 12, .ro, fun _ => true, fun i _ => R.obsRegion i⟩,
  ⟨0x7050000, 8, 4, 1, 0, 8, .ro, fun _ => true, fun i _ => R.obsPin i⟩]

/-- Address rows of R666 (23_test_service_life.md). -/
def rowsFeatlock : List RegRow := [
  ⟨0x7050040, 1, 0, 1, 0, 24, .ro, fun _ => true, fun _ _ => R.featlockBaseStep⟩,
  ⟨0x7050040, 1, 0, 1, 0, 0, .ro, fun _ => true, fun _ _ => R.featlockFeat⟩]

/-- Every register field with an address, by R66, R103, R169, R201 and the other register rules. -/
def regRows : List RegRow :=
  rowsFc ++
  rowsTick ++
  rowsTt ++
  rowsRun ++
  rowsLink ++
  rowsLane ++
  rowsLn ++
  rowsTin ++
  rowsTout ++
  rowsRoute ++
  rowsFp ++
  rowsFpStat ++
  rowsProf ++
  rowsPolCnt ++
  rowsBuf ++
  rowsHcap ++
  rowsAtt ++
  rowsQc ++
  rowsSch ++
  rowsPlan ++
  rowsShare ++
  rowsAdm ++
  rowsFo ++
  rowsLp ++
  rowsLln ++
  rowsBrg ++
  rowsNwin ++
  rowsBlog ++
  rowsFlip ++
  rowsFlipP ++
  rowsRh ++
  rowsWit ++
  rowsDp ++
  rowsLp5 ++
  rowsWin ++
  rowsDmaDb ++
  rowsDma ++
  rowsDmaReq ++
  rowsDmaSem ++
  rowsDmaCnt ++
  rowsUsb ++
  rowsUsbPort ++
  rowsUsbBuf ++
  rowsCc ++
  rowsStg ++
  rowsStgCurve ++
  rowsFeed ++
  rowsFeedCurve ++
  rowsPwr ++
  rowsSrc ++
  rowsFcol ++
  rowsRefuse ++
  rowsSec ++
  rowsKey ++
  rowsGate ++
  rowsPs ++
  rowsMbx ++
  rowsMbxCmd ++
  rowsMbxRsp ++
  rowsObs ++
  rowsFeatlock

end Sys2Proof.Machine
end

