-- ==== Sys2Proof/Machine/State.lean ====
section
/-!
DEFINITION. The state of the hub as plain data: every register field (in `regs`), and everything else the manual
gives the hub that is not a register: queues, link units, windows, timers in progress, records, stores and keys.
A table lists only what differs from its default. The last part is the queue of waiting commands.
-/

namespace Sys2Proof.Machine

open Sys2Proof

/-- Why a command cannot be executed at all. No meaning of this model raises one: the manual gives every command of
the table an effect in every state. -/
inductive Fault where
  /-- An LP5 address outside the 16 GiB that the map lists (R39), reached by no command. Safe. -/
  | noSuchAddress
deriving DecidableEq, Repr

/-- Why a command has no meaning. -/
inductive Refusal where
  /-- A command that has no meaning in this model; raised by exec's arm alone. Safe. -/
  | notModelled (mnemonic : String)
deriving DecidableEq, Repr

/-- One entry of the fault log (Table 18-4). `taken` is set once a FAULT.READ has returned it (R553). -/
structure LogEntry where
  evt : Nat
  rsev : Nat
  forced : Bool
  src : Nat
  rcnt : Nat
  detail : Nat
  occ : Nat
  ftime : Nat
  taken : Bool := false
deriving DecidableEq, Repr

/-- A notification record: its words, in order (R97, R554, R618). -/
abbrev Record := List Nat

/-- The fault collector's state beside its registers (chapter 18). -/
structure Collector where
  /-- sources whose block signal is high, force left out (R542) -/
  sig : List Nat := []
  /-- the fault log ring, by entry index (R553) -/
  log : Tab LogEntry := []
  /-- entries written since the last sweep, oldest first (R555) -/
  fresh : List LogEntry := []
  /-- entries not sent, per host, since its previous record (R555) -/
  lost : Tab Nat := []
  /-- PW has not passed since the last latching that drives FAULT_N (R551) -/
  pulse : Bool := false
  /-- a FAULTN_REL that waits for PW (Table 18-3) -/
  relAsked : Bool := false
  /-- ticks in a row without a completed sweep (CORE_WDOG, Table 18-1) -/
  noSweep : Nat := 0
  /-- blocks contained under a source that several blocks share, by source (R541) -/
  blocks : Tab (List Nat) := []
  /-- fault records built in this sweep and node records, per host, not yet queued (R61 task 4) -/
  notes : Tab (List Record) := []
  /-- sources raised and not yet handled, with their DETAIL; the command that raised them handles 4,096, later ones the rest -/
  wants : List (Nat × Nat) := []
  /-- the effects of safe state have been applied to the blocks (R546) -/
  safeOn : Bool := false
deriving DecidableEq, Repr

/-- A time request accepted for service (R55): host, exchange number, T1 and T2. -/
structure TimeReq where
  host : Nat
  xseq : Nat
  t1 : Nat
  t2 : Nat
deriving DecidableEq, Repr

/-- The clock and tick unit beside its registers (chapter 2). -/
structure TickSt where
  /-- tick number (R47) -/
  num : Nat := 0
  /-- forge time, ns (R51) -/
  now : Nat := 0
  /-- core clock cycles since cold reset: what refills and row times are counted in, moved by no slew and no step -/
  cyc : Nat := 0
  /-- forge time of the latest boundary (Table 2-5) -/
  last : Nat := 0
  /-- boundary of the pending period change (R49) -/
  pendAt : Nat := 0
  /-- the last task of Table 2-4 completed in this tick; 0 before the sequence begins, 11 when it has ended -/
  task : Nat := 11
  /-- the latest boundaries, newest first: tick number and forge time (R48) -/
  bounds : List (Nat × Nat) := []
  /-- a correction still to be slewed, ns, and the core cycles since its latest nanosecond (R57) -/
  slew : Int := 0
  slewAcc : Nat := 0
  /-- tick of the last report applied and its offset (R59) -/
  repTick : Option Nat := none
  repTheta : Int := 0
  /-- no exchange completed since a return from banked or ember (R59) -/
  returned : Bool := false
  /-- requests waiting for task 6, and hosts whose request of this tick was accepted (R55) -/
  reqs : List TimeReq := []
  asked : List Nat := []
  /-- per-host time-exchange discard counters (R55, R57) -/
  discard : Tab Nat := []
  /-- a period change that took effect in this tick and is to be notified (R50): code and boundary -/
  changed : Option (Nat × Nat) := none
  /-- HI words latched by a LO read, per master and register (R66) -/
  latch : Tab (Option Nat) := []
  /-- the service slot is closed for this tick (R62) -/
  slotEnded : Bool := false
  /-- tick of the latest samples of task 5, and whether they were taken (R284) -/
  sampled : Nat × Bool := (0, false)
  /-- the sequence of this tick is not judged at the next boundary: tick 0, and a tick that began without firmware -/
  unjudged : Bool := true
  /-- the overrun of a boundary that is late by P/2 has been counted (R67) -/
  late : Bool := false
  /-- port configuration fields that take effect at the next boundary (Table 5-8, R340, Table 11-14) -/
  cfg : List (Fld × Nat) := []
deriving DecidableEq, Repr

/-- The settable part of a descriptor (Tables 3-4 to 3-8). -/
structure Desc where
  cls : Nat := 0
  own : Nat := 0
  bidir : Nat := 0
  maxlen : Nat := 0
  lp5w : Nat := 0
  line : Nat := 0
  altTrk : Nat := 0
  altEgr : Nat := 0
  egr : Nat := 0
  ingr : Nat := 0
  smode : Nat := 0
  weight : Nat := 0
  profile : Nat := 0
  buflim : Nat := 0
  /-- bellows words 3 and 4 (Table 3-7) -/
  bel : Nat := 0
  rbel : Nat := 0
  /-- weight, profile and limit of the reverse direction, and the COOKIE (Tables 3-5 to 3-8) -/
  rweight : Nat := 0
  rprofile : Nat := 0
  rbuflim : Nat := 0
  cookie : Nat := 0
deriving DecidableEq, Repr

/-- A TUNNEL command that waits for the next boundary (R83). -/
inductive TunCmd where
  | opening (tid : Nat) (d : Desc) (master : Nat)
  | modify (tid : Nat) (d : Desc) (master : Nat)
  | closing (tid : Nat) (abort : Bool) (master : Nat)
  | altEgr (tid : Nat) (code : Nat) (master : Nat)
deriving DecidableEq, Repr

/-- What the hub keeps of a tunnel beside its registers. -/
structure TunX where
  /-- the last owning master recorded since cold reset (R95) -/
  lastOwn : Option Nat := none
  /-- reserved by a served TUNNEL.OPEN until the boundary (R85) -/
  reserved : Bool := false
  /-- inside the reversal window of this master's plan (R313) -/
  window : Option Nat := none
  /-- failed trunks for which the tunnel runs on an alternate (R323) -/
  failTrk : List Nat := []
deriving DecidableEq, Repr

/-- Discards that a STALE record will report (R96, Table 3-13). -/
structure StaleAcc where
  sender : Nat
  tid : Nat
  reason : Nat
  fgen : Nat
  count : Nat
  port : Nat
  ftime : Nat
deriving DecidableEq, Repr

/-- The tunnel table beside its registers (chapter 3). -/
structure Tunnels where
  x : Tab TunX := []
  cmds : List TunCmd := []
  stale : List StaleAcc := []
  /-- the discards of ticks before this one, to be reported in its notification task -/
  staleDue : List StaleAcc := []
  /-- senders to which STALE records were dropped since the last one sent (R96) -/
  ovf : List Nat := []
  /-- forced-close records and others not yet queued, with the master they go to -/
  records : List (Nat × Record) := []
deriving DecidableEq, Repr

/-- A frame in a tunnel queue, or held at its ingress. -/
structure QFrame where
  f : Frame
  cells : Nat
  /-- numbers of its cells (R236); none while it waits in an engine whose staging area is full (R262) -/
  nos : List Nat := []
  /-- forge time of admission, or of the first judging while held -/
  adm : Nat := 0
  /-- port code of its ingress, and its credit class -/
  ingress : Nat := 0
  ccls : Nat := 0
  /-- egress chosen by R71 for a system tunnel; 0 where the descriptor chooses -/
  dest : Nat := 0
  /-- cut-through and the cells written so far (R248) -/
  ct : Bool := false
  written : Nat := 0
  /-- colour that the policer gave it (R252) -/
  colour : Nat := 0
  /-- its streamed read has met an uncorrectable cell (R257) -/
  bad : Bool := false
deriving DecidableEq, Repr

/-- One direction of a tunnel: its frames, its virtual times (R278), its bellows (R276), its policer buckets (R252)
and, for the reverse direction, its sequence numbers (R93). -/
structure Queue where
  frames : List QFrame := []
  vs : Nat := 0
  vf : Nat := 0
  active : Bool := false
  tok : Nat := 0
  tokAt : Nat := 0
  tc : Nat := 0
  tp : Nat := 0
  polAt : Nat := 0
  seqIn : Nat := 0
  seqOut : Nat := 0
  /-- served by the alternate after a failover switch (R323) -/
  moved : Bool := false
  /-- stored bytes of the frames started (TXKIB, R290) -/
  txBytes : Nat := 0
deriving DecidableEq, Repr

/-- A frame being sent or held for replay at a port. -/
structure TxFrame where
  f : Frame
  ccls : Nat
  cells : Nat
  /-- tunnel ID × 2 + direction -/
  key : Nat
  /-- numbers of its cells (R236) -/
  nos : List Nat := []
  /-- sent unencrypted: an attach or management message queued before the keys were in force (R168) -/
  clear : Bool := false
  /-- key and SALT under which it is encrypted, empty where it is sent in the clear (R159, R160) -/
  kb : List Byte := []
  /-- epoch and frame counter with which it is encrypted (R156, R160) -/
  epoch : Nat := 0
  fcnt : Nat := 0
  /-- data blocks placed in link units so far -/
  pos : Nat := 0
  /-- SEQ of the link unit that carries its last block -/
  lastSeq : Option Nat := none
  /-- the failed trunk whose replay this frame is, by code; 0 for none (R327) -/
  origin : Nat := 0
  /-- cut-through, its ingress, and the cells written so far (R248) -/
  ct : Bool := false
  ingress : Nat := 0
  written : Nat := 0
  /-- its streamed read has met an uncorrectable cell (R257) -/
  bad : Bool := false
deriving DecidableEq, Repr

/-- A token bucket: tokens with 32 fractional bits and the time of its last refill (R277). -/
structure Bucket where
  tok : Nat := 0
  last : Nat := 0
deriving DecidableEq, Repr

/-- An egress scheduler beside its registers (chapter 8). -/
structure Egress where
  v : Nat := 0
  p0 : Option Nat := none
  p1 : Option Nat := none
  p2 : Option Nat := none
  p3 : Option Nat := none
  bl0 : Bucket := ⟨65536 * 2 ^ 32, 0⟩
  bl1 : Bucket := {}
  bl3 : Bucket := {}
  /-- the guard timer has reached GUARD (R273); whether it acted in this tick and in how many ticks in a row (R289) -/
  guardDue : Bool := false
  guardActed : Bool := false
  guardTicks : Nat := 0
  /-- the strike summaries that R65 places ahead of band 0 -/
  summary : List QFrame := []
  /-- queues that entered a band behind its pointer, each with the queues still to be offered before it (R281) -/
  behind : List (Nat × List Nat) := []
  /-- band 2: replay frames by code of the failed trunk, in its sending order -/
  b2 : List (Nat × List TxFrame) := []
deriving DecidableEq, Repr

/-- A transmitted link unit as it is kept for replay (R113, R125). -/
structure TxLu where
  ccls : Nat
  seq : Nat
  fs : Bool
  cnt : Nat
  crc : Nat
  blocks : List Nat
deriving DecidableEq, Repr

/-- Transmit side of one credit class (R115, R124, R132). -/
structure TxClass where
  nextSeq : Nat := 0
  oldest : Nat := 0
  unacked : List TxLu := []
  /-- SEQs still to be sent again, in order -/
  replay : List Nat := []
  /-- the SEQ from which the replay in progress began (R124) -/
  replayFrom : Option Nat := none
  /-- credits consumed, and the limit last received (R132) -/
  cc : Nat := 0
  cl : Nat := 0
deriving DecidableEq, Repr

/-- A frame that a receiver has reassembled and the hearth has not yet judged: its blocks and its cells. `cut` is the
queue that cuts it through, where it was handed over before its last cell (R248). -/
structure RxFrame where
  blocks : List Nat
  nos : List Nat := []
  cut : Option Nat := none
deriving DecidableEq, Repr

/-- Receive side of one credit class (R121, R122, R133). -/
structure RxClass where
  /-- ACK_SEQ + 1 -/
  nextSeq : Nat := 0
  /-- accepted control link units held until the gap before them is filled: SEQ, FS and blocks -/
  held : List (Nat × Bool × List Nat) := []
  /-- the link unit that a NAK asked for -/
  nak : Option Nat := none
  /-- blocks of the frame being reassembled, its cells, and the queue that cuts it through -/
  part : List Nat := []
  nos : List Nat := []
  cut : Option Nat := none
  /-- discarding up to the next link unit with FS 1 (R121) -/
  skip : Bool := false
  /-- credits that the frames received so far have cost (R133) -/
  rxc : Nat := 0
  /-- the frame being reassembled is discarded when it is whole: it overruns its credits (R135), or is given up -/
  overrun : Bool := false
  /-- frames reassembled and not yet judged by the hearth, oldest first (R133) -/
  done : List RxFrame := []
  /-- the limit CL last advertised (R133) -/
  adv : Nat := 0
deriving DecidableEq, Repr

/-- The link layer of a trunk or line port beside its registers (chapters 4 and 11). -/
structure LinkEnd where
  tx : Tab TxClass := []
  rx : Tab RxClass := []
  /-- frames begun and not yet wholly placed: at most one of a credit class (R118) -/
  wait : List TxFrame := []
  /-- attach and management messages waiting to be placed (R164, R359) -/
  msgs : List TxFrame := []
  /-- the link unit kept open for a cut-through frame whose next cell is late (R249): class, FS and blocks -/
  open_ : Option (Nat × Bool × List Nat) := none
  /-- data blocks received since the last LU_END, and whether a block error stands among them (R120) -/
  inLu : List Nat := []
  inErr : Bool := false
  /-- frames held in the replay area (R130) -/
  area : List TxFrame := []
  /-- PROBEs awaiting their echo (identifier, time sent) and the last eight round trips (R169) -/
  pid : Nat := 0
  probes : List (Nat × Nat) := []
  rtts : List Nat := []
  /-- unreliable frames started since the last CSYNC (R134) -/
  csyncDue : Bool := false
  /-- frame counters by credit class of the transmit epoch (R156) -/
  fcnt : Tab Nat := []
  /-- receive epoch (R161), and last FCNT + 1 accepted by credit class and epoch (R157) -/
  rxEpoch : Nat := 0
  rxLast : Tab Nat := []
  /-- the next epoch's keys have been derived (R160) -/
  keysReady : Bool := false
  /-- tag failures of this tick (R157) -/
  tagFails : Nat := 0
  /-- shares and buffering that take effect at the next LINKUP (R136, R138) -/
  sharePend : Option (Nat × Nat × Nat × Nat) := none
  extPend : Option Bool := none
  /-- attach: claimed index, identity and nonces (R164, R359) -/
  idx : Nat := 0
  peerId : Nat := 0
  nPeer : List Byte := []
  nHub : List Byte := []
  /-- end of the hold-off after bad proofs, forge time (R166) -/
  holdUntil : Nat := 0
  /-- the link key K_h, or node key K_n, from which the session keys descend, and the slot that held it (R159) -/
  sess : Option (KeyTerm × Nat) := none
deriving DecidableEq, Repr

/-- The hearth beside its registers (chapters 7 and 8). -/
structure Hearth where
  /-- one queue per tunnel ID and direction: key ⟨0, ID, direction⟩ -/
  queues : Tab Queue := []
  /-- held frames per ingress port code and credit class, oldest first (R245) -/
  held : Tab (List QFrame) := []
  /-- one scheduler per egress port code -/
  egress : Tab Egress := []
  /-- where the free-cell allocator looks next (R237) -/
  nextCell : Nat := 0
  /-- cells beyond a break in their chain, with the number of the queue that their tag names, 0 for an area (R259) -/
  orphans : List (Nat × Nat) := []
  /-- SFREE has stayed below YEL_FREE since the boundary (BUF_PRESSURE) -/
  lowAllTick : Bool := false
  /-- cells found lost, and queues found to differ, by the last scrub sweep (R260) -/
  lostSeen : List Nat := []
  diffSeen : List Nat := []
deriving DecidableEq, Repr

/-- A fence held at E3 (R152): earlier frames still to complete, and later frames waiting. -/
structure FenceSt where
  /-- frames of class 0 and 3 of the host on the trunk that have not completed -/
  open_ : List (Nat × Nat) := []
  /-- the fence that is held, and the frames that wait behind it, oldest first (R152) -/
  fence : Option Frame := none
  waiting : List Frame := []
deriving DecidableEq, Repr

/-- Failover state of a trunk beside its registers (chapter 10). -/
structure FailoverSt where
  /-- retrain wait in ms (Table 10-5) -/
  waitMs : Nat := 0
  /-- the wait has passed -/
  waitOver : Bool := false
  /-- boundaries the trunk has been ATTACHED -/
  attached : Nat := 0
  /-- PORT.TRAIN has asked for the return (R337) -/
  retAsked : Bool := false
  /-- host attached when the trunk failed, and the tick of the failure (R333) -/
  hostAtFail : Option Nat := none
  failTick : Nat := 0
  /-- ticks whose summary is to be sent diverted (R333) -/
  divert : List Nat := []
  /-- the port carried a switch in this tick: tempering is suspended (Table 2-8) -/
  suspend : Nat := 0
deriving DecidableEq, Repr

/-- A claim or session challenge that has been issued (R571, R479). -/
structure Challenge where
  nonce : List Byte
  at_ : Nat
deriving DecidableEq, Repr

/-- The Security region beside its registers (chapter 19). -/
structure Security where
  /-- key material by slot; a slot that is not listed holds zeros -/
  mat : Tab KeyTerm := []
  /-- fuses of Table 19-1: chip serial, hash of the patch key, silicon step, debug lock, and the fused versions by domain -/
  hubId : Nat := 0
  pkh : Nat := 0
  step : Nat := 1
  dbgLock : Bool := false
  fuseV : Tab Nat := []
  /-- fused versions in force since the last reset (R565) -/
  fv : Tab Nat := []
  /-- sequence number of the patch held in patch memory, by index (R570) -/
  patches : Tab (Option Nat) := []
  /-- patches accepted and waiting for the next boundary -/
  patchNew : List (Nat × Nat) := []
  /-- claim challenges by master, consecutive bad proofs, and the end of the hold-off (R571, R572) -/
  chal : Tab (Option Challenge) := []
  bad : Tab Nat := []
  holdUntil : Tab Nat := []
  /-- the test root is to be loaded and the default keys derived (R568) -/
  testDue : Bool := false
  /-- how many nonces have been drawn (the model's own field) -/
  draws : Nat := 0
  /-- boundaries for which OWNER_LOST has stood (R335) -/
  lostFor : Nat := 0
deriving DecidableEq, Repr

/-- The window geometry that a GATE.SET leaves for the next boundary (R434): window, base and size. -/
abbrev WinChange := Nat × Bool × Nat × Nat

/-- One lane of a trunk or line port beside its registers (chapter 5). -/
structure LaneX where
  /-- capability phase: RATECAP last received, frames in a row with it, and frames in a row with the chosen RATESEL -/
  cap : Nat := 0
  capRun : Nat := 0
  selRun : Nat := 0
  /-- LANE did not match the physical index (R179) -/
  crossed : Bool := false
  /-- FOM reported by the far end, and its DONE -/
  farFom : Nat := 0
  farDone : Bool := false
  /-- ready phase: frames in a row with TPH 3, and whether the far end sent it -/
  readyRun : Nat := 0
  farReady : Bool := false
  /-- taps of the hub's own transmitter (R176) -/
  txPre : Nat := 0
  txMain : Nat := 63
  txP1 : Nat := 0
  txP2 : Nat := 0
  /-- RSEQ of the last request applied, and the responses (R177) -/
  aseq : Option Nat := none
  stsPre : Nat := 0
  stsMain : Nat := 0
  stsP1 : Nat := 0
  stsP2 : Nat := 0
  /-- the search of R178: RSEQ sent, tap and direction in hand (tap × 2 + direction), mode 0 first measurement,
  1 answer awaited, 2 measurement awaited, 3 answer to the step back awaited, 4 done -/
  rseq : Nat := 0
  pos : Nat := 0
  mode : Nat := 0
  best : Nat := 0
  improved : Bool := false
  /-- CTLE, DFE1 to DFE5 and PHASE at training completion, as signed codes (R196) -/
  trained : List Int := []
  /-- parameter due for tempering, 0 CTLE, 1 to 5 DFE, 6 PHASE (R194) -/
  param : Nat := 0
  /-- the last step applied, while it may be undone (R195): parameter and direction up; and the core cycle of it -/
  step : Option (Nat × Bool) := none
  stepAt : Nat := 0
  /-- the position that went out of use with the lane at a width degrade or at training, 7 none (R180, R190, R198) -/
  lostPos : Nat := 7
  /-- ticks in a row with a live FOM below FOM_FAIL (Table 5-5) -/
  lowRun : Nat := 0
  /-- scrambler state of the transmitter, the latest bit highest (R107), and BIP8 since its last ALIGN (R112) -/
  scr : Nat := 0
  bip : Nat := 0
  /-- marker count last received, and expected markers missed in a row (R112) -/
  mcnt : Nat := 0
  missed : Nat := 0
  /-- REPL reported by the far end's ALIGN (R193) -/
  repl : Nat := 7
deriving DecidableEq, Repr

/-- The lane layer of a port beside its registers. -/
structure PortLanes where
  lanes : Tab LaneX := []
  /-- training state: 0 none, 1 CAP, 2 EQ, 3 READY, 4 trained (Table 5-3) -/
  phase : Nat := 0
  /-- forge time at which training began -/
  began : Nat := 0
  /-- rates that both ends offer (bit 0 lowest), and whether the far end has a fifth lane -/
  common : Nat := 0
  farSpare : Bool := true
  /-- the RATESEL that the hub sends, once chosen -/
  sel : Option Nat := none
  /-- marker count of the next ALIGN row, and the core cycle from which the schedule of R112 counts -/
  mcnt : Nat := 0
  alignAt : Nat := 0
  /-- rows mismatching on the replica, in all and in this tick (R193) -/
  replMism : Nat := 0
  mismTick : Nat := 0
  /-- the position that the receiver has identified on the spare, the run of rows that points to another, and the rows
  since the identification changed (R193) -/
  ident : Option Nat := none
  identRun : Nat × Nat := (0, 0)
  since : Nat := 64
  /-- the REPL of the last ALIGN agrees with the position identified (R193) -/
  replOk : Bool := true
  /-- ticks for which tempering is still suspended (R69, R197) -/
  suspend : Nat := 0
  /-- the tempering task of this tick has begun on the port -/
  tempered : Bool := false
  /-- the lane that a PORT.SPARE RESTORE is training (R198) -/
  restore : Option Nat := none
  /-- the restored lane has been trained and carries its position beside the spare -/
  restored : Bool := false
  /-- configuration fields that take effect at the next training (Tables 5-8 and 11-14) -/
  trnPend : List (Fld × Nat) := []
  /-- the far end's port code in ALIGN, as reported -/
  farPort : Nat := 0
  /-- the port may train on signal detect: enabled by the firmware and not disabled by PORT.TRAIN -/
  enabled : Bool := false
deriving DecidableEq, Repr

/-- What a tick's micro-frames leave for the summary of that tick (Table 6-6). -/
structure StrikeTick where
  tick : Nat := 0
  /-- micro-frames sent, in STSEQ order -/
  sent : List Strike := []
  /-- STSEQ of the first, or the next to be carried -/
  fseq : Nat := 0
  /-- LIMDROP, RXINV and SAFE of its summary (Table 6-6) -/
  limdrop : Nat := 0
  rxinv : Nat := 0
  safe : Bool := false
  /-- its summary has been built (R225) -/
  summed : Bool := false
deriving DecidableEq, Repr

/-- A micro-frame acted on and not yet covered by a reconciled summary: its fields and arrival; `told` once it has been
counted as unconfirmed for a missing summary (R229, R231). -/
structure Acted where
  x : Strike
  came : Nat
  told : Bool := false
deriving DecidableEq, Repr

/-- The strike unit of a trunk or line port beside its counters (chapter 6). -/
structure StrikePort where
  /-- micro-frames waiting for a row boundary, at most 8, each with its ingress: a port code, or 0 for a pin (R210, R216) -/
  queue : List (Nat × Strike) := []
  /-- STSEQ of the next micro-frame (R208) -/
  stseq : Nat := 0
  /-- the last 128 STSEQ values acted on, with their fields (R215) -/
  window : List (Nat × Strike) := []
  /-- micro-frames acted on and not yet covered by a reconciled summary (R229, R231) -/
  acted : List Acted := []
  /-- the tick in progress, and the ticks before it, newest first -/
  cur : StrikeTick := {}
  hist : List StrikeTick := []
  /-- end of the range of the last summary reconciled (R227), and the ticks of those reconciled, latest first (R228) -/
  rangeEnd : Nat := 0
  sums : List Nat := []
  /-- ticks whose summary has missed its limit (R231) -/
  missed : List Nat := []
  /-- summary frames built and not yet placed: egress code and frame (R65) -/
  built : List (Nat × QFrame) := []
deriving DecidableEq, Repr

/-- A TRIG_OUT pin: drive 0 high-impedance, 1 low, 2 high; level before INV; a pulse in progress (R204). -/
structure TrigOut where
  drive : Nat := 0
  level : Bool := false
  pulse : Bool := false
deriving DecidableEq, Repr

/-- The pulse crossing of a channel (R222). `seen` is the toggle as the receiving side has converted it. -/
structure Crossing where
  tog : Bool := false
  busy : Bool := false
  pend : Nat := 0
  seen : Bool := false
deriving DecidableEq, Repr

/-- One change of a PORT.ROUTE (R219): a routing entry, a TRIG_IN register or a TRIG_OUT register, as words. -/
inductive RouteChange where
  | entry (chan w0 w1 w2 : Nat)
  | tin (i w : Nat)
  | tout (k w : Nat)
deriving DecidableEq, Repr

/-- The flash path beside its registers. -/
structure Flash where
  ports : Tab StrikePort := []
  outs : Tab TrigOut := []
  cross : Tab Crossing := []
  staged : List RouteChange := []
deriving DecidableEq, Repr

/-- What a plan replaced, as its reversal image keeps it (R310). -/
inductive Undo where
  | added (tid : Nat)
  | changed (tid : Nat) (d : Desc) (planId : Nat)
  | removed (tid planId : Nat)
  /-- profiles, shares, HCAP, settings and the plan IDs in force: fields and their former values -/
  | fields (l : List (Fld × Nat))
deriving DecidableEq, Repr

/-- A plan slot beside its registers (chapter 9): its records in staged order, ten words each, and its reversal
image, newest first. -/
structure PlanSlot where
  recs : List (List Nat) := []
  image : List Undo := []
deriving DecidableEq, Repr

/-- The plan slots and the chip-wide plan ID counter (R293). -/
structure Plans where
  slots : Tab PlanSlot := []
  counter : Nat := 1
deriving DecidableEq, Repr

/-- A request on the node bus toward a node (R353): operation (1 RD, 2 WR), tag, address, length, data, and the storage
piece that it is: transaction number and offset. -/
structure NbReq where
  op : Nat
  tag : Nat
  addr : Nat
  len : Nat
  data : List Byte := []
  num : Nat
  off : Nat
deriving DecidableEq, Repr

/-- A line port beside its registers (chapter 11). -/
structure LineX where
  /-- the attach condition holds (R349) -/
  cond : Bool := false
  /-- a retrain wait is running -/
  waiting : Bool := false
  /-- the node has departed: no retrain until the attach condition ends and holds again -/
  departed : Bool := false
  /-- what is awaited of the node: 0 nothing, 1 NODEINFO, 2 PROOF -/
  asked : Nat := 0
  /-- HELLOs in a row that were not answered -/
  unanswered : Nat := 0
  /-- HELLO is to be sent once the firmware is ready -/
  helloDue : Bool := false
  /-- encryption, as HELLO asked for it (R361) -/
  encAsked : Bool := false
  /-- hub-initiated requests that are outstanding, oldest first -/
  out : List NbReq := []
  /-- TAG of the next request -/
  nextTag : Nat := 0
deriving DecidableEq, Repr

/-- A storage transaction at the bridge (chapter 12). -/
structure StorTx where
  num : Nat
  tid : Nat
  gen : Nat
  tag : Nat
  seq : Nat
  own : Nat
  cookie : Nat
  wr : Bool
  posted : Bool
  addr : Nat
  len : Nat
  /-- line port code, or 0; LP5 window plus 1, or 0 -/
  line : Nat
  /-- LP5 window plus 1, or 0 -/
  lp5w : Nat
  /-- data written, or what of a READ has come back -/
  data : List Byte := []
  /-- pieces not yet issued: offset and length -/
  todo : List (Nat × Nat) := []
  /-- pieces issued and not yet complete -/
  out : Nat := 0
  /-- status (2, 3 or 4) and offset of the first failed piece -/
  fail : Option (Nat × Nat) := none
  /-- trunk on which the request came, by code -/
  via : Nat := 0
deriving DecidableEq, Repr

/-- A hold entry (R375 to R377). State 0 fetching, 1 held with data, 2 held with a failure. -/
structure HoldEntry where
  num : Nat
  tid : Nat
  gen : Nat
  tag : Nat
  addr : Nat
  rlen : Nat
  own : Nat
  state : Nat := 0
  status : Nat := 0
  data : List Byte := []
deriving DecidableEq, Repr

/-- A node hold entry of a line port (R387): its data once it has returned. -/
structure NodeHold where
  port : Nat
  addr : Nat
  len : Nat
  data : Option (List Byte) := none
deriving DecidableEq, Repr

/-- A piece of a storage transaction that has come back (R372, R373): status 0, 2, 3 or 4. -/
structure PieceDone where
  num : Nat
  off : Nat
  status : Nat
  data : List Byte := []
deriving DecidableEq, Repr

/-- An entry of the mirror store (R391). -/
structure MirItem where
  tid : Nat
  item : Nat
  own : Nat
  value : List Byte
  at_ : Nat
  dirty : Bool
  lost : Nat
deriving DecidableEq, Repr

/-- The bridge beside its registers (chapter 12). -/
structure Bridge where
  /-- frames that E2 has delivered and the bridge has not taken: the line port's code for a node-bus packet, otherwise 0 -/
  inbox : List (Nat × Frame) := []
  /-- storage requests in progress, and the number of the next (R372) -/
  txs : List StorTx := []
  nextNum : Nat := 0
  /-- the hold table of the hosts and that of the nodes (R375, R387) -/
  holds : List HoldEntry := []
  nodeHolds : List NodeHold := []
  /-- pieces that have come back and are not yet taken -/
  done : List PieceDone := []
  /-- the mirror store (R391) -/
  mirror : List MirItem := []
  /-- late-error logs: log and entry (R383) -/
  logs : Tab Record := []
  /-- late-error records that each host has been sent in this tick, and hosts with records logged since (R382) -/
  sent : Tab Nat := []
  ovf : List Nat := []
  /-- HOLD_US, NHOLD_US and LREC_MAX, and window masks by line port, for the next boundary -/
  cfgPend : Option (Nat × Nat × Nat) := none
  nwinPend : List (Nat × Nat) := []
  /-- node records to be queued in the next sweep: port code and record (R362) -/
  nodeRecs : List (Nat × Record) := []
deriving DecidableEq, Repr

/-- An LP5 access (R435): client 0 to 7 a raster head, 8 DMA, 9 bridge, 10 Ohmale core; chip address; for a bridge access
the piece that it is, or the port code of a node's access. -/
structure Lp5Acc where
  client : Nat
  master : Nat
  wr : Bool
  addr : Nat
  len : Nat
  data : List Byte := []
  num : Nat := 0
  off : Nat := 0
  node : Nat := 0
deriving DecidableEq, Repr

/-- The LP5 controller beside its registers (chapter 14). -/
structure Lp5St where
  /-- accesses accepted that wait for ACTIVE -/
  queue : List Lp5Acc := []
  /-- reads served whose data has not yet returned -/
  reads : List Lp5Acc := []
  /-- the exit from a low-power state has begun (R440) -/
  exiting : Bool := false
  /-- no rate trained, or the channels differ: every access ends with a target error (R431) -/
  failed : Bool := false
  /-- forge time of the latest grant (R440) -/
  idleSince : Nat := 0
  /-- the DMA engine waits for ACTIVE -/
  dmaWait : Bool := false
  /-- the devices' latest MR4 reading, which sets the refresh interval (R432) -/
  mr4 : Nat := 0
  /-- window geometry for the next boundary (R434): window, EN, BASE, SIZE -/
  winPend : List WinChange := []
deriving DecidableEq, Repr

/-- The reference CRC of a band that has left the pipeline (R418): band, CRC, plane addresses of its frame, and whether
it is the frame's last. -/
structure RefBand where
  band : Nat
  crc : Nat
  addrs : List Nat
  last : Bool
  /-- trim steps that applied at the latch point of its frame (R422) -/
  steps : List (Nat × Int) := []
deriving DecidableEq, Repr

/-- A raster head beside its registers (chapter 13). Addresses are chip addresses of planes 0, 1 and 2. -/
structure HeadX where
  /-- a setup that waits for the latch point: field values, whether it relocks the PLL (R401), and the generation of its
  display tunnel (R417) -/
  setup : Option (List (Fld × Nat) × Bool × Nat) := none
  /-- the pixel PLL is relocking -/
  relock : Bool := false
  /-- locked, but no latch point since: the output is fill (R401) -/
  fillAll : Bool := false
  /-- generation of the display tunnel at setup (R417) -/
  gen : Nat := 0
  /-- forge time of the latest latch point -/
  latchAt : Nat := 0
  /-- the active line that leaves the pipeline next, and its segment (R417) -/
  scan : Nat := 0
  seg : Nat := 0
  /-- a segment of the line in hand has been discarded -/
  dropped : Bool := false
  /-- next burst to fetch of each plane: line and burst -/
  next0 : Nat × Nat := (0, 0)
  next1 : Nat × Nat := (0, 0)
  next2 : Nat × Nat := (0, 0)
  /-- the line buffer: bursts that have arrived, by plane, line and burst (R411) -/
  got : Tab (List Byte) := []
  /-- first filled pixel of the line in hand, once it has underflowed (R414) -/
  under : Option Nat := none
  /-- reaction in force: 0 none, 1 freeze, 2 blank (Table 13-4); a RESUME waits for the latch point (R421) -/
  react : Nat := 0
  resume : Bool := false
  /-- the rest of this frame is filled (freeze, before its latch point) -/
  fillRest : Bool := false
  /-- whether the line in hand is fill, from its first segment on (R420, R424) -/
  lineFill : Bool := false
  /-- addresses current before the reaction, and of the latest good frame (R420, R421) -/
  before : Option (List Nat) := none
  good : Option (List Nat) := none
  /-- safe-state order in force: 0 none, 1 freeze, 2 blank (R424) -/
  safe : Nat := 0
  /-- reference CRC in progress, bands complete, and whether a band of the frame has mismatched -/
  crc : Nat := 0xFFFFFFFF
  refs : List RefBand := []
  bad : Bool := false
  /-- bytes fetched in this tick, and lowest LTOL in it -/
  fetched : Nat := 0
  low : Nat := 0xFFFF
deriving DecidableEq, Repr

/-- A DP output beside its registers: trim steps that wait for the latch point, lane and direction (R422), and those that
applied at the latest one and may still be undone. -/
structure DpX where
  steps : List (Nat × Int) := []
  taken : List (Nat × Int) := []
deriving DecidableEq, Repr

/-- A DMA channel beside its registers (chapter 14). -/
structure DmaX where
  /-- the program, as four words to an instruction -/
  prog : List (List Nat) := []
  /-- body start of each open loop, innermost last -/
  loops : List Nat := []
  /-- a WAIT in progress, and the time it began (R452) -/
  waiting : Option Nat := none
  /-- bytes already moved by the MOVE in hand (R451) -/
  moved : Nat := 0
  /-- the frame that a MOVE to a tunnel builds -/
  frame : List Byte := []
  /-- writes without a response: tunnel IDs of the frames that wait for admission (R449, R454) -/
  outst : List Nat := []
  /-- an error or stop that waits for responses: its record's EVT is 3 for an error -/
  err : Bool := false
  /-- bytes written since the last whole KiB -/
  rem : Nat := 0
  /-- passes to EMPTY when the responses are in (Table 14-8, last row) -/
  free : Bool := false
deriving DecidableEq, Repr

/-- Media beside its registers: heads, DP outputs, DMA channels. -/
structure Media where
  heads : Tab HeadX := []
  dps : Tab DpX := []
  dma : Tab DmaX := []
deriving DecidableEq, Repr

/-- A power stage beside its registers (chapter 17). -/
structure StageX where
  /-- the PHY orders the source on, or the sink path closed (Table 17-3) -/
  source : Bool := false
  sink : Bool := false
  /-- the start condition of a slot port holds -/
  cond : Bool := false
  /-- forge time at which the start condition was lost (R534) -/
  lostAt : Option Nat := none
  /-- the discharge load is on (R535) -/
  dsch : Bool := false
deriving DecidableEq, Repr

/-- What the samples of a feed's voltage say (R518, R522). -/
structure FeedX where
  /-- the latest codes, newest first: the last four, and those 16 µs before -/
  volts : List Nat := []
  /-- consecutive samples outside the window, up to four, and inside it -/
  outRun : Nat := 0
  inRun : Nat := 0
deriving DecidableEq, Repr

/-- A converter channel: offset and gain corrections, in codes and steps of 0.05 % (R536). -/
structure AdcChan where
  offset : Int := 0
  gain : Int := 0
  stopped : Bool := false
  lost : Bool := false
deriving DecidableEq, Repr

/-- A PD message entry of a receive queue (Table 16-4). -/
structure PdMsg where
  sopt : Nat
  hdr : Nat
  data : List Byte
  ftime : Nat
deriving DecidableEq, Repr

/-- A message that PD.TX is sending: SOP type, completed header, data, whether it waits for tSinkTx, retries made. -/
structure PdTx where
  sopt : Nat
  hdr : Nat
  data : List Byte
  waits : Bool
  tries : Nat
deriving DecidableEq, Repr

/-- A CC/PD PHY beside its registers (chapter 16). -/
structure CcX where
  /-- each CC wire: 0 open, 1 Ra, 2 Rd, 3 Rp; VBUS above 3.67 V -/
  w1 : Nat := 0
  w2 : Nat := 0
  vbus : Bool := false
  /-- debounced as a source, waiting for VBUS within vSafe5V (Table 16-2) -/
  attWait : Bool := false
  /-- detached as a source, waiting for VBUS below vSafe0V -/
  detWait : Bool := false
  /-- VBUS is within vSafe5V -/
  safe5 : Bool := false
  /-- an explicit contract stands (R506) -/
  contract : Bool := false
  /-- an Accept without its PS_RDY: 0 none, 1 of a contract, 2 of a power role swap (R502) -/
  accept : Nat := 0
  /-- the last swap request seen was a power role swap -/
  prSwap : Bool := false
  /-- a role swap in progress: toward Source, and begun by a Fast Role Swap signal (R505, R506) -/
  swapToSrc : Bool := false
  frs : Bool := false
  /-- the swap of that signal has started the source (R505) -/
  frsOn : Bool := false
  /-- hard reset sequence: 1 before tPSHardReset, 2 before tSrcRecover, 3 VBUS awaited as source, 4 as sink (R504) -/
  hr : Nat := 0
  /-- messages received and not yet read (R497) -/
  rx : List PdMsg := []
  /-- last MessageID received, and the counter of those sent, by SOP type (R497, R499) -/
  rxId : Tab (Option Nat) := []
  txId : Tab Nat := []
  /-- the message that PD.TX is sending (R499) -/
  tx : Option PdTx := none
  /-- result of the last PD.TX, while its completion is due (R499) -/
  txRes : Option Nat := none
  /-- policy timers running, with their lengths in ms (R509) -/
  timers : Tab Nat := []
deriving DecidableEq, Repr

/-- The Power region beside its registers. -/
structure PowerSt where
  stages : Tab StageX := []
  cc : Tab CcX := []
  adc : Tab AdcChan := []
  /-- the converter channel that tempering visits next -/
  adcNext : Nat := 0
  /-- latest code of each converter channel, as its last sample gave it (R516, R526) -/
  samples : Tab Nat := []
  /-- forge time of that sample (R471) -/
  sampleAt : Tab Nat := []
  /-- what the samples of each feed have shown (R518, R522) -/
  feeds : Tab FeedX := []
  /-- breaker timers of each path in µs, one per point of its curve; none where all are 0 (R530) -/
  curve : Tab (List Nat) := []
  /-- µs for which the slope condition has been false, and for which FEEDWARN_N has been low, up to the limits that count -/
  calm : Nat := 0
  lowFor : Nat := 0
  /-- feeds barred until PWR.FEED re-enables them (Table 17-2) -/
  barred : List Nat := []
  /-- FEEDWARN_N is driven low (R522) -/
  feedWarn : Bool := false
  /-- the CC/PD PHYs present their terminations: the firmware has been ready since cold reset (R511) -/
  phyOn : Bool := false
deriving DecidableEq, Repr

/-- A USB device beside its registers: 0 the hub, 1 the embedded device, 2 the service device (chapter 15). -/
structure UsbDevX where
  /-- address of the embedded device; the others' stand in registers -/
  addr : Nat := 0
  /-- the hub device is configured; the others' stand in registers -/
  cfg : Bool := false
  /-- DEVICE_REMOTE_WAKEUP is set (R484) -/
  rwe : Bool := false
  /-- alternate setting of the telemetry interface (Table 15-3) -/
  alt : Nat := 0
  /-- the host drives a resume; the device drives its wake (R484, R485) -/
  resume : Bool := false
  driving : Bool := false
  /-- a wake reason of the hub is pending (R484) -/
  wake : Bool := false
  /-- reason set not yet reported on endpoint 0x82 (R469) -/
  reason : Nat := 0
  /-- log selected (R473) and console verbosity -/
  log : Nat := 0
  verb : Nat := 0
deriving DecidableEq, Repr

/-- A downstream port of the hub beside its registers, 0 to 15; port 16 is the internal port, hub port 17. -/
structure UsbPortX where
  /-- PORT_POWER feature (R465) -/
  power : Bool := false
  /-- VBUS as the power region last reported it -/
  was : Bool := false
  /-- a reset, a resume is being driven -/
  reset : Bool := false
  resume : Bool := false
  /-- change bits: 0 connection, 2 suspend, 3 over-current, 4 reset -/
  change : Nat := 0
  /-- state of the internal port -/
  conn : Bool := false
  en : Bool := false
  susp : Bool := false
deriving DecidableEq, Repr

/-- The USB devices beside their registers. -/
structure UsbX where
  /-- UP_VBUS and SVC_VBUS are valid (R478) -/
  upVbus : Bool := false
  svcVbus : Bool := false
  /-- the devices, and the downstream ports -/
  devs : Tab UsbDevX := []
  ports : Tab UsbPortX := []
  /-- a service session: minutes not yet begun, or forge time of its end (R478) -/
  sesDur : Option Nat := none
  sesEnd : Option Nat := none
  /-- service challenge, and end of the hold-off (R478, R479) -/
  chal : Option Challenge := none
  holdUntil : Nat := 0
  /-- telemetry items, report number and latest report (R471, R472) -/
  items : Nat := 0
  rseq : Nat := 0
  report : List Nat := []
  /-- CTL_FC_SUMMARY as last seen (R469) -/
  summary : Nat := 0
deriving DecidableEq, Repr

/-- The hardware action that a parked command waits for (R616). -/
inductive Parked where
  | pd (phy : Nat)
  | raster (hd d w : Nat) (ws : List Nat)
  | spare (code lane : Nat)
  | advance (dom : Nat)
  | patch (index seq len fail : Nat)
  | enter
deriving DecidableEq, Repr

/-- An entry to banked or ember under way (R584, R585). -/
structure PsEntry where
  target : Nat
  force : Bool
  /-- state to which an abandoned entry goes back -/
  before : Nat
  /-- blocks that have accepted, by code of Table 20-2, and blocks that delay -/
  accepted : List Nat := []
  delaying : List Nat := []
  /-- forge time of the point of no return -/
  past : Option Nat := none
  /-- a wake recognised since: its sources (R601) -/
  wake : Option (Nat × Nat × Bool) := none
deriving DecidableEq, Repr

/-- The test access port (chapter 23): instruction register, cells of the boundary register, whether an instruction holds
the hub in warm reset (R658), and what the latest MEMACC captured: data and refusal. -/
structure JtagX where
  ir : Nat := 1
  cells : List Nat := []
  held : Bool := false
  capture : Nat := 0
  refused : Bool := false
deriving DecidableEq, Repr

/-- Start-up, power states, mailboxes, SMBus and test, beside their registers (chapters 20, 21 and 23). -/
structure Ctl where
  /-- what firmware ready will complete: 0 nothing, 1 a cold start, 2 a warm reset (R596, R598) -/
  boot : Nat := 1
  /-- RESET_N is low -/
  resetLow : Bool := false
  /-- a SYS.RESET warm waits for its boundary; a warm reset is due, with its cause (R620) -/
  resetAsk : Bool := false
  resetDue : Option Nat := none
  /-- a warm reset follows the return (R601) -/
  resetWake : Bool := false
  /-- straps sampled at power-on (R638); those of the line ports stand in their registers -/
  hbcompat : Bool := false
  smbadr : Nat := 0
  /-- mailboxes whose command is accepted and not served, in service order (R614) -/
  order : List Nat := []
  /-- commands in WAITING, by mailbox: opcode and action (R616); for those whose action has ended and whose completion step
  stands in the service order, how: 1 as it should, 2 without success -/
  parked : Tab (Option (Nat × Parked)) := []
  ended : Tab Nat := []
  /-- SMBus pointer, and SCL held low (R588, R621) -/
  smbPtr : Nat := 0
  smbHeld : Bool := false
  /-- the entry to banked or ember under way (R584) -/
  entry : Option PsEntry := none
  /-- status with which the latest entry ended, until it is answered (R629) -/
  entryEnd : Option Nat := none
  /-- the return in progress is from ember; its LP5 contents are lost (R594) -/
  fromEmber : Bool := false
  lp5Lost : Bool := false
  /-- ports that recognised a partner in ember (R589) -/
  seen : List Nat := []
  /-- bytes of patch memory in use, by index (R631) -/
  patchLen : Tab Nat := []
  /-- the test access port (chapter 23) -/
  jtag : JtagX := {}
deriving DecidableEq, Repr

/-- What the hub drives outwards, in the order driven. The names of control words and pins are the manual's. -/
inductive Out where
  /-- a link unit, on the port with this code; the rows that carry it are outputs beside it, and so for what follows -/
  | lu (port : Nat) (u : TxLu)
  /-- a control block -/
  | ctrl (port : Nat) (block : Nat)
  /-- a row: for each lane driven, its sync header and its payload bits as sent, scrambled but in ALIGN and TRAIN (R107) -/
  | row (port : Nat) (lanes : List (Nat × Nat × Nat))
  /-- a frame handed to the engine behind the port with this code -/
  | frame (port : Nat) (f : Frame)
  /-- a strike row -/
  | strike (port : Nat) (x : Strike)
  /-- a pin, by name and index, and the level or value driven -/
  | pin (name : String) (i : Nat) (v : Nat)
  /-- any other output, as words -/
  | words (name : String) (i : Nat) (ws : List Nat)
deriving DecidableEq, Repr

/-- The hub: its registers and the rest of its state. -/
structure Hub where
  /-- every register field that differs from its reset value -/
  regs : Tab Nat := []
  /-- the fault collector (chapter 18) -/
  col : Collector := {}
  /-- the tick unit (chapter 2) -/
  tick : TickSt := {}
  /-- the ordering grade of the part (R1) -/
  grade : Grade := .f
  /-- the tunnel table (chapter 3) -/
  tun : Tunnels := {}
  /-- link layer by port code (chapter 4) -/
  links : Tab LinkEnd := []
  /-- the hearth and the schedulers (chapters 7 and 8) -/
  hearth : Hearth := {}
  /-- Security (chapter 19) -/
  sec : Security := {}
  /-- fences by trunk code (R152) -/
  fence : Tab FenceSt := []
  /-- failover by trunk code (chapter 10) -/
  fo : Tab FailoverSt := []
  /-- lane layer by port code (chapter 5) -/
  ports : Tab PortLanes := []
  /-- the flash path (chapter 6) -/
  flash : Flash := {}
  /-- plans (chapter 9) -/
  plans : Plans := {}
  /-- line ports (chapter 11) -/
  lines : Tab LineX := []
  /-- the bridge (chapter 12) -/
  bridge : Bridge := {}
  /-- the LP5 controller (chapter 14) -/
  lp5 : Lp5St := {}
  /-- raster heads, DP outputs and DMA channels (chapters 13 and 14) -/
  media : Media := {}
  /-- the Power region (chapters 16 and 17) -/
  power : PowerSt := {}
  /-- USB (chapter 15) -/
  usb : UsbX := {}
  /-- start-up, power states, mailboxes, SMBus and test (chapters 20, 21 and 23) -/
  ctl : Ctl := {}
  /-- what has been driven outwards, newest first (the model's own field) -/
  out : List Out := []
  /-- how many free values have been drawn (the model's own field) -/
  drawn : Nat := 0
deriving DecidableEq, Repr

structure State where
  hub : Hub
  mem : List Host.Cell
  pending : List Instr
deriving DecidableEq, Repr

/-- The hub right after cold reset, with the straps read as 0: every register field at its reset value but ALT_EGR of the
four summary tunnels, which R72 gives; no memory, nothing waiting (assumption 2). -/
def State.reset : State :=
  ⟨{ regs := [((R.ttAltEgr 6).key, 2), ((R.ttAltEgr 7).key, 3), ((R.ttAltEgr 8).key, 4), ((R.ttAltEgr 9).key, 1)] }, [], []⟩

end Sys2Proof.Machine
end

