-- ==== Sys2Proof/Machine/Ops.lean ====
section
/-!
DEFINITION. The named operations that every meaning is built from: sparse tables, register fields, counters, free
values, outputs, and the accessors of the parts of the state that are kept per port, per tunnel or per unit.
-/

namespace Sys2Proof.Machine

open Sys2Proof

/-- Look a key up in a table. -/
def tabFind {α : Type} : Tab α → Key → Option α
  | [], _ => none
  | (k', v) :: t, k => if k' = k then some v else tabFind t k

/-- What a table holds at a key, or its default. -/
def tabGet {α : Type} (t : Tab α) (k : Key) (d : α) : α := (tabFind t k).getD d

/-- Remove a key. -/
def tabErase {α : Type} : Tab α → Key → Tab α
  | [], _ => []
  | (k', v) :: t, k => if k' = k then tabErase t k else (k', v) :: tabErase t k

/-- Enter a value; a sorted table stays sorted. -/
def tabPut {α : Type} : Tab α → Key → α → Tab α
  | [], k, v => [(k, v)]
  | (k', v') :: t, k, v =>
    if k' = k then (k, v) :: t
    else if k.lt k' then (k, v) :: (k', v') :: t
    else (k', v') :: tabPut t k v

/-- Enter a value, or remove the key where the value is the default, so that a table lists no default. -/
def tabSet {α : Type} [DecidableEq α] (t : Tab α) (k : Key) (v d : α) : Tab α :=
  if v = d then tabErase t k else tabPut t k v

/-- The key of copy `i` of what a table is about. -/
def k1 (i : Nat) : Key := ⟨0, i, 0⟩

/-- The key of copy `(i, j)` of what a table is about. -/
def k2 (i j : Nat) : Key := ⟨0, i, j⟩

/-- What a register field reads as (R4). -/
def Hub.get (h : Hub) (f : Fld) : Nat := tabGet h.regs f.key f.reset % 2 ^ f.width

/-- Write a register field: bits above its width are lost; a field at its reset value is not listed. -/
def Hub.set (h : Hub) (f : Fld) (v : Nat) : Hub :=
  { h with regs := tabSet h.regs f.key (v % 2 ^ f.width) f.reset }

/-- A one-bit field as a truth value. -/
def Hub.flag (h : Hub) (f : Fld) : Bool := h.get f == 1

/-- Write a one-bit field. -/
def Hub.setFlag (h : Hub) (f : Fld) (b : Bool) : Hub := h.set f (b2n b)

/-- Count `n` up, saturating at the field's largest value (R7). -/
def Hub.add (h : Hub) (f : Fld) (n : Nat) : Hub := h.set f (min (h.get f + n) (2 ^ f.width - 1))

/-- Count one up, saturating (R7). -/
def Hub.inc (h : Hub) (f : Fld) : Hub := h.add f 1

/-- Count one up, wrapping. -/
def Hub.incWrap (h : Hub) (f : Fld) : Hub := h.set f (h.get f + 1)

/-- Write a list of fields in order. -/
def Hub.setAll (h : Hub) (l : List (Fld × Nat)) : Hub := l.foldl (fun h p => h.set p.1 p.2) h

/-- Give a field its reset value. -/
def Hub.toReset (h : Hub) (f : Fld) : Hub := { h with regs := tabErase h.regs f.key }

/-- Give every field of a list its reset value. -/
def Hub.resetAll (h : Hub) (l : List Fld) : Hub := l.foldl Hub.toReset h

/-- Drive something outwards. -/
def Hub.emit (h : Hub) (o : Out) : Hub := { h with out := o :: h.out }

/-- An event signal of Table 23-2 happens: each OBS pin that shows it pulses, value 2 (R661). -/
def Hub.obsEvent (h : Hub) (region sig : Nat) : Hub :=
  (List.range 8).foldl (fun h p =>
    if h.flag (R.obsEn p) && h.get (R.obsRegion p) == region && h.get (R.obsSignal p) == sig then h.emit (.pin "OBS" p 2)
    else h) h

/-- Draw a value that the manual leaves open, of `w` bits (assumption 11). -/
def Hub.draw (h : Hub) (w : Nat) : Nat × Hub :=
  (Config.free h.drawn % 2 ^ w, { h with drawn := h.drawn + 1 })

/-- Do `f` when `c` holds. -/
def Hub.when (h : Hub) (c : Bool) (f : Hub → Hub) : Hub := if c then f h else h

/-- Do `f` for each item of a list, in order. -/
def Hub.each {α : Type} (h : Hub) (l : List α) (f : Hub → α → Hub) : Hub := l.foldl f h

/-- Forge time (R51). -/
def Hub.now (h : Hub) : Nat := h.tick.now

/-- Core clock cycles, which only run on (R51). -/
def Hub.cyc (h : Hub) : Nat := h.tick.cyc

/-- The largest forge time: the count has 64 bits and never decreases (R51). -/
def timeMax : Nat := 2 ^ 64 - 1

/-- One core clock cycle: forge time advances by 1, and by 2 or 0 on every 2,000th cycle while a correction is slewed
(R51, R57). -/
def TickSt.cycle (t : TickSt) : TickSt :=
  if t.slew = 0 then { t with now := min timeMax (t.now + 1), cyc := t.cyc + 1, slewAcc := 0 }
  else if t.slewAcc < 1999 then { t with now := min timeMax (t.now + 1), cyc := t.cyc + 1, slewAcc := t.slewAcc + 1 }
  else if 0 < t.slew then { t with now := min timeMax (t.now + 2), cyc := t.cyc + 1, slewAcc := 0, slew := t.slew - 1 }
  else { t with cyc := t.cyc + 1, slewAcc := 0, slew := t.slew + 1 }

/-- `d` nanoseconds of forge time pass: the cycles that this takes, and what is slewed meanwhile, one nanosecond in 2,000
cycles (R48, R57). -/
def TickSt.pass (t : TickSt) (d : Nat) : TickSt :=
  let q := min t.slew.natAbs ((t.slewAcc + d) / (if t.slew < 0 then 1999 else 2001))
  let c := if t.slew < 0 then d + q else d - q
  { t with now := min timeMax (t.now + d), cyc := t.cyc + c,
           slew := if t.slew < 0 then t.slew + q else t.slew - q,
           slewAcc := if t.slew.natAbs = q then 0 else t.slewAcc + c - 2000 * q }

/-- Forge time runs on to `at_`, where that is still to come. -/
def Hub.timeTo (h : Hub) (at_ : Nat) : Hub := { h with tick := h.tick.pass (at_ - h.tick.now) }

/-- The tick number (R47). -/
def Hub.tickNum (h : Hub) : Nat := h.tick.num

/-- The tick period P in force, ns (R46). -/
def Hub.tickPeriod (h : Hub) : Nat := h.get R.tickPeriod * 500

/-- The tick that contains forge time `t`, at or after the latest boundary: its number, the forge time of its boundary,
and the period code in force, a pending period change counted (R48, R49). -/
def Hub.tickAt (h : Hub) (t : Nat) : Nat × Nat × Nat :=
  let p := max 1 h.tickPeriod
  let k := (t - h.tick.last) / p
  let j := h.tick.pendAt - h.tickNum
  if h.flag R.tickPend && decide (j ≤ k) then
    let b := h.tick.last + j * p
    let q := max 1 (h.get R.tickNext * 500)
    let i := (t - b) / q
    (h.tickNum + j + i, b + i * q, h.get R.tickNext)
  else (h.tickNum + k, h.tick.last + k * p, h.get R.tickPeriod)

/-- Forge time of boundary `n`: as it was noted, or counted back in present periods where it is older (assumption 48). -/
def Hub.boundaryOf (h : Hub) (n : Nat) : Nat :=
  match h.tick.bounds.find? (fun b => b.1 == n) with
  | some b => b.2
  | none => h.tick.last - (h.tickNum - n) * h.tickPeriod

/-- Words as payload bytes (R6). -/
def wordBytes (l : List Nat) : List Byte := l.flatMap (leBytes 4)

/-- Payload bytes as words. -/
def bytesWords (l : List Byte) : List Nat := (List.range (l.length / 4)).map (fun i => leWord ((l.drop (4 * i)).take 4))

/-- A 48-bit tick number or a 64-bit time as two words (R608). -/
def twoWords (v : Nat) : List Nat := [v % 2 ^ 32, v / 2 ^ 32 % 2 ^ 32]

/-- A command whose effect is on the hub alone: waiting commands and LP5 memory stay as they are. -/
def State.onHub (s : State) (f : Hub → Hub) : Host.Outcome State Fault Refusal := .next { s with hub := f s.hub }

/-! Port codes (Table 3-2). -/

/-- Is this the code of a trunk? -/
def isTrunk (c : Nat) : Bool := decide (1 ≤ c) && decide (c ≤ 4)

/-- Is this the code of a line port? -/
def isLine (c : Nat) : Bool := decide (5 ≤ c) && decide (c ≤ 20)

/-- Is this the code of an engine port? -/
def isEngine (c : Nat) : Bool := decide (21 ≤ c) && decide (c ≤ 24)

/-- Is this the code of a trunk or a line port? -/
def isLink (c : Nat) : Bool := isTrunk c || isLine c

def codeE0 : Nat := 21
def codeE1 : Nat := 22
def codeE2 : Nat := 23
def codeE3 : Nat := 24

/-- The link layer of the port with code `c`. -/
def Hub.link (h : Hub) (c : Nat) : LinkEnd := tabGet h.links (k1 c) {}

/-- Change the link layer of the port with code `c`. -/
def Hub.modLink (h : Hub) (c : Nat) (f : LinkEnd → LinkEnd) : Hub :=
  { h with links := tabSet h.links (k1 c) (f (h.link c)) {} }

/-- The queue of one direction of a tunnel: 0 forward, 1 reverse (R266). -/
def Hub.queue (h : Hub) (tid dir : Nat) : Queue := tabGet h.hearth.queues (k2 tid dir) {}

/-- Change a queue. -/
def Hub.modQueue (h : Hub) (tid dir : Nat) (f : Queue → Queue) : Hub :=
  { h with hearth := { h.hearth with queues := tabSet h.hearth.queues (k2 tid dir) (f (h.queue tid dir)) {} } }

/-- The scheduler of the egress with code `c`. -/
def Hub.egress (h : Hub) (c : Nat) : Egress := tabGet h.hearth.egress (k1 c) {}

/-- Change a scheduler. -/
def Hub.modEgress (h : Hub) (c : Nat) (f : Egress → Egress) : Hub :=
  { h with hearth := { h.hearth with egress := tabSet h.hearth.egress (k1 c) (f (h.egress c)) {} } }

/-- Frames held at an ingress in one credit class (R245). -/
def Hub.held (h : Hub) (code ccls : Nat) : List QFrame := tabGet h.hearth.held (k2 code ccls) []

/-- Change the held frames of an ingress and credit class. -/
def Hub.setHeld (h : Hub) (code ccls : Nat) (l : List QFrame) : Hub :=
  { h with hearth := { h.hearth with held := tabSet h.hearth.held (k2 code ccls) l [] } }

/-- Fence state of the trunk with code `c`. -/
def Hub.fenceOf (h : Hub) (c : Nat) : FenceSt := tabGet h.fence (k1 c) {}

/-- Change fence state. -/
def Hub.setFence (h : Hub) (c : Nat) (x : FenceSt) : Hub := { h with fence := tabSet h.fence (k1 c) x {} }

/-- What the hub keeps of a tunnel beside its registers. -/
def Hub.tunX (h : Hub) (tid : Nat) : TunX := tabGet h.tun.x (k1 tid) {}

/-- Change what the hub keeps of a tunnel. -/
def Hub.modTunX (h : Hub) (tid : Nat) (f : TunX → TunX) : Hub :=
  { h with tun := { h.tun with x := tabSet h.tun.x (k1 tid) (f (h.tunX tid)) {} } }

/-- Failover state of the trunk with code `c`. -/
def Hub.failover (h : Hub) (c : Nat) : FailoverSt := tabGet h.fo (k1 c) {}

/-- Change failover state. -/
def Hub.modFailover (h : Hub) (c : Nat) (f : FailoverSt → FailoverSt) : Hub :=
  { h with fo := tabSet h.fo (k1 c) (f (h.failover c)) {} }

/-- The lane layer of the port with code `c`. -/
def Hub.port (h : Hub) (c : Nat) : PortLanes := tabGet h.ports (k1 c) {}

/-- Change the lane layer of a port. -/
def Hub.modPort (h : Hub) (c : Nat) (f : PortLanes → PortLanes) : Hub :=
  { h with ports := tabSet h.ports (k1 c) (f (h.port c)) {} }

/-- One lane of a port. -/
def Hub.laneX (h : Hub) (c l : Nat) : LaneX := tabGet (h.port c).lanes (k1 l) {}

/-- Change one lane of a port. -/
def Hub.modLane (h : Hub) (c l : Nat) (f : LaneX → LaneX) : Hub :=
  h.modPort c (fun p => { p with lanes := tabSet p.lanes (k1 l) (f (h.laneX c l)) {} })

/-- The strike unit of the port with code `c`. -/
def Hub.stk (h : Hub) (c : Nat) : StrikePort := tabGet h.flash.ports (k1 c) {}

/-- Change a strike unit. -/
def Hub.modStk (h : Hub) (c : Nat) (f : StrikePort → StrikePort) : Hub :=
  { h with flash := { h.flash with ports := tabSet h.flash.ports (k1 c) (f (h.stk c)) {} } }

/-- A TRIG_OUT pin. -/
def Hub.trigOut (h : Hub) (k : Nat) : TrigOut := tabGet h.flash.outs (k1 k) {}

/-- Change a TRIG_OUT pin, and drive it where its drive changes. -/
def Hub.setTrigOut (h : Hub) (k : Nat) (x : TrigOut) : Hub :=
  let same := (h.trigOut k).drive == x.drive
  let h := { h with flash := { h.flash with outs := tabSet h.flash.outs (k1 k) x {} } }
  if same then h else h.emit (.pin "TRIG_OUT" k x.drive)

/-- The crossing of a channel. -/
def Hub.crossing (h : Hub) (ch : Nat) : Crossing := tabGet h.flash.cross (k1 ch) {}

/-- Change the crossing of a channel. -/
def Hub.setCrossing (h : Hub) (ch : Nat) (x : Crossing) : Hub :=
  { h with flash := { h.flash with cross := tabSet h.flash.cross (k1 ch) x {} } }

/-- Blocks contained under a shared source. -/
def Hub.blocksOf (h : Hub) (i : Nat) : List Nat := tabGet h.col.blocks (k1 i) []

/-- Replace the blocks contained under a shared source. -/
def Hub.setBlocks (h : Hub) (i : Nat) (l : List Nat) : Hub :=
  { h with col := { h.col with blocks := tabSet h.col.blocks (k1 i) l [] } }

end Sys2Proof.Machine
end

