-- ==== Sys2Proof/Machine/Collector.lean ====
section
/-!
DEFINITION. The fault collector (chapter 18): latching, the fault log, FAULT_N, quench, clear and the summary word.
What a latched source does to its block (containment, safe state) is in Contain.lean.
-/

namespace Sys2Proof.Machine

open Sys2Proof

/-! Source numbers of Table 18-1. -/

def srcLinkSilent (n : Nat) : Nat := 8 * n
def srcLinkProto (n : Nat) : Nat := 8 * n + 1
def srcCrdStall (n : Nat) : Nat := 8 * n + 2
def srcLaneWidth (n : Nat) : Nat := 8 * n + 3
def srcLaneDegrade (n : Nat) : Nat := 8 * n + 4
def srcTrnFail (n : Nat) : Nat := 8 * n + 5
def srcTemperRange (n : Nat) : Nat := 8 * n + 6
def srcSpareMism (n : Nat) : Nat := 8 * n + 7
def srcLpFail (n : Nat) : Nat := 32 + 2 * n
def srcLpWarn (n : Nat) : Nat := 33 + 2 * n
def srcBufEcc : Nat := 64
def srcBufReplay : Nat := 65
def srcBufLink : Nat := 66
def srcBufLeak : Nat := 67
def srcBufHold : Nat := 68
def srcBufPressure : Nat := 69
def srcSeqGap : Nat := 70
def srcSchStarve : Nat := 71
def srcStkLost : Nat := 72
def srcStkUnconf : Nat := 73
def srcStkSummary : Nat := 74
def srcStkXovf : Nat := 75
def srcRasterUnder (n : Nat) : Nat := 96 + n
def srcWitMism (n : Nat) : Nat := 104 + n
def srcDpLink (n : Nat) : Nat := 112 + n
def srcDpTrim (n : Nat) : Nat := 114 + n
def srcLp5Train : Nat := 116
def srcLp5Degrade : Nat := 117
def srcLp5Ecc : Nat := 118
def srcDmaErr : Nat := 119
def srcStage (n : Nat) : Nat := 128 + n
def srcFeed (f : Nat) : Nat := 144 + f
def srcFeedNone : Nat := 146
def srcFeedWarn : Nat := 147
def srcStartStall : Nat := 148
def srcAdcTrim : Nat := 149
def srcAdcLost : Nat := 150
def srcPdFault : Nat := 151
def srcLate : Nat := 160
def srcHoldLost : Nat := 161
def srcMirrorFull : Nat := 162
def srcTagFail (n : Nat) : Nat := 192 + n
def srcAuthFail (n : Nat) : Nat := 196 + n
def srcSvcAuth : Nat := 200
def srcPatchRej : Nat := 201
def srcTestRoot : Nat := 202
def srcTickOvr : Nat := 224
def srcTimeRej : Nat := 225
def srcOwnerLost : Nat := 226
def srcCoreWdog : Nat := 227
def srcRefclkLoss : Nat := 228
def srcThermWarn : Nat := 229
def srcThermCrit : Nat := 230
def srcLogOvf : Nat := 231

/-- Is source `i` latched (R542)? -/
def Hub.latched (h : Hub) (i : Nat) : Bool := bit (h.get (R.fcStatus (i / 32))) (i % 32)

/-- The sources that are latched and assigned. -/
def Hub.latchedList (h : Hub) : List Nat := (List.range 256).filter (fun i => h.latched i)

/-- Is source `i` sticky (R548)? -/
def Hub.sticky (h : Hub) (i : Nat) : Bool := h.flag (R.srcSticky i)

/-- Is safe state in force (R546)? -/
def Hub.safe (h : Hub) : Bool := (List.range 256).any (fun i => h.latched i && (h.get (R.srcRsev i) == 3))

/-- Is the containment of source `i` in force: latched at severity 2 or 3 (Table 18-2)? -/
def Hub.contained (h : Hub) (i : Nat) : Bool := h.latched i && decide (2 ≤ h.get (R.srcRsev i))

/-- Is the port with code `c` held down by BUF_REPLAY: contained for it and sticky (R545, R548)? -/
def Hub.replayHeld (h : Hub) (c : Nat) : Bool :=
  h.contained srcBufReplay && h.sticky srcBufReplay && (h.blocksOf srcBufReplay).contains c

/-- Level of the source's line: the block's signal or FORCE (R542, R550). -/
def Hub.settleActive (h : Hub) (i : Nat) : Hub :=
  h.setFlag (R.srcActive i) (h.col.sig.contains i || h.flag (R.srcForce i))

/-- Write one entry in the ring; the answer says whether an entry not yet read was overwritten (R553). -/
def Hub.logPut (h : Hub) (e : LogEntry) : Bool × Hub :=
  let k := h.get R.fcolNext
  let full := decide (256 ≤ h.get R.fcolCount)
  let unread := full && (match tabFind h.col.log (k1 k) with | some o => !o.taken | none => false)
  let h := { h with col := { h.col with log := tabPut h.col.log (k1 k) e, fresh := h.col.fresh ++ [e] } }
  let h := if full then h.inc R.fcolOvfCnt else h.inc R.fcolCount
  (unread, h.incWrap R.fcolNext)

/-- The entry that source `i` would write now (R554). -/
def Hub.entryOf (h : Hub) (i evt : Nat) (forced : Bool) : LogEntry :=
  { evt := evt, rsev := h.get (R.srcRsev i), forced := forced, src := i, rcnt := h.get (R.srcRcnt i),
    detail := h.get (R.srcDetail i), occ := h.get (R.srcOcc i), ftime := h.now }

/-- Drive FAULT_N low or release it, where that changes it. -/
def Hub.driveFaultN (h : Hub) (low : Bool) : Hub :=
  if h.flag R.fcolLow == low then h
  else (h.setFlag R.fcolLow low).emit (.pin "FAULT_N" 0 (b2n !low))

/-- FAULT_N at a latching of source `i` (R551). -/
def Hub.faultNLatch (h : Hub) (i : Nat) : Hub :=
  if h.flag (R.srcFnEn i) then
    ({ h with col := { h.col with pulse := true, relAsked := false } }).driveFaultN true
  else h

/-- LOG_OVF (R553, Table 18-1): a rise of its own source, whose entry goes into the full ring. -/
def Hub.logOverflow (h : Hub) : Hub :=
  if h.latched srcLogOvf then h.inc (R.srcOcc srcLogOvf)
  else
    let h := h.set (R.fcStatus 7) (setBit (h.get (R.fcStatus 7)) 7)
    let h := h.set (R.srcRsev srcLogOvf) (h.get (R.srcSev srcLogOvf))
    let stick := h.get (R.srcRcnt srcLogOvf) == h.get (R.srcLimit srcLogOvf)
    let h := h.setFlag (R.srcSticky srcLogOvf) stick
    let (o, h) := h.logPut (h.entryOf srcLogOvf (if stick then 4 else 1) false)
    ((h.set (R.srcOcc srcLogOvf) 0).faultNLatch srcLogOvf).when o (fun h => h.inc (R.srcOcc srcLogOvf))

/-- Write a log entry of source `i`; OCC goes into it and starts again (R553). -/
def Hub.logEvent (h : Hub) (i evt : Nat) (forced : Bool) : Hub :=
  let (o, h) := h.logPut (h.entryOf i evt forced)
  (h.set (R.srcOcc i) 0).when o Hub.logOverflow

/-- Does any latched source drive FAULT_N? -/
def Hub.faultNWanted (h : Hub) : Bool := (List.range 256).any (fun i => h.latched i && h.flag (R.srcFnEn i))

/-- FAULT_N once PW has passed since the last latching that drives it (Table 18-3). -/
def Hub.faultNRest (h : Hub) : Hub :=
  if h.col.pulse then h
  else match h.get R.fcolMode with
    | 0 => h.driveFaultN false
    | 1 => h
    | _ => h.driveFaultN h.faultNWanted

/-- The forged or real rise of source `i` as the collector handles it (R23 to R26, R543, R548, R553).
The answer says whether the source latched with this rise. -/
def Hub.rise (h : Hub) (i detail : Nat) (forced : Bool) : Bool × Hub :=
  let h := h.set (R.srcDetail i) detail
  if h.latched i then (false, h.inc (R.srcOcc i))
  else
    let h := h.set (R.fcStatus (i / 32)) (setBit (h.get (R.fcStatus (i / 32))) (i % 32))
    let h := h.set (R.srcRsev i) (h.get (R.srcSev i))
    let stick := h.get (R.srcRcnt i) == h.get (R.srcLimit i)
    let h := h.setFlag (R.srcSticky i) stick
    let h := h.logEvent i (if stick then 4 else 1) forced
    (true, h.faultNLatch i)

/-- A block raises source `i`: its signal goes high and the rise is handled, without the source's containment
(Contain.lean adds that). -/
def Hub.latch (h : Hub) (i detail : Nat) : Bool × Hub :=
  let h := { h with col := { h.col with sig := if h.col.sig.contains i then h.col.sig else h.col.sig ++ [i] } }
  (h.settleActive i).rise i detail false

/-- A block raises source `i`: it is handled before the command ends (Contain.lean). -/
def Hub.raise (h : Hub) (i detail : Nat) : Hub := { h with col := { h.col with wants := h.col.wants ++ [(i, detail)] } }

/-- The block's signal of source `i` falls (R547). -/
def Hub.fall (h : Hub) (i : Nat) : Hub :=
  ({ h with col := { h.col with sig := h.col.sig.filter (· ≠ i) } }).settleActive i

/-- The status bit of source `i` clears and its reaction ends (R546, R547, R549). -/
def Hub.unlatch (h : Hub) (i : Nat) : Hub :=
  let h := h.set (R.fcStatus (i / 32)) (clrBit (h.get (R.fcStatus (i / 32))) (i % 32))
  (h.setFlag (R.srcSticky i) false).faultNRest

/-- May source `i` quench when its timer reaches QPER (R547)? -/
def Hub.mayQuench (h : Hub) (i : Nat) : Bool :=
  h.latched i && !h.flag (R.srcActive i) && !h.flag (R.srcForce i) && !h.sticky i && (h.get (R.srcQper i) != 0)

/-- Does a host's clear of source `i` take effect (R25, R549)? -/
def Hub.mayClear (h : Hub) (i : Nat) : Bool := h.latched i && !h.flag (R.srcActive i)

/-- CTL_FC_SUMMARY (Table 1-8). -/
def Hub.summary (h : Hub) : Nat :=
  let regionHas (r sev : Nat) : Bool :=
    (List.range 32).any (fun b => h.latched (32 * r + b) && decide (sev ≤ h.get (R.srcRsev (32 * r + b))))
  let field (sev : Nat) : Nat := ((List.range 8).map (fun r => b2n (regionHas r sev) * 2 ^ r)).sum
  let pend : Nat := ((List.range 8).map (fun r => b2n (h.get (R.fcStatus r) != 0) * 2 ^ r)).sum
  b2n h.safe * 2 ^ 24 + field 2 * 2 ^ 16 + field 1 * 2 ^ 8 + pend

/-- The four words of a log entry or fault record (Table 18-4). -/
def LogEntry.words (e : LogEntry) (lost : Nat) : List Nat :=
  [0x15 * 2 ^ 24 + e.evt * 2 ^ 21 + e.rsev * 2 ^ 19 + b2n e.forced * 2 ^ 18 + (e.src / 32) * 2 ^ 13 +
     (e.src % 32) * 2 ^ 8 + e.rcnt * 16,
   e.detail * 2 ^ 16 + e.occ * 2 ^ 8 + lost,
   e.ftime % 2 ^ 32, e.ftime / 2 ^ 32 % 2 ^ 32]

/-- A cold reset of the collector (R557): every bit, counter and entry clears and FAULT_N is released. -/
def Hub.collectorCold (h : Hub) : Hub := { h with col := {} }

end Sys2Proof.Machine
end

