-- ==== Sys2Proof/Machine/Operands.lean ====
section
/-!
DEFINITION. The operand forms that commands and registers share: encoded rates and bursts, tunnel descriptors and their
32-bit words, port-share words, and the checks that a reserved encoding fails.
-/

namespace Sys2Proof.Machine

open Sys2Proof

/-- A rate in b/s from its exponent and mantissa (Table 3-7). -/
def rateBps (e m : Nat) : Nat := m * 2 ^ e * 100000

/-- A burst in bytes from its exponent and mantissa (Table 3-7). -/
def burstBytes (e m : Nat) : Nat := m * 2 ^ e * 64

/-- A bellows or band limiter setting: enable, rate exponent and mantissa, burst exponent and mantissa (Table 3-7). -/
structure BelSet where
  en : Bool
  rateE : Nat
  rateM : Nat
  burstE : Nat
  burstM : Nat
deriving DecidableEq, Repr

/-- Read a word with the layout of Table 3-7. -/
def belOfWord (w : Nat) : BelSet :=
  ⟨bit w 31, bits w 30 27, bits w 26 15, bits w 14 11, bits w 10 3⟩

/-- The word of a bellows setting (Table 3-7). -/
def BelSet.word (b : BelSet) : Nat :=
  b2n b.en * 2 ^ 31 + b.rateE * 2 ^ 27 + b.rateM * 2 ^ 15 + b.burstE * 2 ^ 11 + b.burstM * 8

/-- The encoded rate, b/s. -/
def BelSet.rate (b : BelSet) : Nat := rateBps b.rateE b.rateM

/-- The encoded burst, bytes. -/
def BelSet.burst (b : BelSet) : Nat := burstBytes b.burstE b.burstM

/-- Forward bellows fields of a tunnel. -/
def Hub.belF (h : Hub) (t : Nat) : BelSet :=
  ⟨h.flag (R.ttFben t), h.get (R.ttFrateE t), h.get (R.ttFrateM t), h.get (R.ttFburstE t), h.get (R.ttFburstM t)⟩

/-- Reverse bellows fields of a tunnel. -/
def Hub.belR (h : Hub) (t : Nat) : BelSet :=
  ⟨h.flag (R.ttRben t), h.get (R.ttRrateE t), h.get (R.ttRrateM t), h.get (R.ttRburstE t), h.get (R.ttRburstM t)⟩

/-- Bellows of one direction (R276). -/
def Hub.bel (h : Hub) (t dir : Nat) : BelSet := if dir = 0 then h.belF t else h.belR t

/-- Weight of one direction (R76). -/
def Hub.weight (h : Hub) (t dir : Nat) : Nat := h.get (if dir = 0 then R.ttWeight t else R.ttRweight t)

/-- Profile of one direction (R76). -/
def Hub.profileOf (h : Hub) (t dir : Nat) : Nat := h.get (if dir = 0 then R.ttProfile t else R.ttRprofile t)

/-- Buffer limit of one direction, in units of 64 cells (R76). -/
def Hub.buflim (h : Hub) (t dir : Nat) : Nat := h.get (if dir = 0 then R.ttBuflim t else R.ttRbuflim t)

/-- Is a tunnel ID a system tunnel (R70)? -/
def isSys (t : Nat) : Bool := decide (t < 16)

/-- Is a tunnel ID a user tunnel (R70)? -/
def isUser (t : Nat) : Bool := decide (16 ≤ t) && decide (t < 4096)

/-- Credit class of a tunnel class (Table 4-4). -/
def cclsOf (cls : Nat) : Nat :=
  match cls with
  | 2 => 1
  | 3 => 2
  | 5 => 2
  | 4 => 3
  | 6 => 3
  | _ => 0

/-- Are frames of a tunnel class replayed on failover (Table 1-9)? -/
def replayedClass (cls : Nat) : Bool := cls == 0 || cls == 3 || cls == 5

/-- The descriptor in force, as its settable fields. -/
def Hub.desc (h : Hub) (t : Nat) : Desc :=
  { cls := h.get (R.ttClass t), own := h.get (R.ttOwn t), bidir := h.get (R.ttBidir t), maxlen := h.get (R.ttMaxlen t),
    lp5w := h.get (R.ttLp5w t), line := h.get (R.ttLine t), altTrk := h.get (R.ttAltTrk t),
    altEgr := h.get (R.ttAltEgr t), egr := h.get (R.ttEgr t), ingr := h.get (R.ttIngr t),
    smode := h.get (R.ttSmode t), weight := h.get (R.ttWeight t), profile := h.get (R.ttProfile t),
    buflim := h.get (R.ttBuflim t), bel := (h.belF t).word, rbel := (h.belR t).word,
    rweight := h.get (R.ttRweight t), rprofile := h.get (R.ttRprofile t), rbuflim := h.get (R.ttRbuflim t),
    cookie := h.get (R.ttCookie t) }

/-- Write the fields of a descriptor that R100 lets change in an open tunnel. -/
def Hub.setTune (h : Hub) (t : Nat) (d : Desc) : Hub :=
  let b := belOfWord d.bel
  let r := belOfWord d.rbel
  h.setAll [(R.ttMaxlen t, d.maxlen), (R.ttAltTrk t, d.altTrk), (R.ttAltEgr t, d.altEgr), (R.ttSmode t, d.smode),
    (R.ttWeight t, d.weight), (R.ttProfile t, d.profile), (R.ttBuflim t, d.buflim), (R.ttFben t, b2n b.en),
    (R.ttFrateE t, b.rateE), (R.ttFrateM t, b.rateM), (R.ttFburstE t, b.burstE), (R.ttFburstM t, b.burstM),
    (R.ttRben t, b2n r.en), (R.ttRrateE t, r.rateE), (R.ttRrateM t, r.rateM), (R.ttRburstE t, r.burstE),
    (R.ttRburstM t, r.burstM), (R.ttRweight t, d.rweight), (R.ttRprofile t, d.rprofile), (R.ttRbuflim t, d.rbuflim),
    (R.ttCookie t, d.cookie)]

/-- Write the role fields (R74). -/
def Hub.setRole (h : Hub) (t : Nat) (d : Desc) : Hub :=
  h.setAll [(R.ttClass t, d.cls), (R.ttOwn t, d.own), (R.ttBidir t, d.bidir), (R.ttIngr t, d.ingr),
    (R.ttEgr t, d.egr), (R.ttLine t, d.line), (R.ttLp5w t, d.lp5w)]

/-- The descriptor that the words of Tables 3-4 to 3-8 spell. -/
def descOfWords (w0 w1 w2 w3 w4 w5 w6 : Nat) : Desc :=
  { cls := bits w0 27 25, own := bits w0 21 18, bidir := bits w0 17 17, maxlen := bits w0 13 0,
    lp5w := bits w1 29 25, line := bits w1 24 20, altTrk := bits w1 19 15, altEgr := bits w1 14 10,
    egr := bits w1 9 5, ingr := bits w1 4 0, smode := bits w2 31 30, weight := bits w2 27 16,
    profile := bits w2 15 8, buflim := bits w2 7 0, bel := w3, rbel := w4, rweight := bits w5 27 16,
    rprofile := bits w5 15 8, rbuflim := bits w5 7 0, cookie := bits w6 15 0 }

/-- Do the read-only and reserved bits of the descriptor words hold 0 (R75)? -/
def descWordsLegal (w0 w1 w2 w3 w4 w5 w6 w7 : Nat) : Bool :=
  (bits w0 31 28 == 0) && (bits w0 24 22 == 0) && (bits w0 16 14 == 0) && (bits w1 31 30 == 0) &&
  (bits w2 29 28 == 0) && (bits w3 2 0 == 0) && (bits w4 2 0 == 0) && (bits w5 31 28 == 0) &&
  (bits w6 31 16 == 0) && (w7 == 0)

/-- Words 0 to 7 of the live descriptor (Tables 3-4 to 3-8). -/
def Hub.descWords (h : Hub) (t : Nat) : List Nat :=
  let d := h.desc t
  [h.get (R.ttGen t) * 2 ^ 28 + d.cls * 2 ^ 25 + h.get (R.ttState t) * 2 ^ 22 + d.own * 2 ^ 18 + d.bidir * 2 ^ 17 +
     h.get (R.ttFailed t) * 2 ^ 16 + d.maxlen,
   d.lp5w * 2 ^ 25 + d.line * 2 ^ 20 + d.altTrk * 2 ^ 15 + d.altEgr * 2 ^ 10 + d.egr * 32 + d.ingr,
   d.smode * 2 ^ 30 + d.weight * 2 ^ 16 + d.profile * 2 ^ 8 + d.buflim,
   d.bel, d.rbel, d.rweight * 2 ^ 16 + d.rprofile * 2 ^ 8 + d.rbuflim,
   h.get (R.ttPlanId t) * 2 ^ 16 + d.cookie, 0]

/-- Table 3-9: what a user tunnel of each class must look like. -/
def classRule (d : Desc) : Bool :=
  let inr := d.ingr
  let egr := d.egr
  let ends : Bool := match d.cls with
    | 2 => (inr == codeE0 || isTrunk inr) && (isLine egr || isTrunk egr) && (d.smode == 2) && (d.bidir == 0) &&
        (d.line == 0) && (d.lp5w == 0)
    | 3 => isTrunk inr && (egr == codeE2) && (d.smode == 0) && (d.bidir == 1) && ((d.line == 0) != (d.lp5w == 0))
    | 4 => (isTrunk inr || isLine inr) && (isTrunk egr || isLine egr) && (d.smode == 3 || d.smode == 0) &&
        (d.line == 0) && (d.lp5w == 0)
    | 5 => ((isLine inr || inr == codeE1) && isTrunk egr || inr == codeE1 && isLine egr) && (d.smode == 0) &&
        (d.bidir == 0) && (d.line == 0) && (d.lp5w == 0)
    | 6 => isLine inr && isTrunk egr && (d.smode == 0) && (d.bidir == 0) && (d.line == 0) && (d.lp5w == 0)
    | _ => false
  ends

/-- Rules 1 to 7, 9 and 10 of R78 with the words that BIDIR 0 empties (R76), the zero rules of R99 and the extra
header bytes of class 3 (R144). Rule 8, the port shares, is judged apart because it answers NO_RESOURCE (R79). -/
def descRules (d : Desc) : Bool :=
  let mx := if d.cls = 3 then d.maxlen + 8 else d.maxlen
  let f := belOfWord d.bel
  let r := belOfWord d.rbel
  let belOk (b : BelSet) : Bool := if b.en then decide (mx + 111 ≤ b.burst) else
    (b.rateE == 0) && (b.rateM == 0) && (b.burstE == 0) && (b.burstM == 0)
  let wOk (w : Nat) : Bool := if d.smode = 0 then decide (1 ≤ w) && decide (w ≤ 4095) else w == 0
  let bufOk (b : Nat) : Bool := decide (ceilDiv (mx + 16) 256 ≤ b * 64) && (b != 0)
  (d.ingr != 0) && (d.egr != 0) && (d.ingr != d.egr) &&
  (if isTrunk d.egr then d.altEgr == 0 || (isTrunk d.altEgr && d.altEgr != d.egr) else d.altEgr == 0) &&
  (if isTrunk d.ingr then d.altTrk == 0 || (isTrunk d.altTrk && d.altTrk != d.ingr) else d.altTrk == 0) &&
  wOk d.weight && bufOk d.buflim && belOk f && decide (d.own ≤ 4) &&
  (d.line == 0 || isLine d.line) && decide (d.lp5w ≤ 16) &&
  (if d.bidir = 1 then wOk d.rweight && bufOk d.rbuflim && belOk r
   else (d.rbel == 0) && (d.rweight == 0) && (d.rprofile == 0) && (d.rbuflim == 0)) &&
  (if d.smode = 2 ∨ d.smode = 3 then f.en && (d.bidir == 0 || r.en) else true)

/-- Does every trunk that the descriptor names carry a share of its owning master (R78 rule 8)? `share m n` says
whether master `m` has a share granted on the port with code `n`. -/
def descShares (share : Nat → Nat → Bool) (d : Desc) : Bool :=
  [d.ingr, d.egr, d.altEgr, d.altTrk].all (fun c => !isTrunk c || share d.own c)

end Sys2Proof.Machine
end

