-- ==== Sys2Proof/Machine/Hearth.lean ====
section
/-!
DEFINITION. The hearth's buffer: depths, floors, the shared part, policing, admission, holding and dropping
(chapter 7).
-/

namespace Sys2Proof.Machine

open Sys2Proof

/-- Cells of a list of frames. -/
def cellsOf (l : List QFrame) : Nat := (l.map QFrame.cells).sum

/-! Cells (R236, R237). -/

/-- Cells of the buffer. -/
def bufCells : Nat := 131072

/-- The bank that word `w` of cell `a` lies in (R236). -/
def bankOf (a w : Nat) : Nat := (a + w) % 8

/-- The strike summaries built, or waiting at their egress. -/
def Hub.summaries (h : Hub) : List QFrame :=
  h.hearth.egress.flatMap (fun e => e.2.summary) ++ h.flash.ports.flatMap (fun p => p.2.built.map (fun b => b.2))

/-- Every cell that is allocated. -/
def Hub.cellsUsed (h : Hub) : List Nat :=
  h.hearth.queues.flatMap (fun e => e.2.frames.flatMap QFrame.nos) ++
  h.hearth.held.flatMap (fun e => e.2.flatMap QFrame.nos) ++
  h.summaries.flatMap QFrame.nos ++
  h.hearth.egress.flatMap (fun e => e.2.b2.flatMap (fun p => p.2.flatMap TxFrame.nos)) ++
  h.links.flatMap (fun e => e.2.wait.flatMap TxFrame.nos ++ e.2.area.flatMap TxFrame.nos ++
    e.2.rx.flatMap (fun x => x.2.nos ++ x.2.done.flatMap RxFrame.nos)) ++
  h.hearth.orphans.map (fun p => p.1)

/-- The next `n` free cells in rotation from `a`, and where to look next. `fuel` is what is left of the cells to look at. -/
def pickCells (used : List Nat) : Nat → Nat → Nat → List Nat × Nat
  | _, 0, a => ([], a)
  | 0, _, a => ([], a)
  | fuel + 1, n + 1, a =>
    if used.contains a then pickCells used fuel (n + 1) ((a + 1) % bufCells)
    else
      let r := pickCells used fuel n ((a + 1) % bufCells)
      (a :: r.1, r.2)

/-- Allocate `n` cells (R237). -/
def Hub.takeCells (h : Hub) (n : Nat) : List Nat × Hub :=
  let used := h.cellsUsed
  let r := pickCells used (n + used.length) n h.hearth.nextCell
  (r.1, { h with hearth := { h.hearth with nextCell := r.2 } })

/-- The cells of a chain beyond a break are out of its owner's reach until the scrubber finds them (R259). -/
def Hub.breakChain (h : Hub) (owner : Nat) (chain : List Nat) (cell : Nat) : Hub :=
  { h with hearth := { h.hearth with
      orphans := h.hearth.orphans ++ ((chain.dropWhile (· != cell)).drop 1).map (fun a => (a, owner)) } }

/-- Is this the reverse direction of a strike summary tunnel, in which the hub's summaries wait outside the queue? -/
def isSummary (t dir : Nat) : Bool := decide (6 ≤ t) && decide (t ≤ 9) && dir == 1

/-- Summaries of a queue that wait for their place. -/
def Hub.summariesOf (h : Hub) (t dir : Nat) : List QFrame :=
  if isSummary t dir then h.summaries.filter (fun q => q.f.tid == t) else []

/-- Depth of a queue, cells (R243); that of a summary tunnel counts the summaries that wait for their place. -/
def Hub.depth (h : Hub) (t dir : Nat) : Nat := cellsOf (h.queue t dir).frames + cellsOf (h.summariesOf t dir)

/-- Floor of a descriptor (R240). -/
def floorOf (cls maxlen : Nat) : Nat := ceilDiv (maxlen + 16 + (if cls = 3 then 8 else 0)) 256

/-- Floor of each open direction of tunnel `t` (R240); system tunnels have none. -/
def Hub.floor (h : Hub) (t : Nat) : Nat :=
  if isUser t then floorOf (h.get (R.ttClass t)) (h.get (R.ttMaxlen t)) else 0

/-- Floors that tunnel `t` reserves while OPEN or DRAINING (R240). -/
def Hub.floorsOf (h : Hub) (t : Nat) : Nat :=
  let s := h.get (R.ttState t)
  if s = 1 ∨ s = 2 then h.floor t * (1 + h.get (R.ttBidir t)) else 0

/-- Shared use of one queue (R241). -/
def Hub.sharedOf (h : Hub) (t dir : Nat) : Nat := if isUser t then h.depth t dir - h.floor t else 0

/-- Shared use of all queues, and of the queues whose owning master is `m` (R241). -/
def Hub.sharedAll (h : Hub) : Nat := (h.hearth.queues.map (fun e => h.sharedOf e.1.i e.1.j)).sum
def Hub.sharedUse (h : Hub) (m : Nat) : Nat :=
  (h.hearth.queues.map (fun e => if h.get (R.ttOwn e.1.i) = m then h.sharedOf e.1.i e.1.j else 0)).sum

/-- Is this the number of a node-bus queue: 4096 plus the line port's code (R358)? -/
def isNb (t : Nat) : Bool := decide (4096 ≤ t)

/-- Cells of the system reserve in use: the queues of system tunnels and of the node bus, and strike summaries (R239, R262,
R358). -/
def Hub.reserveUse (h : Hub) : Nat :=
  (h.hearth.queues.map (fun e => if isSys e.1.i || isNb e.1.i then cellsOf e.2.frames else 0)).sum + cellsOf h.summaries

/-- Cells of the staging area of engine port `code` in use (Table 7-1): what the hearth holds there. -/
def Hub.stagingUse (h : Hub) (code : Nat) : Nat :=
  (h.hearth.held.map (fun e => if e.1.i = code then cellsOf (e.2.filter (fun q => !q.nos.isEmpty)) else 0)).sum

/-- Is the staging area of an engine without a free cell for `n` more (R262)? -/
def Hub.stagingFull (h : Hub) (code n : Nat) : Bool := decide (256 < h.stagingUse code + n)

/-- Bring SFREE and its low mark up to date (Table 7-8). -/
def Hub.settleFree (h : Hub) : Hub :=
  let free := h.get R.bufQpool - h.get R.bufFloors - h.sharedAll
  let h := h.set R.bufSfree free
  h.set R.bufSfreeLow (min (h.get R.bufSfreeLow) free)

/-- The counter of the attachment with port code `c`. -/
def attOf (c : Nat) : Nat := c - 1

/-- Colour of a frame: 0 green, 1 yellow, 2 red (R252). -/
def colourOf (tc tp cbs pbs s : Nat) : Nat × Nat × Nat :=
  let tc := min (cbs * 256) tc
  let tp := min (pbs * 256) tp
  if tp < s * 256 then (2, tc, tp)
  else if tc < s * 256 then (1, tc, tp - s * 256)
  else (0, tc - s * 256, tp - s * 256)

/-- Meter one frame of stored length `s` (R252 to R254): its colour, and the hub with the buckets charged. -/
def Hub.police (h : Hub) (t dir s : Nat) : Nat × Hub :=
  let p := if isSys t || isNb t then 0 else h.profileOf t dir
  if p = 0 then (0, h)
  else
    let q := h.queue t dir
    let cir := rateBps (h.get (R.profCirE p)) (h.get (R.profCirM p))
    let pir := rateBps (h.get (R.profPirE p)) (h.get (R.profPirM p))
    let cbs := burstBytes (h.get (R.profCbsE p)) (h.get (R.profCbsM p))
    let pbs := burstBytes (h.get (R.profPbsE p)) (h.get (R.profPbsM p))
    let dt := h.cyc - q.polAt
    let r := colourOf (q.tc + cir * dt * 256 / 8000000000) (q.tp + pir * dt * 256 / 8000000000) cbs pbs s
    (r.1, h.modQueue t dir (fun q => { q with tc := r.2.1, tp := r.2.2, polAt := h.cyc }))

/-- Count a colour (Table 7-7). -/
def Hub.countColour (h : Hub) (t dir colour : Nat) : Hub :=
  if isSys t || isNb t then h
  else match colour, dir with
    | 0, 0 => h.inc (R.polCntGreenF t)
    | 1, 0 => h.inc (R.polCntYellowF t)
    | _, 0 => h.inc (R.polCntRedF t)
    | 0, _ => h.inc (R.polCntGreenR t)
    | 1, _ => h.inc (R.polCntYellowR t)
    | _, _ => h.inc (R.polCntRedR t)

/-- Count `n` buffer drops of a tunnel direction (Table 7-7). -/
def Hub.countBufdrops (h : Hub) (t dir n : Nat) : Hub :=
  if isNb t then h else h.add (if dir = 0 then R.polCntBufdropF t else R.polCntBufdropR t) n

/-- Count a buffer drop of a tunnel direction (Table 7-7). -/
def Hub.countBufdrop (h : Hub) (t dir : Nat) : Hub := h.countBufdrops t dir 1

/-- What Table 7-2 decides of a frame. -/
inductive Place where
  | taken
  | polDrop
  | qlim
  | shared
deriving DecidableEq, Repr

/-- Steps 2 to 8 of Table 7-2; node-bus queues are charged to the system reserve as well (R358). -/
def Hub.placement (h : Hub) (t dir colour c : Nat) : Place :=
  if isSys t || isNb t then (if h.reserveUse + c ≤ 2048 then .taken else .shared)
  else
    let d := h.depth t dir
    let fl := h.floor t
    let extra := d + c - max d fl
    let thr := match colour with
      | 0 => 0
      | 1 => h.get R.bufYelFree * 16
      | _ => h.get R.bufRedFree * 16
    if h.buflim t dir * 64 < d + c then .qlim
    else if d + c ≤ fl then .taken
    else if h.get (R.hcapCap (h.get (R.ttOwn t))) < h.sharedUse (h.get (R.ttOwn t)) + extra ∧
        h.get (R.hcapCap (h.get (R.ttOwn t))) < h.get R.bufQpool then .shared
    else if h.get R.bufSfree < thr + extra then .shared
    else .taken

/-- Is a frame that meets no room held where it is, rather than dropped (R244)? -/
def holdsAt (code ccls : Nat) : Bool :=
  (isLink code && (ccls == 0 || ccls == 2)) || code == codeE1 || code == codeE2 || code == codeE3

/-- The depth mark of a queue after an admission (R285). -/
def Hub.markDepth (h : Hub) (t dir : Nat) : Hub :=
  let f := if dir = 0 then R.qcHwmDepF t else R.qcHwmDepR t
  if isNb t then h else h.set f (max (h.get f) (h.depth t dir))

/-- Give a frame its cells, where it has none yet. -/
def Hub.giveCells (h : Hub) (q : QFrame) : QFrame × Hub :=
  if q.nos.isEmpty then
    let r := h.takeCells q.cells
    ({ q with nos := r.1 }, r.2)
  else (q, h)

/-- Admission: the frame joins its queue (R243, R285). -/
def Hub.admitFrame (h : Hub) (t dir : Nat) (q : QFrame) : Hub :=
  let (q, h) := h.giveCells q
  let h := h.modQueue t dir (fun x => { x with frames := x.frames ++ [{ q with adm := h.now }] })
  (h.markDepth t dir).settleFree

/-- Count at the attachment with port code `code`; the USB management function, code 0, is none (Table 7-9). -/
def Hub.countAtt (h : Hub) (f : Nat → Fld) (code : Nat) : Hub := if code = 0 then h else h.inc (f (attOf code))

/-! Fences (R152, R153). -/

/-- An earlier frame of a fence has completed (R152). Frames are named by tunnel ID and TAG; a posted write, which has
no response, by tunnel ID and 65536 + SEQ while it waits in the hearth, and by 262144 + the SEQ with which an engine has it. -/
def Hub.fenceDone (h : Hub) (t tag : Nat) : Hub :=
  h.each [1, 2, 3, 4] (fun h c =>
    let x := h.fenceOf c
    h.setFence c { x with open_ := x.open_.filter (fun p => p != (t, tag)) })

/-- What a fence knows a frame by: on its way to its engine, and from then on. -/
def fenceKeyOf (f : Frame) : Nat := if f.op == 2 && f.posted then 65536 + f.seq else f.tag
def engineKeyOf (f : Frame) : Nat := if f.op == 2 && f.posted then 262144 + f.seq else f.tag

/-- A frame reaches its engine with a SEQ of its own (R148): fences know it by that from now on. -/
def Hub.fenceRename (h : Hub) (t : Nat) (old new : Frame) : Hub :=
  if fenceKeyOf old = engineKeyOf new then h
  else h.each [1, 2, 3, 4] (fun h c =>
    let x := h.fenceOf c
    h.setFence c { x with open_ := x.open_.map (fun p => if p = (t, fenceKeyOf old) then (t, engineKeyOf new) else p) })

/-- A frame is lost before it completes: no fence waits for it any longer (R153). A final response that is lost completes its
request. -/
def Hub.fenceLost (h : Hub) (f : Frame) : Hub :=
  if (f.op = 3 ∧ ¬ f.retry) ∨ f.op = 4 ∨ f.op = 6 then h.fenceDone f.tid f.tag
  else if f.op = 1 ∨ f.op = 2 ∨ f.op = 5 then h.fenceDone f.tid (fenceKeyOf f)
  else h

/-- The frames of a list are lost before they complete. -/
def Hub.fenceLostAll (h : Hub) (l : List QFrame) : Hub := h.each l (fun h q => h.fenceLost q.f)

/-- Frames of a tunnel that is closed complete no more: no fence waits for them, and those that wait at E3 are gone. -/
def Hub.fenceDrop (h : Hub) (t : Nat) : Hub :=
  h.each [1, 2, 3, 4] (fun h c =>
    let x := h.fenceOf c
    h.setFence c { open_ := x.open_.filter (fun p => p.1 != t), waiting := x.waiting.filter (fun f => f.tid != t),
                   fence := x.fence.filter (fun f => f.tid != t) })

/-! Drops. -/

/-- A drop at Table 7-2, counted at its attachment and tunnel. -/
def Hub.dropFrame (h : Hub) (t dir code : Nat) (w : Place) : Hub :=
  match w with
  | .taken => h
  | .polDrop => h.countAtt R.attPolDrop code
  | .qlim => (h.countAtt R.attQlimDrop code).countBufdrop t dir
  | .shared => (h.countAtt R.attSharedDrop code).countBufdrop t dir

/-- A frame is judged and dropped: a response among such frames completes its request (R153). -/
def Hub.dropJudged (h : Hub) (t dir : Nat) (q : QFrame) (w : Place) : Hub :=
  (h.dropFrame t dir q.ingress w).fenceLost q.f

/-- Frames of an engine take the cells of its staging area in order; the rest wait in the engine (R262). -/
def Hub.stageList (h : Hub) (room : Nat) : List QFrame → List QFrame × Hub
  | [] => ([], h)
  | q :: rest =>
    if q.nos.isEmpty && decide (q.cells ≤ room) then
      let r := h.takeCells q.cells
      let s := r.2.stageList (room - q.cells) rest
      ({ q with nos := r.1 } :: s.1, s.2)
    else
      let s := h.stageList (if q.nos.isEmpty then 0 else room) rest
      (q :: s.1, s.2)

/-- What is held at an ingress and credit class from now on. -/
def Hub.keepHeld (h : Hub) (code ccls : Nat) (l : List QFrame) : Hub :=
  let h := h.setHeld code ccls l
  if isEngine code then
    let s := h.stageList (256 - h.stagingUse code) l
    s.2.setHeld code ccls s.1
  else h

/-- Hold a frame where it is (R244). -/
def Hub.hold (h : Hub) (q : QFrame) : Hub :=
  h.keepHeld q.ingress q.ccls (h.held q.ingress q.ccls ++ [{ q with adm := h.now }])

/-- Is anything held ahead of a frame of this ingress and class (R245)? -/
def Hub.mustWait (h : Hub) (code ccls : Nat) : Bool := holdsAt code ccls && !(h.held code ccls).isEmpty

/-- Does the policer's verdict drop a frame of this colour (step 1 of Table 7-2)? -/
def Hub.polDrops (h : Hub) (t dir colour : Nat) : Bool :=
  let p := h.profileOf t dir
  !isSys t && !isNb t && ((colour == 2 && !h.flag (R.profRPass p)) || (colour == 1 && h.flag (R.profYDrop p)))

/-- Judge a policed frame by Table 7-2 and admit, hold or drop it. `q.colour` is its colour. -/
def Hub.judge (h : Hub) (t dir : Nat) (q : QFrame) : Hub :=
  let hold := holdsAt q.ingress q.ccls
  if h.polDrops t dir q.colour then
    h.dropJudged t dir q .polDrop
  else if h.mustWait q.ingress q.ccls then h.hold q
  else match h.placement t dir q.colour q.cells with
    | .taken => h.admitFrame t dir q
    | w =>
      if hold then h.hold q
      else h.dropJudged t dir q w

/-- Direction of a held or queued frame of a tunnel. -/
def dirOf (f : Frame) : Nat := b2n f.rev

/-- The queue that a frame waits for: that of its tunnel, or the node-bus queue of its line port; a system tunnel's frames
from the hub, and packets from a node, are the reverse direction; a packet from E2 names its line port in `dest` (R358). -/
def QFrame.tid (q : QFrame) : Nat := if q.f.nb.isSome then 4096 + (if q.ingress = codeE2 then q.dest else q.ingress) else q.f.tid
def QFrame.dir (q : QFrame) : Nat :=
  if q.f.nb.isSome then (if q.ingress = codeE2 then 0 else 1) else if isSys q.f.tid then (if q.ingress = codeE3 then 1 else 0) else b2n q.f.rev

/-- Judge the held frames of one ingress and credit class again, in arrival order, until one must stay (R245). -/
def Hub.rejudge (h : Hub) (code ccls : Nat) : List QFrame → Hub
  | [] => h.setHeld code ccls []
  | q :: rest =>
    match h.placement q.tid q.dir q.colour q.cells with
    | .taken =>
      let us := (h.now - q.adm) / 1000
      let h := h.set (R.attHoldHwm (attOf code)) (max (h.get (R.attHoldHwm (attOf code))) (min us 65535))
      (h.admitFrame q.tid q.dir q).rejudge code ccls rest
    | _ => h.keepHeld code ccls (q :: rest)

/-- A held frame stays beyond HOLD_MAX and is dropped (R246). -/
def Hub.holdDrop (h : Hub) (code ccls : Nat) : Hub :=
  match h.held code ccls with
  | [] => h
  | q :: rest =>
    let us := (h.now - q.adm) / 1000
    let h := h.set (R.attHoldHwm (attOf code)) (max (h.get (R.attHoldHwm (attOf code))) (min us 65535))
    let h := ((h.inc (R.attHoldDrop (attOf code))).countBufdrop q.tid q.dir).fenceLost q.f
    (h.raise srcBufHold code).rejudge code ccls rest

/-- Every held frame that room has been made for is judged again (R245). -/
def Hub.rejudgeAll (h : Hub) : Hub :=
  h.each h.hearth.held (fun h e => h.rejudge e.1.i e.1.j (h.held e.1.i e.1.j))

/-- Cells of the receive pool that a class of a link holds (HELD_c of R133), apart from frames still arriving. -/
def Hub.heldCells (h : Hub) (code ccls : Nat) : Nat := cellsOf (h.held code ccls)

/-- Drop the held frames of a tunnel at the boundary that closes it, counted in NOTOPEN_CNT (Table 7-3). -/
def Hub.dropHeld (h : Hub) (t : Nat) : Hub :=
  h.each h.hearth.held (fun h e =>
    let l := h.held e.1.i e.1.j
    let gone := l.filter (fun q => q.f.tid == t)
    ((h.setHeld e.1.i e.1.j (l.filter (fun q => q.f.tid != t))).add (R.runNotopenCnt t) gone.length).fenceLostAll gone)

/-- Empty a queue: its frames are discarded and counted (R86), its cells are freed. -/
def Hub.flushQueue (h : Hub) (t dir : Nat) : Hub :=
  let l := (h.queue t dir).frames
  let h := h.modQueue t dir (fun q => { q with frames := [], active := false })
  ((h.countBufdrops t dir l.length).fenceLostAll l).settleFree

/-- Raw rate in force at a port, Mb/s: lane rate × active lanes; 100 Gb/s for an engine port (R248). -/
def Hub.rawRate (h : Hub) (c : Nat) : Nat :=
  if isTrunk c then 8000 * 2 ^ h.get (R.laneRate (c - 1)) * h.get (R.linkNlane (c - 1))
  else if isLine c then 5000 * 2 ^ h.get (R.lpRate (c - 5)) * h.get (R.lpNlane (c - 5))
  else 100000

/-- May a frame be forwarded by cut-through (R248)? -/
def Hub.cutThrough (h : Hub) (cls ingress egress cells : Nat) : Bool :=
  h.flag R.bufCtEn && (cls == 2 || cls == 4) &&
  (ingress == codeE0 || (isLine ingress && !h.flag (R.lpEnc (ingress - 5)))) &&
  decide (h.rawRate egress ≤ h.rawRate ingress) && decide (1 < cells)

/-- May the head of a queue start at egress `e`: stored whole, or cut through with two cells written (R248)? An engine
egress reads every cell before it delivers (R251), so it waits for the last one. -/
def QFrame.eligible (q : QFrame) (e : Nat) : Bool :=
  !q.ct || (isLink e && decide (2 ≤ q.written)) || decide (q.cells ≤ q.written)

end Sys2Proof.Machine
end

