-- ==== Sys2Proof/Machine/Sched.lean ====
section
/-!
DEFINITION. Egress scheduling and shaping (chapter 8): activity, bellows, band limiters, the weighted group,
selection, and the start of a frame at an egress.
-/

namespace Sys2Proof.Machine

open Sys2Proof

/-- Tunnel IDs whose STATE is not FREE. -/
def Hub.liveIds (h : Hub) : List Nat :=
  (h.regs.filter (fun e => e.1.id == (R.ttState 0).key.id && (h.get (R.ttState e.1.i) != 0))).map (fun e => e.1.i)

/-- A queue's number: tunnel ID × 2 + direction, so that the order is by ID with the forward direction first (R268). -/
def qkey (t dir : Nat) : Nat := t * 2 + dir

/-- The port code of the egress that serves a queue (R266, R71); 0 for an empty system queue. -/
def Hub.egressOf (h : Hub) (t dir : Nat) : Nat :=
  let q := h.queue t dir
  if isNb t then (if dir = 0 then t - 4096 else codeE2)
  else if isSys t then
    (if dir = 0 then codeE3 else match q.frames with | [] => 0 | f :: _ => f.dest)
  else if dir = 0 then (if q.moved then h.get (R.ttAltEgr t) else h.get (R.ttEgr t))
  else (if q.moved then h.get (R.ttAltTrk t) else h.get (R.ttIngr t))

/-- Queues with something admitted, by number, for the egress with code `e`, in ascending order. -/
def Hub.queuesAt (h : Hub) (e : Nat) : List Nat :=
  (h.hearth.queues.filter (fun x => !(h.queue x.1.i x.1.j).frames.isEmpty && h.egressOf x.1.i x.1.j == e)).map
    (fun x => qkey x.1.i x.1.j)

/-- The band of a queue: 0, 1, 3, or 4 for the weighted group (Table 8-1). -/
def Hub.bandOf (h : Hub) (t : Nat) : Nat :=
  if isSys t then 0
  else if isNb t then 4
  else match h.get (R.ttSmode t) with
    | 1 => 0
    | 2 => 1
    | 3 => 3
    | _ => 4

/-- Counted length at egress `e` (R269). -/
def Hub.countedLen (h : Hub) (e stored : Nat) : Nat := max 1 (stored + h.get (R.schOvhEnc (e - 1)) - 32)

/-- Counted length of the head frame of a queue at egress `e`. -/
def Hub.headLen (h : Hub) (e k : Nat) : Nat :=
  match (h.queue (k / 2) (k % 2)).frames with
  | [] => 0
  | f :: _ => h.countedLen e f.f.stored

/-- A token bucket after `dt` core cycles, of 1 ns each (R277); tokens have 32 fractional bits. -/
def refilled (b : BelSet) (tok dt : Nat) : Nat :=
  if b.en then min (b.burst * 2 ^ 32) (tok + b.rate * dt * 2 ^ 32 / 8000000000) else tok

/-- Refill the bellows of a queue (R277). -/
def Hub.refillQueue (h : Hub) (t dir : Nat) : Hub :=
  h.modQueue t dir (fun q => { q with tok := refilled (h.bel t dir) q.tok (h.cyc - q.tokAt), tokAt := h.cyc })

/-- Setting of a band's limiter at egress `e`. -/
def Hub.limiter (h : Hub) (e band : Nat) : BelSet :=
  belOfWord (h.get (match band with
    | 0 => R.schBl0 (e - 1)
    | 1 => R.schBl1 (e - 1)
    | _ => R.schBl3 (e - 1)))

/-- Refill the band limiters of an egress (R275). -/
def Hub.refillBands (h : Hub) (e : Nat) : Hub :=
  h.modEgress e (fun x => { x with
    bl0 := ⟨refilled (h.limiter e 0) x.bl0.tok (h.cyc - x.bl0.last), h.cyc⟩
    bl1 := ⟨refilled (h.limiter e 1) x.bl1.tok (h.cyc - x.bl1.last), h.cyc⟩
    bl3 := ⟨refilled (h.limiter e 3) x.bl3.tok (h.cyc - x.bl3.last), h.cyc⟩ })

/-- Tokens of a band's limiter. -/
def Egress.bandTok (x : Egress) (band : Nat) : Nat :=
  match band with
  | 0 => x.bl0.tok
  | 1 => x.bl1.tok
  | _ => x.bl3.tok

/-- Charge a band's limiter. -/
def Egress.chargeBand (x : Egress) (band n : Nat) : Egress :=
  match band with
  | 0 => { x with bl0 := { x.bl0 with tok := x.bl0.tok - n } }
  | 1 => { x with bl1 := { x.bl1 with tok := x.bl1.tok - n } }
  | _ => { x with bl3 := { x.bl3 with tok := x.bl3.tok - n } }

/-- Credits of a class that a link holds (R132). -/
def Hub.credits (h : Hub) (c ccls : Nat) : Nat :=
  let x := tabGet (h.link c).tx (k1 ccls) {}
  (x.cl + 16384 - x.cc) % 16384

/-- Is the egress up (R270)? Engine egresses always are. -/
def Hub.portUp (h : Hub) (c : Nat) : Bool :=
  if isTrunk c then h.get (R.linkState (c - 1)) == 4
  else if isLine c then h.get (R.lpState (c - 5)) == 3
  else isEngine c

/-- Data blocks of a frame on a port: header, extension, payload, and crypto word and tag where encrypted (R140). -/
def frameBlocks (f : Frame) (enc : Bool) : Nat := 2 + b2n f.ext + ceilDiv f.len 8 + 3 * b2n enc

/-- Time on the wire of a frame at a trunk, ns, rounded up: its blocks and one LU_END for every 63. -/
def Hub.frameNs (h : Hub) (c : Nat) (f : Frame) : Nat :=
  let b := frameBlocks f true
  let rows := ceilDiv (b + ceilDiv b 63) (max 1 (h.get (R.linkNlane (c - 1))))
  ceilDiv (rows * 66) (8 * 2 ^ h.get (R.laneRate (c - 1)))

/-- Is a frame started now at a trunk still being sent at B + 1.00 µs of this tick or of the next (R64)? -/
def Hub.straddles (h : Hub) (c : Nat) (f : Frame) : Bool :=
  let mark := if h.now < h.tick.last + 1000 then h.tick.last + 1000 else h.tick.last + h.tickPeriod + 1000
  isTrunk c && decide (mark < h.now + h.frameNs c f)

/-- Is a tunnel's queue excluded from trunk egresses by safe state (R286)? -/
def Hub.safeExcludes (h : Hub) (e t : Nat) : Bool :=
  isTrunk e && h.safe && !(isSys t && (h.get (R.ttClass t) == 0 || h.get (R.ttClass t) == 1))

/-- Does the head frame of a queue wait on its bellows (R270 condition 2)? -/
def Hub.waitsTok (h : Hub) (e k : Nat) : Bool :=
  let b := h.bel (k / 2) (k % 2)
  b.en && (b.rateM == 0 || decide ((h.queue (k / 2) (k % 2)).tok < h.headLen e k * 2 ^ 32))

/-- Does the head frame wait on link credits (R270 condition 3)? -/
def Hub.waitsCrd (h : Hub) (e k : Nat) : Bool :=
  match (h.queue (k / 2) (k % 2)).frames with
  | [] => false
  | f :: _ => isLink e && decide (h.credits e f.ccls < f.cells)

/-- Cells of the replay area of a port (Table 4-6, Table 11-6). -/
def Hub.areaSize (h : Hub) (c : Nat) : Nat :=
  if isTrunk c then (if h.flag (R.linkExtbuf (c - 1)) then 6400 else 1280) else 256

/-- Has the replay area room for `n` more cells of a new frame? Cells of failover replay frames do not count (R327). -/
def Hub.areaRoom (h : Hub) (c n : Nat) : Bool :=
  decide (((((h.link c).area.filter (fun x => x.origin == 0)).map TxFrame.cells).sum) + n ≤ h.areaSize c)

/-- Does a frame of queue `k` wait unstarted in a band 2 queue of egress `e` (R328)? -/
def Hub.replayAhead (h : Hub) (e k : Nat) : Bool := (h.egress e).b2.any (fun p => p.2.any (fun x => x.key == k))

/-- Is queue `k` active at egress `e` (R270), its bellows being refilled? -/
def Hub.isActive (h : Hub) (e k : Nat) : Bool :=
  let t := k / 2
  let s := h.get (R.ttState t)
  match (h.queue t (k % 2)).frames with
  | [] => false
  | f :: _ => f.eligible e && (s == 1 || s == 2 || isNb t) && !h.waitsTok e k && !h.waitsCrd e k && !h.straddles e f.f &&
      h.portUp e && !h.safeExcludes e t && !h.replayAhead e k

/-! Virtual times (R278): 64 bits, 16 of them fractional. -/

/-- `a` before `b`, by their difference modulo 2^64 taken as signed. -/
def vBefore (a b : Nat) : Bool := let d := (b + 2 ^ 64 - a % 2 ^ 64) % 2 ^ 64; decide (0 < d) && decide (d < 2 ^ 63)

/-- The later of two virtual times. -/
def vMax (a b : Nat) : Nat := if vBefore a b then b else a

/-- The earlier of two virtual times. -/
def vMin (a b : Nat) : Nat := if vBefore b a then b else a

/-- A virtual time plus a length over a weight. -/
def vAdd (v len w : Nat) : Nat := (v + len * 65536 / max 1 w) % 2 ^ 64

/-- Weight of queue `k`; a node-bus queue has NB_WEIGHT (R358). -/
def Hub.weightOf (h : Hub) (k : Nat) : Nat :=
  if isNb (k / 2) then h.get (R.lpNbWeight (k / 2 - 4101)) else h.weight (k / 2) (k % 2)

/-- The active queues of the weighted group of egress `e`. -/
def Hub.groupActive (h : Hub) (e : Nat) : List Nat :=
  (h.queuesAt e).filter (fun k => h.bandOf (k / 2) == 4 && (h.queue (k / 2) (k % 2)).active)

/-- Wsum: the weights of the active queues (R278). -/
def Hub.wsum (h : Hub) (e : Nat) : Nat := ((h.groupActive e).map h.weightOf).sum

/-- Bring the activity of one weighted queue up to date: activate or deactivate it (R278). -/
def Hub.refreshQueue (h : Hub) (e k : Nat) : Hub :=
  let h := h.refillQueue (k / 2) (k % 2)
  let q := h.queue (k / 2) (k % 2)
  let now := h.isActive e k && h.bandOf (k / 2) == 4
  if now = q.active then h
  else if now then
    let vs := vMax (h.egress e).v q.vf
    h.modQueue (k / 2) (k % 2) (fun q => { q with active := true, vs := vs, vf := vAdd vs (h.headLen e k) (h.weightOf k) })
  else h.modQueue (k / 2) (k % 2) (fun q => { q with active := false })

/-- Bring the activity of every queue of an egress up to date. -/
def Hub.refreshEgress (h : Hub) (e : Nat) : Hub := h.each (h.queuesAt e) (fun h k => h.refreshQueue e k)

/-- Is the queue one whose activity can change: it holds a frame, or is still shown active? -/
def Queue.live (q : Queue) : Bool := !q.frames.isEmpty || q.active

/-- Bring the activity of every queue up to date, of those that have just gone empty too (R270, R278). -/
def Hub.refreshAll (h : Hub) : Hub :=
  h.each (h.hearth.queues.filter (fun x => x.2.live)) (fun h x => h.refreshQueue (h.egressOf x.1.i x.1.j) (qkey x.1.i x.1.j))

/-- The guard timer of an egress runs only while its weighted group has an active queue (R273). -/
def Hub.settleGuard (h : Hub) : Hub :=
  h.each (h.hearth.egress.filter (fun x => x.2.guardDue && (h.groupActive x.1.i).isEmpty))
    (fun h x => h.modEgress x.1.i (fun y => { y with guardDue := false }))

/-- The least S of the active queues of a group (R278). -/
def Hub.minS (h : Hub) (l : List Nat) : Option Nat :=
  (l.map (fun k => (h.queue (k / 2) (k % 2)).vs)).foldl (fun a s => match a with
    | none => some s
    | some m => some (vMin m s)) none

/-- The eligible queue with the least F; ties go to the lower number (R278). -/
def Hub.leastF (h : Hub) (v : Nat) (l : List Nat) : Option Nat :=
  (l.filter (fun k => !vBefore v (h.queue (k / 2) (k % 2)).vs)).foldl (fun a k => match a with
    | none => some k
    | some m => if vBefore (h.queue (k / 2) (k % 2)).vf (h.queue (m / 2) (m % 2)).vf then some k else some m) none

/-- What a selection chooses. -/
inductive Pick where
  | summary
  | band (b k : Nat)
  | replay (code : Nat)
  | group (k : Nat) (guard : Bool)
deriving DecidableEq, Repr

/-- The next item after `p` in ascending order, wrapping (R268). -/
def nextAfter (l : List Nat) (p : Option Nat) : Option Nat :=
  match p with
  | none => l.head?
  | some p => match l.find? (fun k => decide (p < k)) with
    | some k => some k
    | none => l.head?

/-- Pointer of a band. -/
def Egress.ptr (x : Egress) (band : Nat) : Option Nat :=
  match band with
  | 0 => x.p0
  | 1 => x.p1
  | 2 => x.p2
  | _ => x.p3

/-- Move the pointer of a band. -/
def Egress.setPtr (x : Egress) (band k : Nat) : Egress :=
  match band with
  | 0 => { x with p0 := some k }
  | 1 => { x with p1 := some k }
  | 2 => { x with p2 := some k }
  | _ => { x with p3 := some k }

/-- The queue that band `b` offers (R268, R281), or none where its limiter holds too few tokens (R274). -/
def Hub.bandPick (h : Hub) (e b : Nat) : Option Nat :=
  let x := h.egress e
  let act := (h.queuesAt e).filter (fun k => h.bandOf (k / 2) == b && h.isActive e k)
  let free := act.filter (fun k => !x.behind.any (fun p => p.1 == k && p.2.any (fun j => act.contains j)))
  match nextAfter (if free.isEmpty then act else free) (x.ptr b) with
  | none => none
  | some k =>
    if (h.limiter e b).en && decide (x.bandTok b < h.headLen e k * 2 ^ 32) then none else some k

/-- May the head frame of a replay queue start (R270 conditions 3 to 5)? -/
def Hub.replayReady (h : Hub) (e : Nat) (l : List TxFrame) : Bool :=
  match l with
  | [] => false
  | x :: _ => h.portUp e && decide (x.cells ≤ h.credits e x.ccls) && !h.straddles e x.f &&
      !(h.safe && isTrunk e && !isSys (x.key / 2))

/-- The replay queue that band 2 offers (R268). -/
def Hub.replayPick (h : Hub) (e : Nat) : Option Nat :=
  let x := h.egress e
  let ready := (x.b2.filter (fun p => h.replayReady e p.2)).map (fun p => p.1)
  let sorted := [1, 2, 3, 4].filter (fun c => ready.contains c)
  nextAfter sorted x.p2

/-- The queue that the weighted group offers (R278). -/
def Hub.groupPick (h : Hub) (e : Nat) : Option Nat :=
  let l := h.groupActive e
  match h.minS l with
  | none => none
  | some m => h.leastF (vMax (h.egress e).v m) l

/-- What levels below band 1 offer (R273, R275). -/
def Hub.lowerPick (h : Hub) (e : Nat) : Option Pick :=
  let g := h.groupPick e
  if h.get (R.schGuard (e - 1)) ≠ 0 ∧ (h.egress e).guardDue ∧ g.isSome ∧ ¬ (isTrunk e ∧ h.safe) then
    g.map (fun k => .group k true)
  else match h.replayPick e with
    | some c => some (.replay c)
    | none => match h.bandPick e 3 with
      | some k => some (.band 3 k)
      | none => g.map (fun k => .group k false)

/-- The selection of R275 at an engine egress, activity and limiters being up to date. -/
def Hub.choose (h : Hub) (e : Nat) : Option Pick :=
  match h.bandPick e 0 with
  | some k => some (.band 0 k)
  | none => match h.bandPick e 1 with
    | some k => some (.band 1 k)
    | none => h.lowerPick e

/-- W_map of an egress (R280): the weights of every weighted queue it serves, active or not, the node-bus queue of a
line port that is UP among them (R358). -/
def Hub.wmapOf (h : Hub) (ids : List Nat) (e : Nat) : Nat :=
  (ids.map (fun t =>
    let s := h.get (R.ttState t)
    if isUser t && (s == 1 || s == 2) && (h.get (R.ttSmode t) == 0) then
      (if h.egressOf t 0 = e then h.weight t 0 else 0) +
        (if h.get (R.ttBidir t) = 1 ∧ h.egressOf t 1 = e then h.weight t 1 else 0)
    else 0)).sum + (if isLine e && h.portUp e then h.get (R.lpNbWeight (e - 5)) else 0) +
    (if e = codeE2 then ((List.range 16).map (fun n => if h.portUp (n + 5) then h.get (R.lpNbWeight n) else 0)).sum else 0)

/-- Bring W_map of every egress up to date. -/
def Hub.settleWmap (h : Hub) : Hub :=
  let ids := h.liveIds
  h.each (List.range 24) (fun h c => h.set (R.schWmap c) (h.wmapOf ids (c + 1)))

/-- Bring the sum of floors and the free count up to date (R240, R241). -/
def Hub.settleFloors (h : Hub) : Hub :=
  (h.set R.bufFloors ((h.liveIds.map h.floorsOf).sum)).settleFree

/-! Live register words (Tables 8-5 and 8-6). -/

/-- Whole bytes in the bellows of a queue now; 0 when BEN is 0 (TOK of Table 8-5). -/
def Hub.tokNow (h : Hub) (t dir : Nat) : Nat :=
  if (h.bel t dir).en then (((h.refillQueue t dir).queue t dir).tok) / 2 ^ 32 else 0

/-- ACTIVE, WAIT_TOK, WAIT_CRD and HELD of a queue, as the four bits of Table 8-5. -/
def Hub.waitBits (h : Hub) (t dir : Nat) : Nat :=
  let h := h.refillQueue t dir
  let k := qkey t dir
  let e := h.egressOf t dir
  let some_ := !(h.queue t dir).frames.isEmpty
  let b := h.bel t dir
  b2n (e != 0 && h.isActive e k) * 8 + b2n (some_ && h.waitsTok e k) * 4 + b2n (h.waitsCrd e k) * 2 + b2n (b.en && b.rateM == 0)

/-- Word `i` of the queue counters of ID `t` where it is live, or where the ID is FREE and holds no queue: then every sample is
that of the latest task 5, of an empty queue (R284, R285, R290). -/
def Hub.qcWord (h : Hub) (t i : Nat) : Option Nat :=
  if h.get (R.ttState t) = 0 then
    (match i with
     | 0 | 4 => some (b2n h.tick.sampled.2 * 2 ^ 31)
     | 8 => some (h.tick.sampled.1 % 2 ^ 32)
     | _ => some 0)
  else match i with
    | 13 => some (h.tokNow t 0)
    | 14 => some (h.tokNow t 1)
    | 15 => some (h.waitBits t 0 * 2 ^ 28 + h.waitBits t 1 * 2 ^ 24)
    | _ => none

/-- Active queues of egress `e` in the weighted group, and in bands 0 to 3, replay queues that can start among them. -/
def Hub.activeCounts (h : Hub) (e : Nat) : Nat × Nat :=
  let h := h.each (h.queuesAt e) (fun h k => h.refillQueue (k / 2) (k % 2))
  let act := (h.queuesAt e).filter (fun k => h.isActive e k)
  let w := act.filter (fun k => h.bandOf (k / 2) == 4)
  (w.length, act.length - w.length + ((h.egress e).b2.filter (fun p => h.replayReady e p.2)).length)

/-- Tokens of a band limiter now, whole bytes. -/
def Hub.bandTokNow (h : Hub) (e band : Nat) : Nat := ((h.refillBands e).egress e).bandTok band / 2 ^ 32

/-- Word `i` of the scheduler registers of egress `e` where it is live (R291); the HI word of V is read here without a latch. -/
def Hub.schWord (h : Hub) (e i : Nat) : Option Nat :=
  match i with
  | 4 => let n := h.activeCounts e; some (n.1 * 2 ^ 16 + n.2)
  | 7 => some ((h.egress e).v / 2 ^ 16 % 2 ^ 32)
  | 8 => some ((h.egress e).v / 2 ^ 48)
  | 9 => some (h.bandTokNow e 0)
  | 10 => some (h.bandTokNow e 1)
  | 11 => some (h.bandTokNow e 3)
  | _ => none

/-- A live word of the queue counter window or of the scheduler registers, by address. -/
def Hub.schedWord (h : Hub) (a : Nat) : Option Nat :=
  if 0x2400000 ≤ a ∧ a < 0x2440000 then h.qcWord ((a - 0x2400000) / 64) (a % 64 / 4)
  else if 0x2700000 ≤ a ∧ a < 0x2700600 then h.schWord ((a - 0x2700000) / 64 + 1) (a % 64 / 4)
  else none

end Sys2Proof.Machine
end

