-- ==== Sys2Proof/Machine/Rows.lean ====
section
/-!
DEFINITION. What the lanes of a port carry (chapters 4 and 5): rows of 66-bit blocks, striping, the scrambler, alignment
markers, the spare's replica, strike rows, training frames, and the exit from electrical idle.
-/

namespace Sys2Proof.Machine

open Sys2Proof

/-- A counter or field that trunk and line ports both have. -/
def linkFld (t l : Nat → Fld) (c : Nat) : Fld := if isTrunk c then t (c - 1) else l (c - 5)

def fCrcErr (c : Nat) : Fld := linkFld R.linkCrcErr R.lpCrcErr c
def fNakTx (c : Nat) : Fld := linkFld R.linkNakTx R.lpNakTx c
def fReplayLu (c : Nat) : Fld := linkFld R.linkReplayLu R.lpReplayLu c
def fNakRx (c : Nat) : Fld := linkFld R.linkNakRx R.lpNakRx c
def fUrLost (c : Nat) : Fld := linkFld R.linkUrLost R.lpUrLost c
def fDup (c : Nat) : Fld := linkFld R.linkDup R.lpDup c
def fGap (c : Nat) : Fld := linkFld R.linkGap R.lpGap c
def fFmtErr (c : Nat) : Fld := linkFld R.linkFmtErr R.lpFmtErr c
def fTagFail (c : Nat) : Fld := linkFld R.linkTagFail R.lpTagFail c
def fCtrRej (c : Nat) : Fld := linkFld R.linkCtrRej R.lpCtrRej c
def fAuthRefuse (c : Nat) : Fld := linkFld R.linkAuthRefuse R.lpAuthRefuse c
def fPreDrop (c : Nat) : Fld := linkFld R.linkPreDrop R.lpPreDrop c
def fRtt (c : Nat) : Fld := linkFld R.linkRtt R.lpRtt c
def fHoldn (c : Nat) : Fld := linkFld R.linkHoldn R.lpHoldn c
def fEpoch (c : Nat) : Fld := linkFld R.linkEpoch R.lpEpoch c

/-- A lane register that trunk and line lanes both have. -/
def laneFld (t l : Nat → Nat → Fld) (c lane : Nat) : Fld := if isTrunk c then t (c - 1) lane else l (c - 5) lane

def fLstate (c l : Nat) : Fld := laneFld R.lnLstate R.llnLstate c l
def fPos (c l : Nat) : Fld := laneFld R.lnPos R.llnPos c l
def fTemperStop (c l : Nat) : Fld := laneFld R.lnTemperStop R.llnTemperStop c l
def fLock (c l : Nat) : Fld := laneFld R.lnLock R.llnLock c l
def fFom (c l : Nat) : Fld := laneFld R.lnFom R.llnFom c l
def fFomTrn (c l : Nat) : Fld := laneFld R.lnFomTrn R.llnFomTrn c l
def fFomLow (c l : Nat) : Fld := laneFld R.lnFomLow R.llnFomLow c l
def fFaults (c l : Nat) : Fld := laneFld R.lnFaults R.llnFaults c l
def fSteps (c l : Nat) : Fld := laneFld R.lnSteps R.llnSteps c l
def fUndo (c l : Nat) : Fld := laneFld R.lnUndo R.llnUndo c l
def fSyncErr (c l : Nat) : Fld := laneFld R.lnSyncErr R.llnSyncErr c l
def fMain (c l : Nat) : Fld := laneFld R.lnMain R.llnMain c l
def fP1 (c l : Nat) : Fld := laneFld R.lnP1 R.llnP1 c l
def fPre (c l : Nat) : Fld := laneFld R.lnPre R.llnPre c l
def fP2 (c l : Nat) : Fld := laneFld R.lnP2 R.llnP2 c l
def fEidleTx (c : Nat) : Fld := linkFld R.laneEidleTx R.lpEidleTx c
def fEidleRx (c : Nat) : Fld := linkFld R.laneEidleRx R.lpEidleRx c
def fRetired (c : Nat) : Fld := linkFld R.laneRetired R.lpRetired c
def fRate (c : Nat) : Fld := linkFld R.laneRate R.lpRate c
def fNlane (c : Nat) : Fld := linkFld R.linkNlane R.lpNlane c
def fFomTgt (c : Nat) : Fld := linkFld R.laneFomTgt R.lpFomTgt c
def fFomMin (c : Nat) : Fld := linkFld R.laneFomMin R.lpFomMin c
def fFomFail (c : Nat) : Fld := linkFld R.laneFomFail R.lpFomFail c
def fPresetStart (c : Nat) : Fld := linkFld R.lanePresetStart R.lpPresetStart c
def fMaxrate (c : Nat) : Fld := linkFld R.laneMaxrate R.lpMaxrate c

/-- Lanes of a port, the spare included, and its positions. -/
def laneCount (c : Nat) : Nat := if isTrunk c then 5 else 2
def posCount (c : Nat) : Nat := if isTrunk c then 4 else 2

/-! Control blocks (Tables 4-2 and 4-3). -/

def ackBlock (ccls ackSeq nseq : Nat) (nak : Bool) : Nat :=
  0x33 + ccls * 2 ^ 8 + b2n nak * 2 ^ 10 + ackSeq * 2 ^ 11 + nseq * 2 ^ 26

def creditBlock (ctl iso rtx blk : Nat) : Nat := 0x4B + ctl * 2 ^ 8 + iso * 2 ^ 22 + rtx * 2 ^ 36 + blk * 2 ^ 50

def csyncBlock (iso blk : Nat) : Nat := 0x55 + iso * 2 ^ 8 + blk * 2 ^ 22

def probeBlock (pid : Nat) (resp : Bool) : Nat := 0xB4 + b2n resp * 2 ^ 8 + pid * 2 ^ 16

def eidleBlock : Nat := 0xAA

/-- The role state of a lane from the position it carries (Table 5-10). -/
def Hub.laneRole (h : Hub) (c l : Nat) : Nat :=
  let p := h.get (fPos c l)
  if p = 7 then h.get (fLstate c l)
  else if p = 4 then 3
  else if isTrunk c ∧ l = 4 then 4
  else 2

/-- Rates that the hub offers on a port, bit 0 lowest (R170, R344). -/
def Hub.rateCap (h : Hub) (c : Nat) : Nat :=
  let top := if isTrunk c then min (h.get (R.laneMaxrate (c - 1))) (match h.grade with
      | .f => 2
      | .s => 1)
    else min (h.get (R.lpMaxrate (c - 5))) (h.get (R.lpCabcap (c - 5)))
  2 ^ (top + 1) - 1

/-- The request fields that the hub sends on a lane, at their bit places. -/
def LaneX.reqBits (x : LaneX) : Nat :=
  if x.mode = 1 ∨ x.mode = 2 ∨ x.mode = 3 then
    let inc := if x.mode = 3 then x.pos % 2 == 1 else x.pos % 2 == 0
    let v := if inc then 1 else 2
    match x.pos / 2 with
    | 0 => v * 2 ^ 38
    | 1 => v * 2 ^ 42
    | 2 => v * 2 ^ 36
    | _ => v * 2 ^ 40
  else 0

/-- The position that physical lane `l` carries on its own: on a cable port whose plug lies on CC2 the two lanes are
exchanged (R348). -/
def Hub.homePos (h : Hub) (c l : Nat) : Nat :=
  if isLine c && h.flag (R.lpOrient (c - 5)) && decide (l < 2) then 1 - l else l

/-- Is a PORT.SPARE RESTORE training this lane alone (R198)? -/
def Hub.restoring (h : Hub) (c l : Nat) : Bool := (h.port c).restore == some l && !(h.port c).restored

/-- The training phase of one lane: that of its port, or of its own restore. -/
def Hub.lanePhase (h : Hub) (c l : Nat) : Nat :=
  let x := h.laneX c l
  if h.restoring c l then (if x.mode == 4 && x.farDone then 3 else 2) else (h.port c).phase

/-- The TRAIN block that the hub sends on a lane (Table 5-1). -/
def Hub.trainWord (h : Hub) (c l : Nat) : Nat :=
  let p := h.port c
  let x := h.laneX c l
  let ph := h.lanePhase c l
  let tph := if ph = 3 then (if h.get (fPos c l) = 7 && !h.restoring c l then 2 else 3) else ph
  0x99 + tph * 2 ^ 60 + h.rateCap c * 2 ^ 57 + (p.sel.getD (h.get (fRate c))) * 2 ^ 55 + h.homePos c l * 2 ^ 52 + h.get (fFom c l) * 2 ^ 44 +
    x.reqBits + x.stsPre * 2 ^ 30 + x.stsMain * 2 ^ 28 + x.stsP1 * 2 ^ 26 + x.stsP2 * 2 ^ 24 + x.rseq * 2 ^ 20 +
    (x.aseq.getD 0) * 2 ^ 16 + b2n (x.mode == 4) * 2 ^ 15 + b2n (isTrunk c) * 2 ^ 14

/-- Lane states follow the two directions: electrical idle is shown where both are idle. -/
def Hub.idleStates (h : Hub) (c : Nat) : Hub :=
  let both := h.flag (fEidleTx c) && h.flag (fEidleRx c)
  h.each (List.range (laneCount c)) (fun h l =>
    if h.get (fPos c l) = 7 then h else h.set (fLstate c l) (if both then 6 else h.laneRole c l))

/-! CRC-8 of R207, most significant bit first. -/

def crc8Step (c : Nat) : Nat := if 128 ≤ c then ((c * 2) % 256) ^^^ 0x07 else c * 2

def crc8Byte (c : Nat) (b : Byte) : Nat :=
  crc8Step (crc8Step (crc8Step (crc8Step (crc8Step (crc8Step (crc8Step (crc8Step (c ^^^ b.toNat))))))))

def crc8 (l : List Byte) : Nat := l.foldl crc8Byte 0xFF

/-- Bits [55:0] of a STRIKE block (Table 6-2). -/
def strikeLow (x : Strike) : Nat :=
  x.chan * 2 ^ 48 + x.edge * 2 ^ 47 + x.hops * 2 ^ 44 + x.tlow * 2 ^ 40 + x.stseq * 2 ^ 30 + x.toff * 2 ^ 12 +
    b2n x.late * 2 ^ 11 + 0x66

/-- The payload of a STRIKE block, its CRC8 included (R206, R207). -/
def strikeWord (x : Strike) : Nat := crc8 (leBytes 7 (strikeLow x)) * 2 ^ 56 + strikeLow x

/-! Counters of Table 6-10, by port code. -/

def fpOf (c : Nat) : Nat := c - 1

/-- Does the port carry strike rows (R111, R350)? -/
def Hub.strikeUp (h : Hub) (c : Nat) : Bool :=
  if isTrunk c then h.get (R.linkState (c - 1)) == 4
  else isLine c && (h.get (R.lpState (c - 5)) == 2 || h.get (R.lpState (c - 5)) == 3)


/-! Blocks (R106 to R108). -/

/-- Sync headers of a data block and of a control block. -/
def hdrData : Nat := 1
def hdrCtrl : Nat := 2

/-- Block types (Table 4-2). -/
def btIdle : Nat := 0x1E
def btLuEnd : Nat := 0x2D
def btAck : Nat := 0x33
def btCredit : Nat := 0x4B
def btCsync : Nat := 0x55
def btStrike : Nat := 0x66
def btRowfill : Nat := 0x78
def btAlign : Nat := 0x87
def btTrain : Nat := 0x99
def btEidle : Nat := 0xAA
def btProbe : Nat := 0xB4

/-- Does a block have an invalid sync header (R106)? -/
def badHdr (b : Block) : Bool := b.hdr != hdrData && b.hdr != hdrCtrl

/-- Is a block a control block of type `ty`? -/
def isType (b : Block) (ty : Nat) : Bool := b.hdr == hdrCtrl && b.w % 256 == ty

/-- The types that Table 4-2 gives. -/
def blockTypes : List Nat :=
  [btIdle, btLuEnd, btAck, btCredit, btCsync, btStrike, btRowfill, btAlign, btTrain, btEidle, btProbe]

/-- Is a block a block error (R108)? -/
def blockError (b : Block) : Bool :=
  badHdr b || (b.hdr == hdrCtrl && !blockTypes.contains (b.w % 256))

/-- The scrambler x^58 + x^39 + 1 over the 64 bits `w`, least significant first (R107): the bits sent and the next state.
Bit 57 of the state is the bit sent last, so that bit `n` goes out added to the ones sent 39 and 58 before it. -/
def scramble (s w : Nat) : Nat × Nat :=
  let o := (w ^^^ (s / 2 ^ 19) ^^^ s) % 2 ^ 39
  let s1 := (s + o * 2 ^ 58) / 2 ^ 39
  let o1 := ((w / 2 ^ 39) ^^^ (s1 / 2 ^ 19) ^^^ s1) % 2 ^ 25
  (o + o1 * 2 ^ 39, (s1 + o1 * 2 ^ 58) / 2 ^ 25)

/-- What one block adds to the BIP8 of its lane, as IEEE 802.3 Clause 82 assigns the bits: payload bit `i` to parity bit
`i mod 8`, the first bit of the sync header to bit 3 and the second to bit 4 (PRESUMED, assumption 213). -/
def bipOf (hdr w : Nat) : Nat :=
  (leBytes 8 w).foldl (fun a b => a ^^^ b.toNat) (if hdr = hdrData then 0x10 else if hdr = hdrCtrl then 0x08 else 0)

/-! Rows (R109, R110). -/

/-- The lanes that carry positions, in the order in which the stream is striped: by position, which a stand-in takes from
the lane that it replaces (R109, R181). -/
def Hub.stripe (h : Hub) (c : Nat) : List Nat :=
  (List.range (posCount c)).filterMap (fun j => (List.range (laneCount c)).find? (fun l => h.get (fPos c l) == j))

/-- Lanes in use: those with a position, and the spare. -/
def Hub.lanesUsed (h : Hub) (c : Nat) : List Nat := (List.range (laneCount c)).filter (fun l => h.get (fPos c l) != 7)

/-- The lane whose blocks the spare copies (R110, R192), none where the port has no free spare. -/
def Hub.replicaOf (h : Hub) (c : Nat) : Option Nat :=
  if isTrunk c && h.laneRole c 4 == 3 then (h.stripe c).find? (fun l => h.get (fPos c l) == h.get (R.laneRepl (c - 1)))
  else none

/-- One lane sends one block of a row. -/
def Hub.driveLane (h : Hub) (c l hdr w : Nat) (plain : Bool) : (Nat × Nat × Nat) × Hub :=
  let x := h.laneX c l
  let r := if plain then (w, x.scr) else scramble x.scr w
  ((l, hdr, r.1), h.modLane c l (fun x => { x with scr := r.2, bip := x.bip ^^^ bipOf hdr r.1 }))

/-- Send a row: a block on each lane of `l`. -/
def Hub.driveRow (h : Hub) (c : Nat) (l : List (Nat × Nat × Nat)) (plain : Bool) : Hub :=
  let r := l.foldl (fun (a : List (Nat × Nat × Nat) × Hub) b =>
    let d := a.2.driveLane c b.1 b.2.1 b.2.2 plain
    (a.1 ++ [d.1], d.2)) ([], h)
  r.2.emit (.row c r.1)

/-- A row of the block stream: its blocks on the active lanes, with the copy on the spare, and on a lane that a restore has
trained beside its stand-in (R109, R110, R198). -/
def Hub.streamRow (h : Hub) (c : Nat) (bs : List (Nat × Nat)) : Hub :=
  let row := (h.stripe c).zip bs
  let copy (src dst : Nat) : List (Nat × Nat × Nat) := (row.find? (fun p => p.1 == src)).toList.map (fun p => (dst, p.2))
  let spare := match h.replicaOf c with
    | some l => copy l 4
    | none => []
  let back := match (h.port c).restore with
    | some l => if (h.port c).restored then copy 4 l else []
    | none => []
  h.driveRow c (row ++ spare ++ back) false

/-- Blocks of the stream as rows; what is missing from the last row is IDLE (R109). -/
def Hub.streamRows (h : Hub) (c : Nat) : Nat → List (Nat × Nat) → Hub
  | 0, _ => h
  | _, [] => h
  | fuel + 1, bs =>
    let n := (h.stripe c).length
    let row := bs.take n
    (h.streamRow c (row ++ List.replicate (n - row.length) (hdrCtrl, btIdle))).streamRows c fuel (bs.drop n)

/-! Alignment markers (R112). -/

/-- An ALIGN block (Table 4-3). -/
def alignWord (lane repl mcnt port bip : Nat) : Nat :=
  btAlign + lane * 2 ^ 8 + repl * 2 ^ 11 + mcnt * 2 ^ 16 + port * 2 ^ 24 + bip * 2 ^ 32

/-- Send an ALIGN row on every lane in use, unscrambled; its marker count goes on, and the schedule runs from it. -/
def Hub.sendAlign (h : Hub) (c : Nat) : Hub :=
  let ls := h.lanesUsed c
  let m := (h.port c).mcnt
  let row := ls.map (fun l => (l, hdrCtrl,
    alignWord l (if isTrunk c && l == 4 && h.laneRole c 4 == 3 then h.get (R.laneRepl (c - 1)) else 7) m c (h.laneX c l).bip))
  let h := h.each ls (fun h l => h.modLane c l (fun x => { x with bip := 0 }))
  (h.driveRow c row true).modPort c (fun p => { p with mcnt := (m + 1) % 256, alignAt := h.cyc })

/-- 16,384 row times of a port, in core cycles (R112); the remainder of a cycle at a line rate is left out
(assumption 214). -/
def Hub.alignInterval (h : Hub) (c : Nat) : Nat :=
  if isTrunk c then 135168 / 2 ^ h.get (fRate c) else 1081344 / (5 * 2 ^ h.get (fRate c))

/-- The ALIGN rows whose time has come (R112): none in electrical idle (R183). -/
def Hub.settleAlign (h : Hub) (c : Nat) : Hub :=
  let n := (h.cyc - (h.port c).alignAt) / h.alignInterval c
  if (h.port c).phase ≠ 4 ∨ h.flag (fEidleTx c) ∨ n = 0 then h
  else
    let at_ := (h.port c).alignAt + n * h.alignInterval c
    (h.each (List.range (min n 64)) (fun h _ => h.sendAlign c)).modPort c (fun p => { p with alignAt := at_ })

/-! Training frames and electrical idle (R174, R182, R184). -/

/-- Rows of data blocks that carry the scrambled all-zero pattern. -/
def Hub.zeroRows (h : Hub) (c : Nat) (ls : List Nat) (n : Nat) : Hub :=
  h.each (List.range n) (fun h _ => h.driveRow c (ls.map (fun l => (l, hdrData, 0))) false)

/-- A training frame on each of some lanes, all begun in one row: a TRAIN block and 127 data blocks (R174). -/
def Hub.sendTrainFrame (h : Hub) (c : Nat) (ls : List Nat) : Hub :=
  (h.driveRow c (ls.map (fun l => (l, hdrCtrl, h.trainWord c l))) true).zeroRows c ls 127

/-- A TRAIN block with TPH 4. -/
def Hub.burstWord (h : Hub) (c l : Nat) : Nat := h.trainWord c l % 2 ^ 60 + 4 * 2 ^ 60

/-- The burst of 32 rows that ends electrical idle (R184). -/
def Hub.exitBurst (h : Hub) (c : Nat) : Hub :=
  let ls := h.lanesUsed c
  h.each (List.range 4) (fun h _ => (h.driveRow c (ls.map (fun l => (l, hdrCtrl, h.burstWord c l))) true).zeroRows c ls 7)

/-- The row of EIDLE blocks on every lane that announces electrical idle (R182). -/
def Hub.eidleRow (h : Hub) (c : Nat) : Hub :=
  (h.driveRow c ((h.lanesUsed c).map (fun l => (l, hdrCtrl, eidleBlock))) false).emit (.ctrl c eidleBlock)

/-! Strike rows (R111, R212). -/

/-- A strike row: STRIKE on the first active lane, its copy on the spare or else on the second active lane, ROWFILL on every
other active lane. -/
def Hub.strikeRowOf (h : Hub) (c w : Nat) : List (Nat × Nat × Nat) :=
  let ls := h.stripe c
  if isTrunk c && h.laneRole c 4 == 3 then
    match ls with
    | [] => []
    | l :: rest => (l, hdrCtrl, w) :: rest.map (fun k => (k, hdrCtrl, btRowfill)) ++ [(4, hdrCtrl, w)]
  else
    match ls with
    | l :: k :: rest => (l, hdrCtrl, w) :: (k, hdrCtrl, w) :: rest.map (fun j => (j, hdrCtrl, btRowfill))
    | _ => ls.map (fun l => (l, hdrCtrl, w))

/-- The transmitter sends the head of its strike queue as a strike row (R208, R210). -/
def Hub.strikeHead (h : Hub) (c : Nat) : Hub :=
  let s := h.stk c
  match s.queue with
  | [] => h
  | q :: rest =>
    if !h.strikeUp c then h
    else
      let x := { q.2 with stseq := s.stseq }
      let h := h.modStk c (fun s => { s with
        queue := rest, stseq := (s.stseq + 1) % 1024
        cur := if isTrunk c then { s.cur with sent := s.cur.sent ++ [x] } else s.cur })
      let h := if isTrunk c then h.obsEvent 0 (16 * (c - 1) + 8) else h.obsEvent 1 (8 * (c - 5) + 4)
      ((h.inc (R.fpTx (fpOf c))).driveRow c (h.strikeRowOf c (strikeWord x)) false).emit (.strike c x)

/-- Every strike row that waits goes out (R210). -/
def Hub.strikeRows (h : Hub) (c : Nat) : Hub := h.each (List.range 8) (fun h _ => h.strikeHead c)

/-- A direction in electrical idle leaves it as soon as there is a block to send: the burst, the strike rows that wait, and
the restart ALIGN row (R184). -/
def Hub.idleExit (h : Hub) (c : Nat) : Hub :=
  if h.flag (fEidleTx c) then ((((h.set (fEidleTx c) 0).idleStates c).exitBurst c).strikeRows c).sendAlign c else h

/-- Send a strike row; from electrical idle it follows the exit burst (R184, R210). -/
def Hub.sendStrike (h : Hub) (c : Nat) : Hub :=
  if (h.stk c).queue.isEmpty ∨ ¬ h.strikeUp c then h
  else if h.flag (fEidleTx c) then h.idleExit c
  else h.strikeHead c

/-- Send blocks of the stream; queued strike rows go first (R210). -/
def Hub.sendBlocks (h : Hub) (c : Nat) (bs : List (Nat × Nat)) : Hub :=
  let h := (h.idleExit c).strikeRows c
  if (h.stripe c).isEmpty then h else h.streamRows c bs.length bs

/-- Send a control block. -/
def Hub.sendCtrl (h : Hub) (c w : Nat) : Hub := (h.sendBlocks c [(hdrCtrl, w)]).emit (.ctrl c w)

end Sys2Proof.Machine
end

