-- ==== Sys2Proof/Machine/TrunkOps.lean ====
section
/-!
DEFINITION. The link layer of trunk and line ports (chapter 4): CRC, frames as blocks, link units sent and received,
acknowledgement, replay, credits, frame encryption, and the start of a frame at an egress.
-/

namespace Sys2Proof.Machine

open Sys2Proof

/-! CRC-32 of R117, least significant bit first. -/

def crcStep (c : Nat) : Nat := if c % 2 = 1 then (c / 2) ^^^ 0xEDB88320 else c / 2

def crcByte (c : Nat) (b : Byte) : Nat :=
  crcStep (crcStep (crcStep (crcStep (crcStep (crcStep (crcStep (crcStep (c ^^^ b.toNat))))))))

def crc32 (l : List Byte) : Nat := (l.foldl crcByte 0xFFFFFFFF) ^^^ 0xFFFFFFFF

/-- Bits [31:8] of an LU_END (Table 4-3). -/
def luEndLow (ccls seq cnt : Nat) (fs : Bool) : Nat := b2n fs * 2 ^ 23 + seq * 2 ^ 8 + cnt * 4 + ccls

/-- CRC of a link unit: its data blocks in order, then bits [31:8] of its LU_END (R117). -/
def luCrc (ccls seq cnt : Nat) (fs : Bool) (blocks : List Nat) : Nat :=
  crc32 (blocks.flatMap (leBytes 8) ++ leBytes 3 (luEndLow ccls seq cnt fs))

/-- Do link units flow on the port: LINKUP, ATTACHING or ATTACHED of a trunk, LINKUP or UP of a line? -/
def Hub.linkFlows (h : Hub) (c : Nat) : Bool :=
  if isTrunk c then let s := h.get (R.linkState (c - 1)); s == 2 || s == 3 || s == 4
  else if isLine c then let s := h.get (R.lpState (c - 5)); s == 2 || s == 3
  else false

/-- Has trunk `c` failed, and not trained since? Its receive pool is judged as before (R322, R325), under its session keys. -/
def Hub.poolLeft (h : Hub) (c : Nat) : Bool :=
  let st := h.get (R.linkState (c - 1))
  isTrunk c && (st == 5 || st == 0) && (h.link c).sess.isSome

/-- Are the frames of the port encrypted: a trunk in ATTACHED, or a line with ENC in force (R31, R154, R351)? -/
def Hub.encrypted (h : Hub) (c : Nat) : Bool :=
  if isTrunk c then h.get (R.linkState (c - 1)) == 4 || h.poolLeft c
  else isLine c && h.flag (R.lpEnc (c - 5)) && (h.get (R.lpState (c - 5)) == 3)

/-- Transmit and receive side of one credit class. -/
def Hub.txc (h : Hub) (c k : Nat) : TxClass := tabGet (h.link c).tx (k1 k) {}
def Hub.rxc (h : Hub) (c k : Nat) : RxClass := tabGet (h.link c).rx (k1 k) {}

def Hub.setTxc (h : Hub) (c k : Nat) (x : TxClass) : Hub :=
  h.modLink c (fun l => { l with tx := tabSet l.tx (k1 k) x {} })

def Hub.setRxc (h : Hub) (c k : Nat) (x : RxClass) : Hub :=
  h.modLink c (fun l => { l with rx := tabSet l.rx (k1 k) x {} })

/-- Cells of the receive pool that are a class's share (R136, Table 11-6). -/
def Hub.shareCells (h : Hub) (c k : Nat) : Nat :=
  if isTrunk c then
    16 * h.get (match k with
      | 0 => R.linkCtl (c - 1)
      | 1 => R.linkIso (c - 1)
      | 2 => R.linkRtx (c - 1)
      | _ => R.linkBlk (c - 1))
  else
    8 * h.get (match k with
      | 0 => R.lpCtl (c - 5)
      | 1 => R.lpIso (c - 5)
      | 2 => R.lpRtx (c - 5)
      | _ => R.lpBlk (c - 5))

/-! Link states (Table 11-5) and cause bits (Table 11-15). -/

def lDown : Nat := 0
def lTraining : Nat := 1
def lLinkup : Nat := 2
def lUp : Nat := 3
def lFailed : Nat := 4
def cWidth : Nat := 0
def cSilent : Nat := 1
def cProto : Nat := 2
def cTag : Nat := 3
def cTrn : Nat := 4
def cDegrade : Nat := 5
def cAuth : Nat := 6
def cNbTmo : Nat := 7
def cNodeSilent : Nat := 8

/-- Link state of a line port. -/
def Hub.lineState (h : Hub) (n : Nat) : Nat := h.get (R.lpState n)

/-- Set a cause bit and raise the source of its group (R367). -/
def Hub.lineCause (h : Hub) (n b : Nat) : Hub :=
  (h.set (R.lpCause n) (setBit (h.get (R.lpCause n)) b)).raise (if b ≤ 3 then srcLpFail n else srcLpWarn n) b

/-- Is this the first block of a node-bus packet: tunnel ID 0x000 on a line link (R353)? -/
def nbHead (c b : Nat) : Bool := isLine c && bits b 31 20 == 0

/-- EXT of the frame whose first block is `b`: word 0 bit 7, which a node-bus packet uses for its tag. -/
def extOf (c b : Nat) : Nat := if nbHead c b then 0 else bits b 7 7

/-- Cost in credits of the frame whose first block is `b` (R131): LEN is word 1 bits [31:18]. -/
def costOfBlock (c b : Nat) : Nat := ceilDiv (16 + 8 * extOf c b + bits b 63 50) 256

/-- Blocks of the frame whose first block is `b` (R140). -/
def blocksOfBlock (c b : Nat) (enc : Bool) : Nat := 2 + extOf c b + ceilDiv (bits b 63 50) 8 + 3 * b2n enc

/-- HELD of a class: cells of the frame arriving, of frames reassembled and of frames held by the hearth (R133). A frame that
is cut through has left the pool when it was admitted. -/
def Hub.heldOf (h : Hub) (c k : Nat) : Nat :=
  let x := h.rxc c k
  (match x.part with
    | [] => 0
    | b :: _ => if x.overrun || x.cut.isSome then 0 else costOfBlock c b) +
  ((x.done.filter (fun f => f.cut.isNone)).map (fun f => costOfBlock c (f.blocks.headD 0))).sum + h.heldCells c k

/-- The credit limit advertised for a class (R133). -/
def Hub.creditLimit (h : Hub) (c k : Nat) : Nat :=
  ((h.rxc c k).rxc + h.shareCells c k + 16384 - h.heldOf c k % 16384) % 16384

/-- Send a CREDIT block (R133). -/
def Hub.sendCredit (h : Hub) (c : Nat) : Hub :=
  let w := creditBlock (h.creditLimit c 0) (h.creditLimit c 1) (h.creditLimit c 2) (h.creditLimit c 3)
  let h := h.each [0, 1, 2, 3] (fun h k => h.setRxc c k { h.rxc c k with adv := h.creditLimit c k })
  h.sendCtrl c w

/-- A rise of any limit is advertised (R133). -/
def Hub.settleCredit (h : Hub) (c : Nat) : Hub :=
  let rose (k : Nat) : Bool :=
    let d := (h.creditLimit c k + 16384 - (h.rxc c k).adv) % 16384
    decide (0 < d) && decide (d < 8192)
  if h.linkFlows c && [0, 1, 2, 3].any rose then h.sendCredit c else h

/-- Send an ACK of a reliable class (R123). -/
def Hub.sendAck (h : Hub) (c k : Nat) : Hub :=
  h.sendCtrl c (ackBlock k (((h.rxc c k).nextSeq + 32767) % 32768) 0 false)

/-- Send a NAK of a reliable class and remember what it asked for (R122, R123). -/
def Hub.sendNak (h : Hub) (c k : Nat) : Hub :=
  let x := h.rxc c k
  let h := h.setRxc c k { x with nak := some x.nextSeq }
  let h := if isTrunk c then h.obsEvent 0 (16 * (c - 1) + 6) else h
  (h.inc (fNakTx c)).sendCtrl c (ackBlock k ((x.nextSeq + 32767) % 32768) (if k = 0 then x.nextSeq else 0) true)

/-- NAK once for what is missing: a NAK that is outstanding for the same link unit is not sent again here. -/
def Hub.nakOnce (h : Hub) (c k : Nat) : Hub :=
  if (h.rxc c k).nak = some (h.rxc c k).nextSeq then h else h.sendNak c k

/-- Send a PROBE and remember when (Table 4-16). -/
def Hub.sendProbe (h : Hub) (c : Nat) : Hub :=
  let l := h.link c
  let h := h.modLink c (fun l => { l with pid := (l.pid + 1) % 65536, probes := (l.probes ++ [(l.pid, h.now)]).drop (l.probes.length + 1 - 64) })
  h.sendCtrl c (probeBlock l.pid false)

/-- A protocol error on a port (R127, R135, Table 11-15). -/
def Hub.linkProtocol (h : Hub) (c : Nat) : Hub :=
  if isTrunk c then h.raise (srcLinkProto (c - 1)) 0 else h.lineCause (c - 5) cProto

/-! Frames as blocks (Tables 4-8 to 4-12). -/

/-- Words 0 to 3 of a frame header (Table 4-9), or of a node-bus packet's (Table 11-7). -/
def frameWords (f : Frame) : List Nat :=
  match f.nb with
  | some b => [b.op * 2 ^ 16 + b2n b.ni * 2 ^ 12 + b.status * 2 ^ 8 + b.tag, f.len * 2 ^ 18 + b.rlen * 2 ^ 9,
      b.addr % 2 ^ 32, b.addr / 2 ^ 32 % 2 ^ 32]
  | none =>
  [f.tid * 2 ^ 20 + f.gen * 2 ^ 16 + f.cls * 2 ^ 13 + b2n f.first * 2 ^ 12 + b2n f.last * 2 ^ 11 + b2n f.posted * 2 ^ 10 +
     b2n f.retry * 2 ^ 9 + b2n f.late * 2 ^ 8 + b2n f.ext * 2 ^ 7 + b2n f.fence * 2 ^ 6 + b2n f.rev * 2 ^ 5,
   f.len * 2 ^ 18 + f.seq,
   f.tag * 2 ^ 16 + f.op * 2 ^ 12 + f.status * 2 ^ 8,
   f.rlen * 2 ^ 18]

/-- Header and extension blocks of a frame (Table 4-8). -/
def frameHead (f : Frame) : List Nat :=
  match frameWords f with
  | [w0, w1, w2, w3] => [w0 + w1 * 2 ^ 32, w2 + w3 * 2 ^ 32] ++ (if f.ext then [f.addr % 2 ^ 64] else [])
  | _ => []

/-- Payload bytes as blocks, padded with zero bytes (Table 4-8). -/
def payloadBlocks (l : List Byte) : List Nat :=
  (List.range (ceilDiv l.length 8)).map (fun i => leWord ((l.drop (8 * i)).take 8))

/-- The session key of a direction: 0 hub to far end, 1 far end to hub (R159, R360, R672). -/
def Hub.sessionKey (h : Hub) (c dir : Nat) : KeyTerm :=
  let l := h.link c
  match l.sess with
  | none => .zero
  | some (k, _) => .kdf k (if isTrunk c then "HBSK" else "HBNK")
      (leBytes 4 dir ++ l.nPeer ++ l.nHub ++ leBytes 8 h.sec.hubId ++ leBytes 8 l.peerId ++ leBytes 4 c)

/-- Key and SALT of an epoch: 288 bits (R159, R155). -/
def Hub.epochBytes (h : Hub) (c dir epoch : Nat) : List Byte :=
  kdf (keyBytes (h.sessionKey c dir)) "EPOK" (leBytes 4 epoch) 288

/-- The key, and the nonce of the frame with crypto word `cw`: SALT, then the word, its word 1 first (R155). -/
def epochKey (kb : List Byte) : List Byte := kb.take 32
def epochNonce (kb : List Byte) (cw : Nat) : List Byte := kb.drop 32 ++ beBytes 8 cw

/-- Blocks as bytes. -/
def blockBytes (l : List Nat) : List Byte := l.flatMap (leBytes 8)

/-- The crypto word as a block (Table 4-12). -/
def cryptoBlock (fcnt epoch ccls : Nat) : Nat :=
  fcnt % 2 ^ 32 + (fcnt / 2 ^ 32 % 2 ^ 16) * 2 ^ 32 + ccls * 2 ^ 60 + (epoch % 4) * 2 ^ 62

/-- The blocks of a frame as its port sends it: encrypted under `kb` (R154 to R156), or plain. -/
def wireBlocks (f : Frame) (ccls epoch fcnt : Nat) (kb : List Byte) : List Nat :=
  if kb.isEmpty then frameHead f ++ payloadBlocks f.payload
  else
    let cw := cryptoBlock fcnt epoch ccls
    let head := frameHead f ++ [cw]
    let cipher := gcmCrypt (epochKey kb) (epochNonce kb cw) f.payload
    head ++ payloadBlocks cipher ++ payloadBlocks (gcmTag (epochKey kb) (epochNonce kb cw) (blockBytes head) cipher)

/-- The frame whose header, extension and payload are these: every field at its place, a reserved bit of the header or of the
crypto word in `rsv` (Table 4-9, Table 4-12); on a line with tunnel ID 0x000, a node-bus packet (Table 11-7). -/
def frameOf (c b0 b1 addr cw : Nat) (payload : List Byte) : Frame :=
  if nbHead c b0 then
    { tid := 0, gen := 0, cls := bits b0 15 13, payload := payload, rsv := bits b0 40 32 ||| bits cw 59 48
      nb := some { op := bits b0 19 16, ni := bit b0 12, status := bits b0 11 8, tag := bits b0 7 0, rlen := bits b0 49 41,
                   addr := b1 } }
  else
    { tid := bits b0 31 20, gen := bits b0 19 16, cls := bits b0 15 13, first := bit b0 12, last := bit b0 11
      posted := bit b0 10, retry := bit b0 9, late := bit b0 8, ext := bit b0 7, fence := bit b0 6, rev := bit b0 5
      seq := bits b0 47 32, tag := bits b1 31 16, op := bits b1 15 12, status := bits b1 11 8, rlen := bits b1 63 50
      addr := addr, rsv := bits b0 4 0 ||| bits b0 49 48 ||| bits b1 7 0 ||| bits b1 49 32 ||| bits cw 59 48
      payload := payload }

/-- Payload bytes that the blocks after the header hold, `n` of them; what has not arrived is zeros. -/
def payloadOf (l : List Nat) (n : Nat) : List Byte :=
  let b := (blockBytes l).take n
  b ++ List.replicate (n - b.length) 0

/-! Transmit side. -/

/-- Is a frame in progress or queued encrypted: its port has keys in force, and it is no message sent in the clear? -/
def Hub.encrypts (h : Hub) (c : Nat) (x : TxFrame) : Bool := h.encrypted c && !x.clear

/-- Blocks of a frame as it is sent, and how many of them are in hand: of a cut-through frame, the whole words of the cells
written (R248); none where a cell cannot be read. -/
def TxFrame.total (x : TxFrame) : Nat := frameBlocks x.f (!x.kb.isEmpty)
def TxFrame.avail (x : TxFrame) : Nat :=
  if x.bad then 0
  else if x.ct && decide (x.written < x.cells) then
    2 + b2n x.f.ext + b2n (!x.kb.isEmpty) + (x.written * 256 - (16 + 8 * b2n x.f.ext)) / 8
  else x.total
def TxFrame.wire (x : TxFrame) : List Nat := wireBlocks x.f x.ccls x.epoch x.fcnt x.kb

/-- The LU_END of a link unit (Table 4-3). -/
def luEndWord (u : TxLu) : Nat := btLuEnd + luEndLow u.ccls u.seq u.cnt u.fs * 2 ^ 8 + u.crc * 2 ^ 32

/-- Is `k` a reliable credit class, one that acknowledgements name (Table 4-4)? -/
def reliable (k : Nat) : Bool := k == 0 || k == 2

/-- Close the link unit of class `k` whose blocks are `blocks`, the last of them, `last`, being sent with its LU_END
(R113, R115 to R117); `bad` closes it with the complement of its CRC (R250). -/
def Hub.closeUnit (h : Hub) (c k : Nat) (fs : Bool) (blocks last : List Nat) (bad : Bool) : Hub :=
  let t := h.txc c k
  let crc := luCrc k t.nextSeq blocks.length fs blocks
  let u : TxLu := { ccls := k, seq := t.nextSeq, fs := fs, cnt := blocks.length, blocks := blocks,
                    crc := if bad then crc ^^^ 0xFFFFFFFF else crc }
  let h := h.setTxc c k { t with nextSeq := (t.nextSeq + 1) % 32768,
                                 unacked := if reliable k then t.unacked ++ [u] else t.unacked }
  let h := h.modLink c (fun l => { l with open_ := none })
  (h.sendBlocks c (last.map (fun b => (hdrData, b)) ++ [(hdrCtrl, luEndWord u)])).emit (.lu c u)

/-- The frame of class `k` in progress has `n` more blocks placed; one that is whole is known in the replay area by the link
unit `seq` that carries its last block (R130). -/
def Hub.placed (h : Hub) (c k n : Nat) (whole : Bool) (seq : Nat) : Hub :=
  h.modLink c (fun l => { l with
    wait := if whole then l.wait.filter (fun x => x.ccls != k)
      else l.wait.map (fun x => if x.ccls = k then { x with pos := x.pos + n } else x)
    area := if whole then l.area.map (fun x => if x.ccls = k ∧ x.lastSeq = none then { x with lastSeq := some seq } else x)
      else l.area })

/-- Place blocks of frame `x` in a link unit that holds `have_` already: up to 63 in all, or as many as are in hand; where
more are to come, the unit stays open and the port fills with IDLE (R113, R249). -/
def Hub.fillUnit (h : Hub) (c : Nat) (x : TxFrame) (fs : Bool) (have_ : List Nat) : Hub :=
  let n := min (63 - have_.length) (x.avail - x.pos)
  if n = 0 then h
  else
    let new := (x.wire.drop x.pos).take n
    let whole := x.pos + n == x.total
    if whole || have_.length + n == 63 then
      let seq := (h.txc c x.ccls).nextSeq
      (h.closeUnit c x.ccls fs (have_ ++ new) new false).placed c x.ccls n whole seq
    else
      ((h.modLink c (fun l => { l with open_ := some (x.ccls, fs, have_ ++ new) })).sendBlocks c
        (new.map (fun b => (hdrData, b)))).placed c x.ccls n false 0

/-- May another link unit of a class be outstanding (Table 4-4)? -/
def Hub.unackedRoom (h : Hub) (c k : Nat) : Bool :=
  let n := (h.txc c k).unacked.length
  match k with
  | 0 => decide (n < 64)
  | 2 => decide (n < 16384)
  | _ => true

/-- The frame of class `k` that has begun and is not finished. -/
def Hub.going (h : Hub) (c k : Nat) : Option TxFrame := (h.link c).wait.find? (fun x => x.ccls == k)

/-- The next link unit of the frame of class `k` in progress (R118). -/
def Hub.newLu (h : Hub) (c k : Nat) : Hub :=
  match h.going c k with
  | none => h
  | some x => if h.unackedRoom c k then h.fillUnit c x (x.pos == 0) [] else h

/-- More of a cut-through frame is in hand: a link unit kept open for it goes on (R249). -/
def Hub.extendLu (h : Hub) (c : Nat) : Hub :=
  match (h.link c).open_ with
  | none => h
  | some (k, fs, l) => match h.going c k with
    | some x => h.fillUnit c x fs l
    | none => h

/-- The words of a time response that tell of its start are written as it starts: T3 is the pin time, fixed by the egress's
latency; TICK, BOUND and PERIOD belong to the tick that contains it (R53, R54, Table 2-2). -/
def Hub.timeStamp (h : Hub) (c : Nat) (f : Frame) : Frame :=
  let ws := bytesWords f.payload
  if f.tid = 14 ∧ f.payload.length = 48 ∧ ws.getD 0 0 % 256 = 2 then
    let t3 := h.now + Config.egressLatency c
    let (n, b, p) := h.tickAt t3
    { f with payload := wordBytes (ws.take 5 ++ twoWords t3 ++ twoWords (n % 2 ^ 48) ++ twoWords b ++
        [h.get R.tickSynced * 2 ^ 11 + h.get R.tickRefMode * 2 ^ 10 + h.get R.tickRefHost * 2 ^ 8 + p]) }
  else f

/-- A port starts a frame: credits are consumed, a frame counter and the epoch in force are taken, a frame of a reliable class
goes to the replay area, and its first link unit is placed (R130, R132, R156, R160). -/
def Hub.startTx (h : Hub) (c : Nat) (x : TxFrame) : Hub :=
  let t := h.txc c x.ccls
  let h := h.setTxc c x.ccls { t with cc := (t.cc + x.cells) % 16384 }
  let (nos, h) := if x.nos.isEmpty then h.takeCells x.cells else (x.nos, h)
  let enc := h.encrypts c x
  let ep := h.get (fEpoch c)
  let n := tabGet (h.link c).fcnt (k1 x.ccls) 0
  let x := { x with f := h.timeStamp c x.f, nos := nos, epoch := ep, fcnt := n, pos := 0, lastSeq := none
                    kb := if enc then h.epochBytes c 0 ep else [] }
  let h := h.modLink c (fun l => { l with
    wait := l.wait ++ [x]
    area := if reliable x.ccls then l.area ++ [x] else l.area
    csyncDue := l.csyncDue || !reliable x.ccls
    fcnt := if enc then tabPut l.fcnt (k1 x.ccls) (n + 1) else l.fcnt })
  h.newLu c x.ccls

/-- Cut-through frames that are still arriving: the ingress and the queue of each (R248). -/
def Hub.ctArriving (h : Hub) : List (Nat × Nat) :=
  h.links.flatMap (fun e => (e.2.wait.filter (fun x => x.ct && decide (x.written < x.cells))).map (fun x => (x.ingress, x.key))) ++
  h.hearth.queues.flatMap (fun e =>
    (e.2.frames.filter (fun q => q.ct && decide (q.written < q.cells))).map (fun q => (q.ingress, qkey e.1.i e.1.j)))

/-- The receive side gives up a frame that was being cut through for queue `k`: what is still to come of it is discarded. -/
def Hub.dropCut (h : Hub) (k : Nat) : Hub :=
  h.each h.links (fun h e => h.each [1, 3] (fun h cc =>
    let x := h.rxc e.1.i cc
    if x.cut = some k ∨ x.done.any (fun f => f.cut == some k) then
      h.setRxc e.1.i cc { x with cut := if x.cut = some k then none else x.cut
                                 overrun := x.overrun || x.cut == some k
                                 done := x.done.filter (fun f => f.cut != some k) }
    else h))

/-- The frame `x` that egress `e` is sending is abandoned: its link unit is closed with an inverted CRC. Between two link
units that is one without data (R250; DESIGN CHOICE, assumption 215). -/
def Hub.abandonTx (h : Hub) (e : Nat) (x : TxFrame) : Hub :=
  let h := match (h.link e).open_ with
    | some (cc, fs, l) => if cc = x.ccls then h.closeUnit e cc fs l [] true else h.closeUnit e x.ccls false [] [] true
    | none => h.closeUnit e x.ccls (x.pos == 0) [] [] true
  (h.modLink e (fun l => { l with wait := l.wait.filter (fun y => y.ccls != x.ccls) })).countAtt R.attCtAbort e

/-- The cut-through frame of queue `k` that egress `e` is sending and that still arrives is abandoned. -/
def Hub.ctAbortTx (h : Hub) (e k : Nat) : Hub :=
  match (h.link e).wait.find? (fun x => x.ct && decide (x.written < x.cells) && x.key == k) with
  | none => h
  | some x => h.abandonTx e x

/-- The frame of a queue that is still arriving by cut-through is abandoned (R250), whether it has started or not. -/
def Hub.ctAbort (h : Hub) (k : Nat) : Hub :=
  let t := k / 2
  let dir := k % 2
  let live (q : QFrame) : Bool := q.ct && decide (q.written < q.cells)
  let h := h.each (h.links.map (fun e => e.1.i)) (fun h e => h.ctAbortTx e k)
  let n := ((h.queue t dir).frames.filter live).length
  let e := h.egressOf t dir
  let h := h.modQueue t dir (fun q => { q with frames := q.frames.filter (fun x => !live x) })
  ((h.each (List.range n) (fun h _ => h.countAtt R.attCtAbort e)).dropCut k).settleFree

/-- Send one link unit again, bit for bit (R125). -/
def Hub.repeatLu (h : Hub) (c k : Nat) : Hub :=
  let t := h.txc c k
  match t.replay with
  | [] => h
  | s :: rest =>
    let h := h.setTxc c k { t with replay := rest, replayFrom := if rest.isEmpty then none else t.replayFrom }
    match t.unacked.find? (fun u => u.seq == s) with
    | none => h
    | some u => ((h.inc (fReplayLu c)).sendBlocks c (u.blocks.map (fun b => (hdrData, b)) ++ [(hdrCtrl, luEndWord u)])).emit (.lu c u)

/-! Receive side. -/

/-- The frame being reassembled is whole: it waits for the hearth, unless it is discarded (R121, R135). -/
def Hub.frameWhole (h : Hub) (c k : Nat) : Hub :=
  let x := h.rxc c k
  if x.part.isEmpty ∨ x.part.length < blocksOfBlock c (x.part.headD 0) (h.encrypted c) then h
  else h.setRxc c k { x with part := [], nos := [], cut := none, overrun := false
                             done := if x.overrun then x.done else x.done ++ [{ blocks := x.part, nos := x.nos, cut := x.cut }] }

/-- One accepted data block of a class joins the frame being reassembled (R121, R133). A frame that has no credits is a
protocol error (R135). -/
def Hub.takeBlock (h : Hub) (c k : Nat) (b : Nat) : Hub :=
  let x := h.rxc c k
  if x.part.isEmpty then
    let cost := costOfBlock c b
    let past := decide (h.shareCells c k < h.heldOf c k + cost)
    let (nos, h) := if past then ([], h) else h.takeCells cost
    let h := h.setRxc c k { x with part := [b], nos := nos, cut := none, overrun := past, rxc := (x.rxc + cost) % 16384 }
    if past then (h.inc (fFmtErr c)).linkProtocol c else h
  else (h.setRxc c k { x with part := x.part ++ [b] }).frameWhole c k

/-- The data blocks of an accepted link unit (R121). -/
def Hub.takeBlocks (h : Hub) (c k : Nat) (fs : Bool) (l : List Nat) : Hub :=
  let x := h.rxc c k
  if x.skip && !fs then h
  else (h.setRxc c k { x with skip := false }).each l (fun h b => h.takeBlock c k b)

/-- A link unit of class `k` failed (R121, R123). A frame that was being cut through is abandoned (R250). -/
def Hub.luFailed (h : Hub) (c k : Nat) : Hub :=
  if reliable k then h.nakOnce c k
  else
    let x := h.rxc c k
    let h := match x.cut with
      | some q => h.ctAbort q
      | none => h
    let h := h.setRxc c k { h.rxc c k with part := [], nos := [], cut := none, overrun := false, skip := true }
    if x.part.isEmpty then h else h.inc (fUrLost c)

/-- A link unit whose class is not known failed (R120). -/
def Hub.luFailedAll (h : Hub) (c : Nat) : Hub :=
  ((((h.inc (fCrcErr c)).luFailed c 0).luFailed c 1).luFailed c 2).luFailed c 3

/-- Release held control link units in SEQ order (R122). -/
def Hub.releaseHeld (h : Hub) (c : Nat) : Nat → Hub
  | 0 => h
  | n + 1 =>
    let x := h.rxc c 0
    match x.held.find? (fun u => u.1 == x.nextSeq) with
    | none => h
    | some u =>
      let h := h.setRxc c 0 { x with held := x.held.filter (fun v => v.1 != u.1), nextSeq := (x.nextSeq + 1) % 32768 }
      (h.takeBlocks c 0 u.2.1 u.2.2).releaseHeld c n

/-- An intact link unit is accepted, held or discarded by R122, and acknowledged by R123. -/
def Hub.acceptLu (h : Hub) (c k seq : Nat) (fs : Bool) (blocks : List Nat) : Hub :=
  let x := h.rxc c k
  let d := (seq + 32768 - x.nextSeq) % 32768
  match k with
  | 0 =>
    if d < 64 then
      let h := h.setRxc c 0 { x with held := x.held ++ (if x.held.any (fun u => u.1 == seq) then [] else [(seq, fs, blocks)]),
                                     nak := if d = 0 then none else x.nak }
      let h := (h.releaseHeld c 64).sendAck c 0
      if (h.rxc c 0).held.isEmpty then h else h.nakOnce c 0
    else if d < 16384 then h.nakOnce c 0
    else h
  | 2 =>
    if d = 0 then
      let h := h.setRxc c 2 { x with nextSeq := (seq + 1) % 32768, nak := none }
      (h.takeBlocks c 2 fs blocks).sendAck c 2
    else if d < 16384 then h.nakOnce c 2
    else h
  | _ =>
    let h := if d < 16384 then h.add (fUrLost c) d else h
    let h := if d = 0 then h else match x.cut with
      | some q => h.ctAbort q
      | none => h
    let x := h.rxc c k
    let h := h.setRxc c k (if d = 0 then { x with nextSeq := (seq + 1) % 32768 }
      else { x with nextSeq := (seq + 1) % 32768, part := [], nos := [], cut := none, overrun := false, skip := true })
    h.takeBlocks c k fs blocks

/-- A link unit as received: R120 decides whether it failed; a failed one whose CRC does not match is not trusted to
name its class and fails in every class. -/
def Hub.receiveLu (h : Hub) (c : Nat) (u : TxLu) (blockErr : Bool) : Hub :=
  let crcOk := luCrc u.ccls u.seq u.cnt u.fs u.blocks == u.crc
  let failed := !crcOk || blockErr || u.cnt != u.blocks.length || u.cnt == 0
  if failed then (if crcOk then (h.inc (fCrcErr c)).luFailed c u.ccls else h.luFailedAll c)
  else h.acceptLu c u.ccls u.seq u.fs u.blocks

/-- The link unit that an LU_END closes: the data blocks received since the last one. -/
def Hub.luEnds (h : Hub) (c w : Nat) : Hub :=
  let l := h.link c
  let u : TxLu := { ccls := bits w 9 8, seq := bits w 30 16, fs := bit w 31, cnt := bits w 15 10, crc := bits w 63 32,
                    blocks := l.inLu }
  (h.modLink c (fun l => { l with inLu := [], inErr := false })).receiveLu c u l.inErr

/-- A data block arrives; the 64th without an LU_END fails the link unit (R120). -/
def Hub.dataArrives (h : Hub) (c w : Nat) : Hub :=
  if (h.link c).inLu.length = 63 then (h.modLink c (fun l => { l with inLu := [], inErr := false })).luFailedAll c
  else h.modLink c (fun l => { l with inLu := l.inLu ++ [w] })

/-- A block error (R108): counted, and the link unit that it stands in fails. -/
def Hub.blockBad (h : Hub) (c : Nat) (b : Block) : Hub :=
  let h := (h.inc (fCrcErr c)).when (badHdr b && decide (b.lane < laneCount c)) (fun h => h.inc (fSyncErr c b.lane))
  h.modLink c (fun l => { l with inErr := l.inErr || !l.inLu.isEmpty })

/-- An acknowledgement frees link units and the frames wholly acknowledged (R127, R130). The answer is false for one
that lies beyond the last link unit sent. -/
def Hub.applyAck (h : Hub) (c k ackSeq : Nat) : Bool × Hub :=
  let t := h.txc c k
  let d := (ackSeq + 32768 - t.oldest) % 32768
  let sent := (t.nextSeq + 32768 - t.oldest) % 32768
  if d < sent then
    let done (s : Nat) : Bool := decide ((s + 32768 - t.oldest) % 32768 ≤ d)
    let h := h.setTxc c k { t with oldest := (ackSeq + 1) % 32768,
                                   unacked := t.unacked.filter (fun u => !done u.seq),
                                   replay := t.replay.filter (fun s => !done s) }
    (true, h.modLink c (fun l => { l with area := l.area.filter (fun x => !(x.ccls == k && (match x.lastSeq with
      | some s => done s
      | none => false))) }))
  else (decide (16384 ≤ d), h)

/-- Order a replay of a reliable class (R124, R126). -/
def Hub.orderReplay (h : Hub) (c k nseq : Nat) : Hub :=
  let t := h.txc c k
  if k = 0 then
    if t.unacked.any (fun u => u.seq == nseq) && !t.replay.contains nseq then
      h.setTxc c 0 { t with replay := t.replay ++ [nseq] }
    else h
  else match t.unacked with
    | [] => h
    | u :: _ =>
      if t.replayFrom = some u.seq then h
      else h.setTxc c 2 { t with replay := t.unacked.map TxLu.seq, replayFrom := some u.seq }

/-- An acknowledgement of a reliable class, and with NAK 1 a replay of what it asks for (R124, R127). One that names a link
unit not yet sent is ignored, and is a protocol error. -/
def Hub.ackArrives (h : Hub) (c w : Nat) : Hub :=
  let k := bits w 9 8
  if !reliable k then h
  else
    let h := if bit w 10 then h.inc (fNakRx c) else h
    match h.applyAck c k (bits w 25 11) with
    | (true, h) => if bit w 10 then h.orderReplay c k (bits w 40 26) else h
    | (false, h) => h.linkProtocol c

/-- A CREDIT block (R132). -/
def Hub.creditArrives (h : Hub) (c w : Nat) : Hub :=
  h.each [(0, bits w 21 8), (1, bits w 35 22), (2, bits w 49 36), (3, bits w 63 50)]
    (fun h p => h.setTxc c p.1 { h.txc c p.1 with cl := p.2 })

/-- A CSYNC block (R134). -/
def Hub.csyncArrives (h : Hub) (c w : Nat) : Hub :=
  h.each [(1, bits w 21 8), (3, bits w 35 22)] (fun h p => h.setRxc c p.1 { h.rxc c p.1 with rxc := p.2 })

/-- The echo of a PROBE gives one round trip, in units of 4 ns; RTT is the largest of the last eight (R169). -/
def Hub.probeEcho (h : Hub) (c pid : Nat) : Hub :=
  let l := h.link c
  match l.probes.find? (fun p => p.1 == pid) with
  | none => h
  | some (_, t) =>
    let r := (l.rtts ++ [min 0xFFFF ((h.now - t) / 4)]).drop (l.rtts.length + 1 - 8)
    (h.modLink c (fun l => { l with rtts := r, probes := l.probes.filter (fun p => p.1 != pid) })).set (fRtt c) (r.foldl max 0)

/-- A PROBE to echo, or the echo of one of the hub's. -/
def Hub.probeArrives (h : Hub) (c w : Nat) : Hub :=
  if bit w 8 then h.probeEcho c (bits w 31 16) else h.sendCtrl c (probeBlock (bits w 31 16) true)

/-- A block of the stream arrives (R106, R108, R113). Types that another command brings act there. -/
def Hub.blockArrives (h : Hub) (c : Nat) (b : Block) : Hub :=
  if blockError b then h.blockBad c b
  else if b.hdr = hdrData then h.dataArrives c b.w
  else if isType b btLuEnd then h.luEnds c b.w
  else if isType b btAck then h.ackArrives c b.w
  else if isType b btCredit then h.creditArrives c b.w
  else if isType b btCsync then h.csyncArrives c b.w
  else if isType b btProbe then h.probeArrives c b.w
  else h

/-- Sequence and credit state of a link on entry to LINKUP; CREDIT and 8 PROBE blocks are sent (Table 4-13). -/
def Hub.linkZero (h : Hub) (c : Nat) : Hub :=
  let h := h.modLink c (fun l => { l with tx := [], rx := [], wait := [], area := [], msgs := [], open_ := none, inLu := [],
                                          inErr := false, probes := [], rtts := [], csyncDue := false })
  h.sendCredit c

/-- The link layer of a port that goes off: what it was sending and receiving is gone. -/
def Hub.linkOff (h : Hub) (c : Nat) : Hub :=
  h.modLink c (fun l => { l with tx := [], rx := [], wait := [], area := [], msgs := [], open_ := none, inLu := [],
                                 inErr := false, probes := [] })

/-- Session keys and what hangs on them are discarded. -/
def Hub.dropSession (h : Hub) (c : Nat) : Hub :=
  let h := h.modLink c (fun l => { l with sess := none, fcnt := [], rxEpoch := 0, rxLast := [], keysReady := false,
                                          tagFails := 0 })
  (h.set (fEpoch c) 0).when (isTrunk c) (fun h => h.set (R.linkTxep (c - 1)) 0)

/-! Sending from the egress (R148, R285, R290). -/

/-- Count a started frame of a queue: frames, KiB, and the delay mark. -/
def Hub.countStart (h : Hub) (t dir : Nat) (q : QFrame) : Hub :=
  if isNb t then h else
  let h := h.modQueue t dir (fun x => { x with txBytes := x.txBytes + q.f.stored })
  let kib := (h.queue t dir).txBytes / 1024
  let ns := min (h.now - q.adm) (2 ^ 32 - 1)
  if dir = 0 then
    ((h.incWrap (R.qcTxfrmF t)).set (R.qcTxkibF t) kib).set (R.qcHwmDlyF t) (max (h.get (R.qcHwmDlyF t)) ns)
  else
    ((h.incWrap (R.qcTxfrmR t)).set (R.qcTxkibR t) kib).set (R.qcHwmDlyR t) (max (h.get (R.qcHwmDlyR t)) ns)

/-- Stamp a frame with the EGR_SEQ of its direction, which counts up (R148). -/
def Hub.stamp (h : Hub) (t dir : Nat) (f : Frame) : Frame × Hub :=
  if isNb t then (f, h)
  else if dir = 0 then ({ f with seq := h.get (R.runEgrSeq t) }, h.incWrap (R.runEgrSeq t))
  else
    let n := (h.queue t dir).seqOut
    ({ f with seq := n }, h.modQueue t dir (fun q => { q with seqOut := (q.seqOut + 1) % 65536 }))

/-- E2 delivers a frame to the bridge (R370). A node-bus packet whose NBOP is reserved goes no further (R354, R355). -/
def Hub.toBridge (h : Hub) (ingress : Nat) (f : Frame) : Hub :=
  match f.nb with
  | some x =>
    if x.op = 0 ∨ 5 < x.op then h.inc (R.lpNbFmt (ingress - 5))
    else { h with bridge := { h.bridge with inbox := h.bridge.inbox ++ [(ingress, f)] } }
  | none => { h with bridge := { h.bridge with inbox := h.bridge.inbox ++ [(0, f)] } }

/-- Hand a frame to the engine behind port `e`; at E3 a fence and what follows it wait (R152). -/
def Hub.handOver (h : Hub) (e ingress : Nat) (f : Frame) : Hub :=
  if e = codeE2 then h.toBridge ingress f
  else if e = codeE3 ∧ isTrunk ingress ∧ 1 ≤ f.tid ∧ f.tid ≤ 4 then
    let x := h.fenceOf ingress
    if x.fence.isSome then h.setFence ingress { x with waiting := x.waiting ++ [f] }
    else if f.fence || f.op == 5 then h.setFence ingress { x with fence := some f }
    else h.emit (.frame e f)
  else h.emit (.frame e f)

/-- A frame leaves its queue at egress `e`: to the link, or to the engine behind an engine port. -/
def Hub.deliver (h : Hub) (e t dir : Nat) (q : QFrame) : Hub :=
  let (f, h) := h.stamp t dir q.f
  let h := if dir = 1 ∧ ((f.op = 3 ∧ ¬ f.retry) ∨ f.op = 4 ∨ f.op = 6) then h.fenceDone t f.tag else h
  if isLink e then
    (h.when q.ct (fun h => h.countAtt R.attCtFrames e)).startTx e
      { f := f, ccls := q.ccls, cells := q.cells, key := qkey t dir, nos := q.nos, ct := q.ct, ingress := q.ingress
        written := q.written, bad := q.bad }
  else (h.fenceRename t q.f f).handOver e q.ingress f

/-- Start the head frame of queue `k` at egress `e`: the bellows is charged where `charge` holds, and the frame leaves
(R276). -/
def Hub.startHead (h : Hub) (e k : Nat) (charge : Bool) : Hub :=
  let t := k / 2
  let dir := k % 2
  match (h.queue t dir).frames with
  | [] => h
  | q :: rest =>
    let len := h.countedLen e q.f.stored
    let b := h.bel t dir
    let h := h.modQueue t dir (fun x => { x with frames := rest, tok := if charge && b.en then x.tok - len * 2 ^ 32 else x.tok })
    ((h.countStart t dir q).deliver e t dir q).settleFree

/-- The start that a selection orders (R273, R275, R278). -/
def Hub.startPick (h : Hub) (e : Nat) (p : Pick) : Hub :=
  match p with
  | .summary =>
    match (h.egress e).summary with
    | [] => h
    | q :: rest =>
      ((h.modEgress e (fun x => { x with summary := rest })).countStart q.f.tid 1 q).deliver e q.f.tid 1 q
  | .band b k =>
    let len := h.headLen e k
    let lim := (h.limiter e b).en
    let h := h.modEgress e (fun x =>
      let x := if lim then x.chargeBand b (len * 2 ^ 32) else x
      let x := x.setPtr b k
      { x with behind := (x.behind.filter (fun p => p.1 != k)).map (fun p => (p.1, p.2.filter (· != k))) })
    h.startHead e k true
  | .replay code =>
    match (h.egress e).b2.find? (fun p => p.1 == code) with
    | some (_, x :: rest) =>
      let h := h.modEgress e (fun y => { y with
        p2 := some code
        b2 := (y.b2.map (fun p => if p.1 == code then (code, rest) else p)).filter (fun p => !p.2.isEmpty) })
      let h := (h.inc (R.schB2Frm (e - 1))).inc (R.foRplFrm (code - 1))
      h.startTx e { x with origin := code }
    | _ => h
  | .group k guard =>
    let len := h.headLen e k
    let ws := h.wsum e
    let v0 := (h.egress e).v
    let v1 := match h.minS (h.groupActive e) with
      | some m => vMax v0 m
      | none => v0
    let h := h.modEgress e (fun x => { x with v := vAdd v1 len ws, guardDue := false, guardActed := x.guardActed || guard })
    let h := if guard then h.inc (R.schGuardCnt (e - 1)) else h
    let h := h.startHead e k true
    let still := h.isActive e k
    let h := h.modQueue (k / 2) (k % 2) (fun q =>
      if still then { q with vs := q.vf, vf := vAdd q.vf (h.headLen e k) (h.weightOf k) }
      else { q with vs := q.vf, active := false })
    match h.minS (h.groupActive e) with
    | some m => h.modEgress e (fun x => { x with v := vMax x.v m })
    | none => h

/-! What a link starts (R119, R124, R129, R271, R272). -/

/-- What the transmitter of a link starts next: a frame that the scheduler picks, a message of the attach exchange, the next
link unit of the frame of a class in progress, or a link unit sent again. -/
inductive LinkPick where
  | start (p : Pick)
  | msg
  | cont (k : Nat)
  | again (k : Nat)
deriving DecidableEq, Repr

/-- Can a frame of class `k` begin: none of the class is in progress (R118), and a reliable one finds room for its link units
and, but for a failover replay, in the replay area (R114, R327; assumption 216)? -/
def Hub.placeable (h : Hub) (c k cells : Nat) (replay : Bool) : Bool :=
  (h.going c k).isNone && h.unackedRoom c k && (!reliable k || replay || h.areaRoom c cells)

/-- Can the frame of a pick begin on link `e`? -/
def Hub.pickPlaceable (h : Hub) (e : Nat) (p : Pick) : Bool :=
  match p with
  | .summary => match (h.egress e).summary with
    | q :: _ => h.portUp e && decide (q.cells ≤ h.credits e 0) && h.placeable e 0 q.cells false
    | [] => false
  | .replay code => match (h.egress e).b2.find? (fun q => q.1 == code) with
    | some (_, x :: _) => h.placeable e x.ccls x.cells true
    | _ => false
  | .band _ k | .group k _ => match (h.queue (k / 2) (k % 2)).frames with
    | q :: _ => h.placeable e q.ccls q.cells false
    | [] => false

/-- A pick, where its frame can begin. -/
def Hub.startIf (h : Hub) (e : Nat) (p : Option Pick) : Option LinkPick :=
  match p with
  | some p => if h.pickPlaceable e p then some (.start p) else none
  | none => none

/-- Can the message that waits first begin? -/
def Hub.msgReady (h : Hub) (e : Nat) : Bool :=
  match (h.link e).msgs with
  | x :: _ => h.linkFlows e && decide (x.cells ≤ h.credits e 0) && h.placeable e 0 x.cells false
  | [] => false

/-- The choice of R129, activity and limiters being up to date; none while a link unit is open. A link unit of another class
may stand between those of a frame only as R119 lets it. -/
def Hub.linkChoice (h : Hub) (e : Nat) : Option LinkPick :=
  let again2 := !(h.txc e 2).replay.isEmpty
  let iso := h.startIf e ((h.bandPick e 1).map (Pick.band 1))
  if (h.link e).open_.isSome then none
  else if h.pickPlaceable e .summary then some (.start .summary)
  else if !(h.txc e 0).replay.isEmpty then some (.again 0)
  else if (h.going e 0).isSome then some (.cont 0)
  else if h.msgReady e then some .msg
  else match h.startIf e ((h.bandPick e 0).map (Pick.band 0)) with
    | some p => some p
    | none =>
      if (h.going e 1).isSome then some (.cont 1)
      else if (h.going e 3).isSome then some (.cont 3)
      else if (h.going e 2).isSome then (if again2 then some (iso.getD (.again 2)) else some (.cont 2))
      else match iso with
        | some p => some p
        | none => if again2 then some (.again 2) else h.startIf e (h.lowerPick e)

/-- The message that waits first is placed. -/
def Hub.startMsg (h : Hub) (e : Nat) : Hub :=
  match (h.link e).msgs with
  | [] => h
  | x :: rest =>
    let (f, h) := h.stamp (x.key / 2) (x.key % 2) x.f
    (h.modLink e (fun l => { l with msgs := rest })).startTx e { x with f := f }

/-- Queue a message of the attach exchange; it is encrypted only where keys are in force already (R168). -/
def Hub.sendMsg (h : Hub) (c : Nat) (f : Frame) (key : Nat) : Hub :=
  let h := h.modLink c (fun l => { l with msgs := l.msgs ++
    [{ f := f, ccls := 0, cells := f.cells, key := key, clear := !h.encrypted c }] })
  if (h.link c).open_.isNone && h.msgReady c then h.startMsg c else h

/-- Carry out a choice. -/
def Hub.linkGo (h : Hub) (e : Nat) (p : LinkPick) : Hub :=
  match p with
  | .start p => h.startPick e p
  | .msg => h.startMsg e
  | .cont k => h.newLu e k
  | .again k => h.repeatLu e k

/-- Bellows, limiters and activity of an egress as they stand at a selection (R275, R277). -/
def Hub.ready (h : Hub) (e : Nat) : Hub :=
  ((h.each (h.queuesAt e) (fun h k => h.refillQueue (k / 2) (k % 2))).refillBands e).refreshEgress e

end Sys2Proof.Machine
end

