-- ==== Sys2Proof/Machine/TunnelOps.lean ====
section
/-!
DEFINITION. The tunnel table (chapter 3): life cycle, system tunnels, frame checks at ingress, sequence checks, STALE
records, and the frames the hub itself sends on system tunnels.
-/

namespace Sys2Proof.Machine

open Sys2Proof

/-- States of a tunnel ID (Table 3-4). -/
def tFree : Nat := 0
def tOpen : Nat := 1
def tDraining : Nat := 2
def tQuar : Nat := 3

/-- Is tunnel `t` in state `s`? -/
def Hub.tunIs (h : Hub) (t s : Nat) : Bool := h.get (R.ttState t) == s

/-- The settable and run-time fields of a descriptor, GEN and PLAN_ID apart. -/
def descFields (t : Nat) : List Fld :=
  [R.ttClass t, R.ttOwn t, R.ttBidir t, R.ttFailed t, R.ttMaxlen t, R.ttLp5w t, R.ttLine t, R.ttAltTrk t, R.ttAltEgr t,
   R.ttEgr t, R.ttIngr t, R.ttSmode t, R.ttWeight t, R.ttProfile t, R.ttBuflim t, R.ttFben t, R.ttFrateE t, R.ttFrateM t,
   R.ttFburstE t, R.ttFburstM t, R.ttRben t, R.ttRrateE t, R.ttRrateM t, R.ttRburstE t, R.ttRburstM t, R.ttRweight t,
   R.ttRprofile t, R.ttRbuflim t, R.ttPlanId t, R.ttCookie t]

/-- The queue and policer counters that opening clears (R265, R285). -/
def openCounters (t : Nat) : List Fld :=
  [R.qcValidF t, R.qcDepthF t, R.qcDlyF t, R.qcHwmDepF t, R.qcHwmDlyF t, R.qcValidR t, R.qcDepthR t, R.qcDlyR t,
   R.qcHwmDepR t, R.qcHwmDlyR t, R.qcSmpTick t, R.qcTxfrmF t, R.qcTxkibF t, R.qcTxfrmR t, R.qcTxkibR t,
   R.polCntGreenF t, R.polCntYellowF t, R.polCntRedF t, R.polCntBufdropF t, R.polCntGreenR t, R.polCntYellowR t,
   R.polCntRedR t, R.polCntBufdropR t]

/-- The run-time counters that TUNNEL.QUERY with CLEAR clears (R104, R265). -/
def runCounters (t : Nat) : List Fld :=
  [R.runStaleCnt t, R.runNotopenCnt t, R.runIngrCnt t, R.runFmtCnt t,
   R.polCntGreenF t, R.polCntYellowF t, R.polCntRedF t, R.polCntBufdropF t, R.polCntGreenR t, R.polCntYellowR t,
   R.polCntRedR t, R.polCntBufdropR t]

/-- A queue at the opening of its tunnel: buckets and bellows full, F at V of its egress (R93, R252, R276, R278). -/
def Hub.openQueue (h : Hub) (t dir : Nat) : Hub :=
  let p := h.profileOf t dir
  let b := h.bel t dir
  let e := h.egressOf t dir
  h.modQueue t dir (fun _ =>
    { tc := if p = 0 then 0 else burstBytes (h.get (R.profCbsE p)) (h.get (R.profCbsM p)) * 256
      tp := if p = 0 then 0 else burstBytes (h.get (R.profPbsE p)) (h.get (R.profPbsM p)) * 256
      polAt := h.cyc
      tok := if b.en then b.burst * 2 ^ 32 else 0
      tokAt := h.cyc
      vf := if e = 0 then 0 else (h.egress e).v })

/-- FREE to OPEN (Table 3-11): the next generation, sequence state 0, counters 0. -/
def Hub.openTunnel (h : Hub) (t : Nat) (d : Desc) (planId : Nat) : Hub :=
  let h := h.set (R.ttGen t) ((h.get (R.ttGen t) + 1) % 16)
  let h := (h.setRole t d).setTune t d
  let h := h.setAll [(R.ttState t, tOpen), (R.ttFailed t, 0), (R.ttPlanId t, planId), (R.runIngSeq t, 0), (R.runEgrSeq t, 0),
    (R.runQleft t, 0), (R.runDrained t, 0)]
  let h := h.resetAll (openCounters t)
  let ok := b2n h.tick.sampled.2
  let h := h.setAll [(R.qcValidF t, ok), (R.qcValidR t, ok), (R.qcSmpTick t, h.tick.sampled.1)]
  let h := h.modTunX t (fun x => { x with lastOwn := some d.own, reserved := false, failTrk := [] })
  (h.openQueue t 0).openQueue t 1

/-- OPEN to DRAINING: ingress admission stops, held frames are dropped (Table 3-11, Table 7-3). -/
def Hub.drainTunnel (h : Hub) (t : Nat) : Hub :=
  if h.tunIs t tOpen then (h.setAll [(R.ttState t, tDraining), (R.runDrained t, 0)]).dropHeld t else h

/-- A cut-through frame of the tunnel that is still arriving is abandoned (R250). -/
def Hub.abandonTunnel (h : Hub) (t : Nat) : Hub :=
  h.each (h.ctArriving.filter (fun p => p.2 / 2 == t)) (fun h p => h.ctAbort p.2)

/-- To QUARANTINE: queued and held frames are discarded and counted (Table 3-11); the pointer of a band moves as if an
active queue had been served (Table 8-4). -/
def Hub.quarantine (h : Hub) (t : Nat) : Hub :=
  let h := h.abandonTunnel t
  let h := h.each [0, 1] (fun h dir =>
    let h := h.refillQueue t dir
    let e := h.egressOf t dir
    let h := if e ≠ 0 ∧ h.bandOf t ≠ 4 ∧ h.isActive e (qkey t dir) then
        h.modEgress e (fun x => x.setPtr (h.bandOf t) (qkey t dir)) else h
    h.flushQueue t dir)
  let h := h.setAll [(R.ttState t, tQuar), (R.runQleft t, 8), (R.runDrained t, 0)]
  (h.dropHeld t).fenceDrop t

/-- QUARANTINE to FREE: the descriptor is cleared except GEN, and except the owner's choice of ALT_EGR of a summary
tunnel (Table 3-11, R72); per-queue counters read 0 while FREE (R285). -/
def Hub.freeTunnel (h : Hub) (t : Nat) : Hub :=
  let keep := h.get (R.ttAltEgr t)
  let h := h.setAll ((descFields t).map (fun f => (f, 0)))
  let h := h.setAll [(R.ttState t, tFree), (R.runQleft t, 0)]
  let h := if 6 ≤ t ∧ t ≤ 9 then h.set (R.ttAltEgr t) keep else h
  let h := h.resetAll (openCounters t)
  h.modQueue t 0 (fun _ => {}) |>.modQueue t 1 (fun _ => {})

/-! System tunnels (R70, R71, R91). -/

/-- Trunk codes on which host `m` is attached. -/
def Hub.attachedOn (h : Hub) (m : Nat) : List Nat :=
  [1, 2, 3, 4].filter (fun c => h.get (R.linkState (c - 1)) == 4 && h.get (R.linkHost (c - 1)) == m)

/-- Has host `m` presented its identity on a trunk that is attaching or attached (Table 3-1)? -/
def Hub.presented (h : Hub) (m : Nat) : Bool :=
  [1, 2, 3, 4].any (fun c => h.get (R.linkState (c - 1)) == 3 && (h.link c).idx == m) || !(h.attachedOn m).isEmpty

/-- Does the summary tunnel of failed trunk `n` go on, on the other trunks of the host that was attached (R333)? -/
def Hub.stillDiverts (h : Hub) (n : Nat) : Bool :=
  (h.get (R.linkState n) == 5 || h.get (R.foState n) != 0) && (match (h.failover (n + 1)).hostAtFail with
    | some m => !(h.attachedOn m).isEmpty
    | none => false)

/-- The condition of Table 3-1 that keeps a system tunnel open; a summary tunnel goes on as R333 asks. -/
def Hub.sysCond (h : Hub) (t : Nat) : Bool :=
  if 1 ≤ t ∧ t ≤ 4 then h.presented (t - 1)
  else if t = 5 then h.flag R.usbUpCfg
  else if 6 ≤ t ∧ t ≤ 9 then h.get (R.linkState (t - 6)) == 4 || h.stillDiverts (t - 6)
  else if 10 ≤ t ∧ t ≤ 13 then !(h.attachedOn (t - 10)).isEmpty
  else if t = 14 then [0, 1, 2, 3].any (fun m => !(h.attachedOn m).isEmpty)
  else false

/-- The descriptor that the hub gives a system tunnel (Table 3-1, R71). -/
def Hub.sysDesc (h : Hub) (t : Nat) : Desc :=
  { cls := if 6 ≤ t ∧ t ≤ 9 then 1 else 0
    own := if 1 ≤ t ∧ t ≤ 4 then t - 1 else if t = 5 then 4 else 7
    maxlen := if 6 ≤ t ∧ t ≤ 9 then 2048 else if t = 14 then 48 else 256
    smode := 1
    altEgr := if 6 ≤ t ∧ t ≤ 9 then h.get (R.ttAltEgr t) else 0 }

/-- Open or close each system tunnel whose condition has changed (R91). -/
def Hub.settleSys (h : Hub) : Hub :=
  h.each [1, 2, 3, 4, 5, 6, 7, 8, 9, 10, 11, 12, 13, 14] (fun h t =>
    if h.sysCond t && h.tunIs t tFree then h.openTunnel t (h.sysDesc t) 0
    else if !h.sysCond t && h.tunIs t tOpen then h.quarantine t
    else h)

/-- The trunk on which the hub sends to host `m`: the lowest-numbered on which it is attached (R71); 0 for none. -/
def Hub.routeTo (h : Hub) (m : Nat) : Nat := (h.attachedOn m).headD 0

/-- A frame that the hub builds on a system tunnel. -/
def Hub.sysFrame (h : Hub) (t op : Nat) (payload : List Byte) : Frame :=
  { tid := t, gen := h.get (R.ttGen t), cls := h.get (R.ttClass t), op := op, payload := payload }

/-- E3 queues a frame on a system tunnel toward the trunk with code `dest` (R262, Table 7-2). -/
def Hub.e3Send (h : Hub) (f : Frame) (dest : Nat) : Hub :=
  if dest = 0 ∨ ¬ h.tunIs f.tid tOpen then h
  else h.judge f.tid 1 { f := f, cells := f.cells, ingress := codeE3, ccls := 0, dest := dest }

/-- May records be queued to master `m`: a host whose notification tunnel is OPEN (R95)? -/
def Hub.canNotify (h : Hub) (m : Nat) : Bool := decide (m < 4) && h.tunIs (10 + m) tOpen

/-- Leave a record for the notification task (R61 task 4). -/
def Hub.addRecord (h : Hub) (m : Nat) (r : Record) : Hub :=
  if h.canNotify m then { h with tun := { h.tun with records := h.tun.records ++ [(m, r)] } } else h

/-! Frame checks at ingress. -/

/-- Does a frame arrive where its tunnel admits it (Table 3-12 check 4)? Port code 0 stands for the USB management
function. -/
def Hub.ingressOk (h : Hub) (f : Frame) (code : Nat) : Bool :=
  let t := f.tid
  if isSys t then
    if (1 ≤ t ∧ t ≤ 4) ∨ (6 ≤ t ∧ t ≤ 9) ∨ t = 14 then isTrunk code && (h.get (R.linkState (code - 1)) == 4)
    else t == 5 && code == 0
  else if f.rev then
    h.flag (R.ttBidir t) && (code == h.get (R.ttEgr t) || (code == h.get (R.ttAltEgr t) && code != 0))
  else code == h.get (R.ttIngr t) || (isTrunk (h.get (R.ttIngr t)) && code == h.get (R.ttAltTrk t) && code != 0)

/-- Trunks that have failed: FAILED, or on the way back from it. -/
def Hub.trunkFailed (h : Hub) (n : Nat) : Bool := h.get (R.linkState n) == 5 || h.get (R.foState n) != 0

/-- May host `m`'s far end send the summary of trunk `n` on another trunk (R333)? Only toward its alternate, of a host
that was attached when the trunk failed. -/
def Hub.divertOk (h : Hub) (n m : Nat) : Bool :=
  h.trunkFailed n && ((h.failover (n + 1)).hostAtFail == some m)

/-- Is the sender the one the tunnel admits (Table 3-12 check 5)? -/
def Hub.senderOk (h : Hub) (f : Frame) (code : Nat) : Bool :=
  if isTrunk code then
    let m := h.get (R.linkHost (code - 1))
    let t := f.tid
    if isUser t then m == h.get (R.ttOwn t)
    else if 1 ≤ t ∧ t ≤ 4 then m == t - 1
    else if 6 ≤ t ∧ t ≤ 9 then
      (h.get (R.linkState (t - 6)) == 4 && h.get (R.linkHost (t - 6)) == m) || h.divertOk (t - 6) m
    else t == 14
  else true

/-- Is the frame a READ that repeats one with a hold entry, while its tunnel drains (Table 12-5)? -/
def Hub.holdRepeat (h : Hub) (f : Frame) : Bool :=
  h.tunIs f.tid tDraining && f.op == 1 &&
  h.bridge.holds.any (fun e => e.tid == f.tid && e.gen == f.gen && e.tag == f.tag)

/-- The reason of the first check of Table 3-12 that a frame fails; 0 where it passes all of them. -/
def Hub.frameReason (h : Hub) (f : Frame) (code : Nat) : Nat :=
  let t := f.tid
  if t = 0 ∨ t = 15 then 2
  else if !h.tunIs t tOpen && !h.holdRepeat f then 2
  else if f.gen ≠ h.get (R.ttGen t) then 1
  else if !h.ingressOk f code then 3
  else if !h.senderOk f code then 4
  else if f.cls ≠ h.get (R.ttClass t) then 5
  else if h.get (R.ttMaxlen t) < f.len then 6
  else 0

/-- The counter of a reason (Table 3-12). -/
def reasonFld (t reason : Nat) : Fld :=
  match reason with
  | 1 => R.runStaleCnt t
  | 2 => R.runNotopenCnt t
  | 3 => R.runIngrCnt t
  | 4 => R.runIngrCnt t
  | _ => R.runFmtCnt t

/-- The sender to whom a discarded frame is reported (R95). -/
def Hub.senderOf (h : Hub) (t code : Nat) : Option Nat :=
  if isTrunk code then some (h.get (R.linkHost (code - 1)))
  else if isLine code || isEngine code then (h.tunX t).lastOwn
  else none

/-- Add discards to those of a tick (R96): one entry per sender and tunnel, 64 per sender; false where there is no room. -/
def staleAdd (l : List StaleAcc) (a : StaleAcc) : Bool × List StaleAcc :=
  if l.any (fun x => x.sender == a.sender && x.tid == a.tid) then
    (true, l.map (fun x => if x.sender == a.sender && x.tid == a.tid then { x with count := min 255 (x.count + a.count) } else x))
  else if 64 ≤ (l.filter (fun x => x.sender == a.sender)).length then (false, l)
  else (true, l ++ [a])

/-- A record to sender `m` has been dropped: the next one has OVF set (R96). -/
def Hub.staleOvf (h : Hub) (m : Nat) : Hub :=
  { h with tun := { h.tun with ovf := if h.tun.ovf.contains m then h.tun.ovf else h.tun.ovf ++ [m] } }

/-- At a boundary the discards of the tick become due, with those whose notification task did not run: still one record
per sender and tunnel, and 64 per sender (R96). -/
def Hub.staleTurn (h : Hub) : Hub :=
  let l := h.tun.stale
  let h := { h with tun := { h.tun with stale := [] } }
  h.each l (fun h a =>
    let (ok, due) := staleAdd h.tun.staleDue a
    if ok then { h with tun := { h.tun with staleDue := due } } else h.staleOvf a.sender)

/-- Discard a frame by Table 3-12: count it and report it (R95, R96). -/
def Hub.discardFrame (h : Hub) (f : Frame) (code reason : Nat) : Hub :=
  let h := h.inc (reasonFld f.tid reason)
  match h.senderOf f.tid code with
  | none => h
  | some m =>
    if !h.canNotify m then h
    else
      let (ok, l) := staleAdd h.tun.stale
        { sender := m, tid := f.tid, reason := reason, fgen := f.gen, count := 1, port := code, ftime := h.now }
      if ok then { h with tun := { h.tun with stale := l } } else h.staleOvf m

/-- A STALE record (Table 3-13). CGEN is taken when the record is built, in the notification task, and is 0 for an ID that
is FREE by then (DESIGN CHOICE, assumption 207: R97 names no moment). -/
def Hub.staleWords (h : Hub) (a : StaleAcc) (ovf : Bool) : Record :=
  let own := h.get (R.ttOwn a.tid) == a.sender && (h.get (R.ttState a.tid) != 0)
  [0x10 * 2 ^ 24 + a.reason * 2 ^ 20 + a.fgen * 2 ^ 16 + a.tid,
   (if own then h.get (R.ttGen a.tid) else 0) * 2 ^ 28 + a.count * 2 ^ 16 + a.port * 2 ^ 11 + b2n ovf * 2 ^ 10,
   a.ftime % 2 ^ 32, a.ftime / 2 ^ 32 % 2 ^ 32]

/-- Does OP match CLASS and EXT, with the lengths and zero fields of Tables 4-9 and 4-10 (R142, R146, R153)? -/
def formatOk (f : Frame) : Bool :=
  let opOk : Bool := match f.op with
    | 0 => !f.ext && (f.cls != 3) && decide (f.cls ≤ 6)
    | 1 => f.ext && (f.cls == 0 || f.cls == 3) && (f.len == 0)
    | 2 => f.ext && (f.cls == 0 || f.cls == 3) && (f.cls != 0 || decide (f.len ≤ 256))
    | 3 => !f.ext && (f.cls == 0 || f.cls == 3) && (!f.retry || f.len == 0)
    | 4 => !f.ext && (f.cls == 0 || f.cls == 3) && (f.len == 0)
    | 5 => !f.ext && (f.cls == 0) && (f.len == 0)
    | 6 => !f.ext && (f.cls == 0) && (f.len == 0)
    | 8 => !f.ext && (f.cls == 0)
    | _ => false
  opOk && (f.rsv == 0) && (!f.fence || f.cls == 0) && (f.op != 0 || f.tag == 0) &&
  (f.status == 0 || f.op == 3 || f.op == 4 || f.op == 6) && (f.rlen == 0 || f.op == 1)

/-- Does a frame that a host sends on its own control tunnel carry an OP that is no request (R146)? Code 0 is the USB
management function, whose control tunnel is 0x005. -/
def Hub.noRequest (h : Hub) (f : Frame) (code : Nat) : Bool :=
  ((isTrunk code && f.tid == 1 + h.get (R.linkHost (code - 1))) || (code == 0 && f.tid == 5)) &&
  (f.op == 0 || f.op == 3 || f.op == 4 || f.op == 6 || f.op == 8)

/-- The sequence check of R149. The answer is false for a duplicate. -/
def Hub.seqCheck (h : Hub) (f : Frame) (code dir : Nat) : Bool × Hub :=
  let t := f.tid
  let exp := if dir = 0 then h.get (R.runIngSeq t) else (h.queue t dir).seqIn
  let d := (f.seq + 65536 - exp) % 65536
  let take (h : Hub) : Hub :=
    if dir = 0 then h.set (R.runIngSeq t) (f.seq + 1) else h.modQueue t dir (fun q => { q with seqIn := (f.seq + 1) % 65536 })
  let gap (h : Hub) : Hub := if isLink code then h.inc (fGap code) else h
  if d = 0 then (true, take h)
  else if d < 32768 then
    let h := gap h
    (true, take (if replayedClass f.cls then h.raise srcSeqGap t else h))
  else if replayedClass f.cls then (false, if isLink code then h.inc (fDup code) else h)
  else (true, take (gap h))

/-- A format error of a frame: counted, without a record (R146). -/
def Hub.formatError (h : Hub) (f : Frame) (code : Nat) : Hub :=
  (h.when (isLink code) (fun h => h.inc (fFmtErr code))).inc (R.runFmtCnt f.tid)

/-- A frame that has passed its port is judged, policed and admitted, held or dropped (R92, R149, R252, R243); telemetry from
a node goes from the policer to the mirror store (Table 11-12, R390). `arrived` cells of it have been written to the buffer,
the cells being `nos`; one that is not whole is cut through (R248). The format check comes before Table 3-12 (DESIGN CHOICE,
assumption 217: R146 names no place). -/
def Hub.ingressCells (h : Hub) (f : Frame) (code arrived : Nat) (nos : List Nat) : Hub :=
  if !formatOk f || h.noRequest f code then h.formatError f code
  else
    let r := h.frameReason f code
    if r ≠ 0 then h.discardFrame f code r
    else
      let t := f.tid
      let dir := if isSys t then 0 else b2n f.rev
      let (ok, h) := h.seqCheck f code dir
      if !ok then h
      else
        let (colour, h) := h.police t dir f.stored
        let h := h.countColour t dir colour
        if isUser t && f.cls == 6 && isLine code then
          (if h.polDrops t dir colour then h.dropFrame t dir code .polDrop else h.toBridge code f)
        else
        let counts := isTrunk code && (f.cls == 0 || f.cls == 3) && (f.op == 1 || f.op == 2 || f.op == 5)
        let h := if counts && !h.polDrops t dir colour then
            let x := h.fenceOf code
            h.setFence code { x with open_ := x.open_ ++ [(t, fenceKeyOf f)] }
          else h
        let e := h.egressOf t dir
        let ct := decide (arrived < f.cells) && h.cutThrough f.cls code e f.cells
        h.judge t dir { f := f, cells := f.cells, nos := nos, ingress := code, ccls := cclsOf f.cls, dest := codeE3,
                        ct := ct, written := arrived, colour := colour }

/-- A frame that an engine sends, whole. -/
def Hub.ingress (h : Hub) (f : Frame) (code : Nat) : Hub := h.ingressCells f code f.cells []

/-- Would a frame that has not arrived whole be cut through (R248)? One that would not waits for its last cell. -/
def Hub.mayCut (h : Hub) (f : Frame) (code arrived : Nat) : Bool :=
  isUser f.tid && decide (2 ≤ arrived) && h.cutThrough f.cls code (h.egressOf f.tid (b2n f.rev)) f.cells

end Sys2Proof.Machine
end

