-- ==== Sys2Proof/Machine/LaneOps.lean ====
section
/-!
DEFINITION. The lane layer (chapter 5): training and its tap search, assignment, lane faults, the spare, electrical
idle and tempering. Trunk lanes and line lanes share it, with the differences of Table 11-3.
-/

namespace Sys2Proof.Machine

open Sys2Proof

/-- The equaliser parameters in the order of R194: 0 CTLE, 1 to 5 DFE1 to DFE5, 6 PHASE. -/
def fParam (c l p : Nat) : Fld :=
  match p with
  | 0 => laneFld R.lnCtle R.llnCtle c l
  | 1 => laneFld R.lnDfe1 R.llnDfe1 c l
  | 2 => laneFld R.lnDfe2 R.llnDfe2 c l
  | 3 => laneFld R.lnDfe3 R.llnDfe3 c l
  | 4 => laneFld R.lnDfe4 R.llnDfe4 c l
  | 5 => laneFld R.lnDfe5 R.llnDfe5 c l
  | _ => laneFld R.lnPhase R.llnPhase c l

/-- The FOM of an eye: its height in µV and its width in millionths of a UI (R173). -/
def fomOf (eh ew : Nat) : Nat := min (min 255 (eh / 500)) (min 255 (255 * ew / 500000))

/-- Value of an equaliser parameter as a signed code (R172). -/
def Hub.param (h : Hub) (c l p : Nat) : Int :=
  let v := h.get (fParam c l p)
  if p = 0 then (v : Int) else if p = 6 then toSigned 5 v else toSigned 6 v

/-- Write an equaliser parameter from its signed code. -/
def Hub.setParam (h : Hub) (c l p : Nat) (v : Int) : Hub :=
  h.set (fParam c l p) (if p = 0 then ofSigned 4 v else if p = 6 then ofSigned 5 v else ofSigned 6 v)

/-- Range of an equaliser parameter (R172). -/
def paramRange (p : Nat) : Int × Int := if p = 0 then (0, 15) else if p = 6 then (-15, 15) else (-31, 31)

/-- Least number of positions (MINW). -/
def Hub.minw (h : Hub) (c : Nat) : Nat := if isTrunk c then h.get (R.laneMinw (c - 1)) else 1 + h.get (R.lpMinw (c - 5))

/-- Presets of Table 5-2: pre-cursor, main, post-cursor 1, post-cursor 2. -/
def preset (n : Nat) : Nat × Nat × Nat × Nat :=
  match n with
  | 1 => (0, 63, 0, 0)
  | 2 => (0, 57, 6, 0)
  | 3 => (0, 51, 12, 0)
  | 4 => (4, 51, 8, 0)
  | 5 => (4, 45, 12, 2)
  | 6 => (6, 37, 16, 4)
  | 7 => (8, 35, 20, 0)
  | _ => (10, 33, 16, 4)

/-- The highest rate in a set of offered rates. -/
def topRate (m : Nat) : Nat := if bit m 2 then 2 else if bit m 1 then 1 else 0

/-- The rates of a set below a given one. -/
def lowerRates (m r : Nat) : Nat := m % 2 ^ r

/-! Requests from the far end to the hub's transmitter (R176, R177). -/

/-- Apply one step request to a tap within its range and the sum limit; the answer is the status and the new value. -/
def stepTap (req v lo hi sum : Nat) : Nat × Nat :=
  match req with
  | 1 => if v < hi ∧ sum < 63 then (1, v + 1) else (3, v)
  | 2 => if lo < v then (1, v - 1) else (2, v)
  | _ => (0, v)

/-- Act on a request of a TRAIN block on a lane (R177); a repeated RSEQ changes nothing. The steps of one block are applied in
the order PRE, MAIN, P1, P2, which matters where the sum of 63 binds (DESIGN CHOICE, assumption 218: R176 gives none). -/
def LaneX.request (x : LaneX) (w : Nat) : LaneX :=
  let rseq := bits w 23 20
  if x.aseq = some rseq then x
  else
    let pr := bits w 35 32
    let p := preset pr
    let x := if 1 ≤ pr ∧ pr ≤ 8 then { x with txPre := p.1, txMain := p.2.1, txP1 := p.2.2.1, txP2 := p.2.2.2 } else x
    let a := stepTap (bits w 43 42) x.txPre 0 10 (x.txPre + x.txMain + x.txP1 + x.txP2)
    let x := { x with txPre := a.2, stsPre := a.1 }
    let a := stepTap (bits w 41 40) x.txMain 32 63 (x.txPre + x.txMain + x.txP1 + x.txP2)
    let x := { x with txMain := a.2, stsMain := a.1 }
    let a := stepTap (bits w 39 38) x.txP1 0 20 (x.txPre + x.txMain + x.txP1 + x.txP2)
    let x := { x with txP1 := a.2, stsP1 := a.1 }
    let a := stepTap (bits w 37 36) x.txP2 0 8 (x.txPre + x.txMain + x.txP1 + x.txP2)
    { x with txP2 := a.2, stsP2 := a.1, aseq := some rseq }

/-! The hub's own search (R178). Taps in the order P1, PRE, P2, MAIN; `pos` is tap × 2 + direction (0 increment). -/

/-- Go to the next tap and direction, to another round, or to DONE. -/
def LaneX.advance (x : LaneX) (tgt : Nat) : LaneX :=
  if tgt ≤ x.best then { x with mode := 4 }
  else if x.pos < 7 then { x with pos := x.pos + 1, mode := 1, rseq := (x.rseq + 1) % 16 }
  else if x.improved then { x with pos := 0, improved := false, mode := 1, rseq := (x.rseq + 1) % 16 }
  else { x with mode := 4 }

/-- A FOM measured during the search. -/
def LaneX.measured (x : LaneX) (f tgt : Nat) : LaneX :=
  match x.mode with
  | 0 => if tgt ≤ f then { x with best := f, mode := 4 }
         else { x with best := f, pos := 0, improved := false, mode := 1, rseq := (x.rseq + 1) % 16 }
  | 2 => if x.best + 2 ≤ f then
           (if tgt ≤ f then { x with best := f, improved := true, mode := 4 }
            else { x with best := f, improved := true, mode := 1, rseq := (x.rseq + 1) % 16 })
         else { x with mode := 3, rseq := (x.rseq + 1) % 16 }
  | _ => x

/-- The status that a TRAIN block gives for the tap in hand. -/
def LaneX.statusOf (x : LaneX) (w : Nat) : Nat :=
  match x.pos / 2 with
  | 0 => bits w 27 26
  | 1 => bits w 31 30
  | 2 => bits w 25 24
  | _ => bits w 29 28

/-- An answer to the request in hand (ASEQ = RSEQ). -/
def LaneX.answered (x : LaneX) (w tgt : Nat) : LaneX :=
  if bits w 19 16 ≠ x.rseq then x
  else match x.mode with
    | 1 => if x.statusOf w = 1 then { x with mode := 2 } else x.advance tgt
    | 3 => x.advance tgt
    | _ => x

/-- The tap in force at the far end, as the hub keeps it, after an answer "updated" (Table 5-10). -/
def Hub.trackTap (h : Hub) (c l : Nat) (x : LaneX) (w : Nat) : Hub :=
  let f := match x.pos / 2 with
    | 0 => fP1 c l
    | 1 => fPre c l
    | 2 => fP2 c l
    | _ => fMain c l
  let up := (x.mode == 1 && x.pos % 2 == 0) || (x.mode == 3 && x.pos % 2 == 1)
  if bits w 19 16 = x.rseq ∧ (x.mode = 1 ∨ x.mode = 3) ∧ x.statusOf w = 1 then
    h.set f (if up then h.get f + 1 else h.get f - 1)
  else h

/-- The lanes that take part in the training of a port: those that are not crossed (R179). -/
def Hub.trainLanes (h : Hub) (c : Nat) : List Nat := (List.range (laneCount c)).filter (fun l => !(h.laneX c l).crossed)

/-- Send the next training frame: on a lane that is restored alone, or on every lane in training (R174). -/
def Hub.sendTrain (h : Hub) (c l : Nat) : Hub := h.sendTrainFrame c (if h.restoring c l then [l] else h.trainLanes c)

/-! Training (Table 5-3). -/

/-- Enter a training state. -/
def Hub.setPhase (h : Hub) (c p : Nat) : Hub :=
  (h.modPort c (fun x => { x with phase := p })).when (isTrunk c) (fun h => h.set (R.laneTstate (c - 1)) p)

/-- Settings that wait for the next training take effect (R201, R369). -/
def Hub.applyTrnPend (h : Hub) (c : Nat) : Hub :=
  (h.setAll (h.port c).trnPend).modPort c (fun x => { x with trnPend := [] })

/-- Every lane of a port off: not trained, no role (Table 5-10). -/
def Hub.lanesOff (h : Hub) (c : Nat) : Hub :=
  let h := h.each (List.range (laneCount c)) (fun h l =>
    h.setAll [(fLstate c l, 0), (fPos c l, 7), (fLock c l, 0)])
  let h := h.setAll [(fNlane c, 0), (fEidleTx c, 0), (fEidleRx c, 0)]
  let h := if isTrunk c then h.setAll [(R.laneStandin (c - 1), 7), (R.laneRepl (c - 1), 7), (R.linkSpare (c - 1), 0)] else h
  (h.modPort c (fun p => { p with lanes := [], sel := none, restore := none, restored := false })).setPhase c 0

/-- Lane training starts: every lane sends frames with TPH 1 at the lowest rate (Table 5-3). What a failed trunk still had of
its session goes. -/
def Hub.startTraining (h : Hub) (c : Nat) : Hub :=
  let h := ((h.when (isTrunk c) (fun h => h.dropSession c)).lanesOff c).applyTrnPend c
  let h := h.setAll [(fRetired c, 0), (fRate c, 0), (if isTrunk c then R.linkState (c - 1) else R.lpState (c - 5), 1)]
  let h := h.modPort c (fun p => { p with began := h.now, common := 0, farSpare := isTrunk c })
  let h := h.setPhase c 1
  (h.each (List.range (laneCount c)) (fun h l => h.set (fLstate c l) 1)).sendTrain c 0

/-- A lane enters equalisation: the start preset is loaded; the far end loads the preset of its own choosing, so that the
taps that the hub keeps of it are those of a preset whose number is a free value (R177, assumption 13). RSEQ goes on, and so
does the memory of the last request applied. -/
def Hub.laneEq (h : Hub) (c l : Nat) : Hub :=
  let p := preset (h.get (fPresetStart c))
  let (v, h) := h.draw 3
  let q := preset (1 + v)
  let h := h.setAll [(fPre c l, q.1), (fMain c l, q.2.1), (fP1 c l, q.2.2.1), (fP2 c l, q.2.2.2), (fPos c l, 7)]
  h.modLane c l (fun x => { x with
    txPre := p.1, txMain := p.2.1, txP1 := p.2.2.1, txP2 := p.2.2.2, farFom := 0, farDone := false, readyRun := 0,
    farReady := false, mode := 0, pos := 0, best := 0, improved := false })

/-- A port enters equalisation at a rate (Table 5-3). -/
def Hub.enterEq (h : Hub) (c r : Nat) : Hub :=
  let h := (h.set (fRate c) r).setPhase c 2
  let h := h.modPort c (fun x => { x with sel := some r })
  (h.each (List.range (laneCount c)) (fun h l => h.laneEq c l)).sendTrain c 0

/-- Is a lane fit to be assigned (R180, R181)? -/
def Hub.laneFit (h : Hub) (c l : Nat) : Bool :=
  let x := h.laneX c l
  !x.crossed && decide (h.get (fFomMin c) ≤ h.get (fFom c l)) && decide (h.get (fFomMin c) ≤ x.farFom)

/-- The assignment of R180: positions on their own lanes, the lowest unfit one on the spare, the rest retired. The
answer is none where fewer than MINW positions remain. An assignment at another rate begins anew. Where the far end has no
spare, lane 4 is shown retired (DESIGN CHOICE, assumption 219: R180 gives its LSTATE and RETIRED bit no value). -/
def Hub.assign (h : Hub) (c : Nat) : Option Hub :=
  let ps := List.range (posCount c)
  let bad := ps.filter (fun j => !h.laneFit c j)
  let spareOk := isTrunk c && h.laneFit c 4 && (h.port c).farSpare
  let si := if spareOk then bad.head? else none
  let filled := posCount c - bad.length + (if si.isSome then 1 else 0)
  if filled < h.minw c then none
  else
    let h := h.set (fRetired c) 0
    let h := h.each ps (fun h j =>
      let gone := bad.contains j && si != some j
      let h := h.modLane c j (fun x => { x with lostPos := if gone then h.homePos c j else 7 })
      if bad.contains j then (h.setAll [(fPos c j, 7), (fLstate c j, 5)]).set (fRetired c) (setBit (h.get (fRetired c)) j)
      else h.setAll [(fPos c j, h.homePos c j), (fLstate c j, 1)])
    let h := if isTrunk c then
        let n := c - 1
        let h := (h.setAll [(fLstate c 4, 1), (R.laneStandin n, 7)]).modLane c 4 (fun x => { x with lostPos := 7 })
        match si with
        | some j => h.setAll [(fPos c 4, j), (R.laneStandin n, j)]
        | none => if spareOk then h.set (fPos c 4) 4
                  else (h.setAll [(fPos c 4, 7), (fLstate c 4, 5)]).set (fRetired c) (setBit (h.get (fRetired c)) 4)
      else h
    some ((h.set (fNlane c) filled).setPhase c 3)

/-- The next lower common rate, or none (Table 5-3). -/
def Hub.lowerRate (h : Hub) (c : Nat) : Option Nat :=
  let m := lowerRates ((h.port c).common) (h.get (fRate c))
  if m = 0 then none else some (topRate m)

/-- A lane has trained: it takes its role, and the equaliser settings reached by adaptation are free values within
their ranges (R178, assumption 13). -/
def Hub.laneTrained (h : Hub) (c l : Nat) : Hub :=
  let (a, h) := h.draw 4
  let h := h.setParam c l 0 (a : Int)
  let h := h.each [1, 2, 3, 4, 5] (fun h p =>
    let (v, h) := h.draw 32
    h.setParam c l p ((v % 63 : Nat) - 31 : Int))
  let (v, h) := h.draw 32
  let h := h.setParam c l 6 ((v % 31 : Nat) - 15 : Int)
  let h := h.setAll [(fLstate c l, h.laneRole c l), (fLock c l, 1), (fFomTrn c l, h.get (fFom c l)), (fTemperStop c l, 0)]
  h.modLane c l (fun x => { x with trained := (List.range 7).map (fun p => h.param c l p), param := 0, step := none, lowRun := 0 })

/-- The duration of a training that ends (TRN_US, Table 5-9). -/
def Hub.markTraining (h : Hub) (c : Nat) : Hub :=
  h.when (isTrunk c) (fun h => h.set (R.laneTrnUs (c - 1)) (min ((h.now - (h.port c).began) / 1000) 16383))

/-- The spare's receiver has identified no position (R193). -/
def Hub.noIdent (h : Hub) (c : Nat) : Hub :=
  h.modPort c (fun p => { p with ident := none, identRun := (0, 0), since := 64, replOk := true })

/-- Training of a port is complete: the assigned lanes take their roles (R180). -/
def Hub.trained (h : Hub) (c : Nat) : Hub :=
  let n := c - 1
  let h := h.each (List.range (laneCount c)) (fun h l => if h.get (fPos c l) = 7 then h else h.laneTrained c l)
  let h := (h.modPort c (fun p => { p with mcnt := 0, sel := none })).noIdent c
  let h := (h.setPhase c 4).sendAlign c
  if isTrunk c then
    let h := h.markTraining c
    let spare := h.get (fPos c 4) = 4
    let h := h.setFlag (R.linkSpare n) (h.get (fPos c 4) != 7)
    let h := h.set (R.laneRepl n) (if spare then 0 else 7)
    if h.get (fNlane c) < 4 ∨ ((h.port c).farSpare ∧ ¬ spare) then h.raise (srcLaneDegrade n) 4 else h
  else h

/-- Are all lanes that are not crossed DONE at both ends (Table 5-3)? -/
def Hub.allDone (h : Hub) (c : Nat) : Bool :=
  (List.range (laneCount c)).all (fun l =>
    let x := h.laneX c l
    x.crossed || (l == 4 && !(h.port c).farSpare) || (x.mode == 4 && x.farDone))

/-- Has TPH 3 been received for 8 frames on every assigned lane? -/
def Hub.allReady (h : Hub) (c : Nat) : Bool :=
  (List.range (laneCount c)).all (fun l => h.get (fPos c l) == 7 || decide (8 ≤ (h.laneX c l).readyRun))

/-- A lane on which the hub sends TPH 3 and the far end does not is retired (R181). The far end is taken to be in READY
once one assigned lane has shown TPH 3 for 8 frames. -/
def Hub.readyMismatch (h : Hub) (c l : Nat) : Hub :=
  let farThere := (List.range (laneCount c)).any (fun k => h.get (fPos c k) != 7 && decide (8 ≤ (h.laneX c k).readyRun))
  let left := if h.get (fPos c l) = 4 then h.get (fNlane c) else h.get (fNlane c) - 1
  if h.get (fPos c l) = 7 ∨ (h.laneX c l).farReady ∨ ¬ farThere ∨ left < h.minw c then h
  else
    let h := h.setAll [(fPos c l, 7), (fLstate c l, 5), (fNlane c, left), (fRetired c, setBit (h.get (fRetired c)) l)]
    if isTrunk c ∧ l = 4 then h.set (R.laneStandin (c - 1)) 7 else h

/-- What one TRAIN block on a lane changes in the lane's own training state. A crossed lane takes no part (R179). -/
def Hub.trainLane (h : Hub) (c l w : Nat) : Hub :=
  let ph := h.lanePhase c l
  let tph := bits w 63 60
  let cap := bits w 59 57
  let x := h.laneX c l
  if x.crossed ∨ bits w 54 52 ≠ h.homePos c l then h.modLane c l (fun x => { x with crossed := true })
  else
  let h := if ph = 2 then h.trackTap c l x w else h
  let x := { x with farFom := bits w 51 44, farDone := bits w 15 15 == 1 }
  let x := match ph with
    | 1 =>
      let run := if tph = 1 ∧ x.cap = cap then x.capRun + 1 else if tph = 1 then 1 else 0
      let selRun := match (h.port c).sel with
        | some r => if bits w 56 55 = r then x.selRun + 1 else 0
        | none => 0
      { x with cap := cap, capRun := run, selRun := selRun }
    | 2 => (x.request w).answered w (h.get (fFomTgt c))
    | 3 => { x with readyRun := if tph = 3 then x.readyRun + 1 else 0, farReady := x.farReady || tph == 3 }
    | _ => x
  let h := h.modLane c l (fun _ => x)
  if l < posCount c ∧ ph = (h.port c).phase then h.modPort c (fun p => { p with farSpare := isTrunk c && (bits w 14 14 == 1) }) else h

/-- Lanes among the positions that satisfy a test. -/
def Hub.posWith (h : Hub) (c : Nat) (f : LaneX → Bool) : List Nat :=
  (List.range (posCount c)).filter (fun l => !(h.laneX c l).crossed && f (h.laneX c l))

/-- A lane in use again: its position, its role, and no longer retired. -/
def Hub.laneBack (h : Hub) (c l pos : Nat) : Hub :=
  let h := h.setAll [(fPos c l, pos), (fRetired c, clrBit (h.get (fRetired c)) l)]
  let h := (h.set (fLstate c l) (h.laneRole c l)).modLane c l (fun x => { x with lostPos := 7 })
  h.modPort c (fun p => { p with restore := none, restored := false })

/-- The position that a restored lane brings back into use: the one that went with it, where no lane carries it; none where
it goes to spare duty. -/
def Hub.restorePos (h : Hub) (c l : Nat) : Option Nat :=
  let j := if l = 4 then (h.laneX c 4).lostPos else l
  if j < 4 ∧ ¬ (h.stripe c).any (fun k => h.get (fPos c k) == j) then some j else none

/-- The lane of a restore has trained (R198): behind a stand-in it carries its position beside the spare until
LANE_RESTORE_SWITCH; a lane retired by a width degrade joins at a restart ALIGN row, a stand-in as stand-in again; the spare
goes back to spare duty. -/
def Hub.restoreTrained (h : Hub) (c l : Nat) : Hub :=
  let n := c - 1
  let h := h.laneTrained c l
  if l ≠ 4 ∧ h.get (R.laneStandin n) = l then h.modPort c (fun p => { p with restored := true })
  else match h.restorePos c l with
    | some j =>
      let h := ((h.laneBack c l j).set (fNlane c) (h.get (fNlane c) + 1)).when (l == 4)
        (fun h => h.setAll [(R.laneStandin n, j), (R.linkSpare n, 1)])
      h.sendAlign c
    | none => if l = 4 then (h.laneBack c 4 4).setAll [(R.linkSpare n, 1), (R.laneStandin n, 7)] else h.laneBack c l 7

/-- 1,024 equal rows on the restored lane and the spare: the position moves back, and the spare is free again (R198). -/
def Hub.restoreSwitch (h : Hub) (c : Nat) : Hub :=
  let n := c - 1
  match (h.port c).restore with
  | some l =>
    if (h.port c).restored then
      let h := h.laneBack c l l
      h.setAll [(fPos c 4, 4), (fLstate c 4, 3), (R.laneStandin n, 7)]
    else h
  | none => h

/-- A restore that ends without its lane back: the lane stays retired (R198). -/
def Hub.restoreFailed (h : Hub) (c l : Nat) : Hub :=
  (h.setAll [(fLstate c l, 5), (fLock c l, 0)]).modPort c (fun p => { p with restore := none, restored := false })

/-- A TRAIN block received on a lane, up to the assignment (Table 5-3). The answer is true where training has just been
completed, and the port goes on to LINKUP. -/
def Hub.trainBlock (h : Hub) (c l w : Nat) : Bool × Hub :=
  let h := h.trainLane c l w
  if (h.laneX c l).crossed then (false, h)
  else
  let h := h.sendTrain c l
  match (h.port c).phase with
  | 1 =>
    let ls := h.posWith c (fun x => decide (8 ≤ x.capRun))
    let h := if (h.port c).sel.isNone ∧ h.minw c ≤ ls.length then
        let m := h.rateCap c &&& (ls.foldl (fun m l => m &&& (h.laneX c l).cap) 7)
        if m = 0 then h else h.modPort c (fun p => { p with common := m, sel := some (topRate m) })
      else h
    match (h.port c).sel with
    | some r => if h.minw c ≤ (h.posWith c (fun x => decide (16 ≤ x.selRun))).length then (false, h.enterEq c r) else (false, h)
    | none => (false, h)
  | 2 => if h.allDone c then (false, (h.assign c).getD h) else (false, h)
  | 3 =>
    let h := h.readyMismatch c l
    if h.allReady c then (true, h.trained c) else (false, h)
  | 4 => (false, if h.restoring c l && decide (8 ≤ (h.laneX c l).readyRun) && h.laneFit c l then h.restoreTrained c l else h)
  | _ => (false, h)

/-- A FOM measured on a lane (R173, R178): a search measurement, or the live FOM of the tick. -/
def Hub.fomMeasured (h : Hub) (c l f : Nat) : Hub :=
  let h := h.set (fFom c l) f
  match h.lanePhase c l with
  | 2 =>
    let h := h.modLane c l (fun x => x.measured f (h.get (fFomTgt c)))
    if h.restoring c l then h.sendTrain c l
    else if h.allDone c then (h.assign c).getD h else h.sendTrain c l
  | 4 =>
    let h := h.set (fFomLow c l) (min (h.get (fFomLow c l)) f)
    h.modLane c l (fun x => { x with lowRun := if f < h.get (fFomFail c) then x.lowRun + 1 else 0 })
  | _ => h

/-! Lane faults (R186 to R191). -/

/-- Squelch a lane's transmitter. -/
def Hub.squelch (h : Hub) (c l : Nat) : Hub := h.emit (.words "SQUELCH" c [l])

/-- A lane is retired in both directions (R187, R189, R190). -/
def Hub.retireLane (h : Hub) (c l : Nat) : Hub :=
  let h := h.setAll [(fLstate c l, 5), (fPos c l, 7), (fLock c l, 0)]
  let h := if isTrunk c then h.obsEvent 0 (16 * (c - 1) + 12) else h
  (h.set (fRetired c) (setBit (h.get (fRetired c)) l)).squelch c l

/-- 1,024 row times of a trunk, in core cycles: how long a step may be undone, and is taken to be in progress (R195). -/
def Hub.stepRows (h : Hub) (c : Nat) : Nat := 8448 / 2 ^ h.get (fRate c)

/-- Is a tempering step in progress on a lane? -/
def Hub.stepping (h : Hub) (c l : Nat) : Bool :=
  let x := h.laneX c l
  x.step.isSome && decide (h.cyc - x.stepAt < h.stepRows c)

/-- The step of a lane is taken back: the parameter has its value from before (R195, R199). -/
def Hub.stepBack (h : Hub) (c l : Nat) : Hub :=
  match (h.laneX c l).step with
  | none => h
  | some (p, up) =>
    let h := h.setParam c l p (h.param c l p + (if up then -1 else 1))
    (h.set (fSteps c l) (h.get (fSteps c l) - 1)).modLane c l (fun x => { x with step := none })

/-- The port's tempering is suspended for this tick, and for the next where its task has begun; a step in progress on it is
abandoned with the parameter at its value before (R69, R197, R199). -/
def Hub.suspendTemper (h : Hub) (c : Nat) : Hub :=
  let h := if (h.port c).tempered then
      h.each ((List.range (laneCount c)).filter (fun l => h.stepping c l)) (fun h l => h.stepBack c l)
    else h
  h.modPort c (fun p => { p with suspend := if p.tempered then 2 else max 1 p.suspend })

/-- A width degrade at a lane, or the source that it raises where too few positions would remain (R190, R191). -/
def Hub.degrade (h : Hub) (c l : Nat) (narrow : Hub → Hub) : Hub :=
  if h.get (fNlane c) - 1 < h.minw c then narrow h
  else
    let j := h.get (fPos c l)
    let h := ((h.retireLane c l).set (fNlane c) (h.get (fNlane c) - 1)).modLane c l (fun x => { x with lostPos := j })
    let h := if isTrunk c ∧ l = 4 then h.setAll [(R.laneStandin (c - 1), 7), (R.linkSpare (c - 1), 0)] else h
    h.sendAlign c

/-- A lane fault on a trunk port (R187, R189 to R191). -/
def Hub.trunkLaneFault (h : Hub) (c l : Nat) : Hub :=
  let n := c - 1
  let st := h.laneRole c l
  if (h.port c).phase ≠ 4 ∨ st < 2 ∨ 4 < st then h
  else
    let h := h.inc (fFaults c l)
    if st = 3 then
      let h := h.when ((List.range 5).any (fun k => h.stepping c k)) (fun h => h.suspendTemper c)
      let h := ((h.retireLane c 4).noIdent c).setAll [(R.laneRepl n, 7), (R.linkSpare n, 0)]
      h.raise (srcLaneDegrade n) l
    else if st = 2 ∧ h.laneRole c 4 = 3 then
      let j := h.get (fPos c l)
      let h := ((h.suspendTemper c).noIdent c).retireLane c l
      let h := h.setAll [(fPos c 4, j), (fLstate c 4, 4), (R.laneStandin n, j), (R.laneRepl n, 7)]
      h.raise (srcLaneDegrade n) l
    else
      let ok := h.minw c ≤ h.get (fNlane c) - 1
      let h := h.when ok (fun h => h.suspendTemper c)
      let h := h.degrade c l (fun h => h.raise (srcLaneWidth n) l)
      if ok then h.raise (srcLaneDegrade n) l else h

/-! Electrical idle (R182 to R185). -/

/-- May the transmit direction enter electrical idle (R182)? The idle delay is the event itself. -/
def Hub.mayIdle (h : Hub) (c : Nat) (entering : Bool) : Bool :=
  let auto := if isTrunk c then h.flag (R.laneAutoidle (c - 1)) else h.flag (R.lpAutoidle (c - 5))
  (auto || entering) && h.portUp c && !h.flag (fEidleTx c) &&
  (h.txc c 0).unacked.isEmpty && (h.txc c 2).unacked.isEmpty && (h.link c).wait.isEmpty && (h.link c).msgs.isEmpty &&
  (h.stk c).queue.isEmpty

/-! Tempering (R192 to R197). -/

/-- Is lane tempering skipped on the port in this tick (R197)? A port with either direction idle counts as idle (DESIGN CHOICE,
assumption 220). -/
def Hub.temperSkipped (h : Hub) (c : Nat) : Bool :=
  (h.port c).phase != 4 || h.flag (fEidleTx c) || h.flag (fEidleRx c) || (h.port c).suspend != 0

/-- The tempering step of one lane, from the trial FOMs of the previous tick (R195, R196). -/
def Hub.temperLane (h : Hub) (c l up dn : Nat) : Hub :=
  let st := h.laneRole c l
  if st < 2 ∨ 4 < st ∨ h.flag (fTemperStop c l) then h
  else
    let x := h.laneX c l
    let p := x.param
    let h := h.modLane c l (fun x => { x with param := (x.param + 1) % 7 })
    if max up dn < h.get (fFom c l) + 2 then h
    else
      let d : Int := if dn ≤ up then 1 else -1
      let v := h.param c l p + d
      let r := paramRange p
      let t := x.trained.getD p 0
      if v < r.1 ∨ r.2 < v ∨ (h.get (R.laneSafeDelta (c - 1)) : Int) < (v - t).natAbs then
        (h.set (fTemperStop c l) 1).raise (srcTemperRange (c - 1)) l
      else
        ((h.setParam c l p v).inc (fSteps c l)).modLane c l (fun x => { x with step := some (p, decide (0 < d)), stepAt := h.cyc })

/-- Undo the last step of a lane after a sync header error within 1,024 rows, and count it (R195). -/
def Hub.undoStep (h : Hub) (c l : Nat) : Hub := if h.stepping c l then (h.stepBack c l).inc (fUndo c l) else h

/-- The spare's replica moves to the next position in use (R192). -/
def Hub.rotateSpare (h : Hub) (c : Nat) : Hub :=
  let n := c - 1
  if (h.port c).phase ≠ 4 ∨ h.laneRole c 4 ≠ 3 then h
  else if !h.flag (R.laneRotEn n) then h.set (R.laneRepl n) 0
  else
    let ps := (List.range 4).filter (fun j => h.get (fPos c j) == j)
    match nextAfter ps (some (h.get (R.laneRepl n))) with
    | some j => h.set (R.laneRepl n) j
    | none => h

end Sys2Proof.Machine
end

