-- ==== Sys2Proof/Machine/FailoverOps.lean ====
section
/-!
DEFINITION. Trunk link states (Table 4-13) and single-fault continuity (chapter 10): failing a trunk, the failover
switch, replay in band 2, and the return after repair.
-/

namespace Sys2Proof.Machine

open Sys2Proof

/-- Is the trunk with code `c` ATTACHED to master `m`? -/
def Hub.attachedTo (h : Hub) (c m : Nat) : Bool :=
  isTrunk c && h.get (R.linkState (c - 1)) == 4 && h.get (R.linkHost (c - 1)) == m

/-- Cells left of trunk `n`'s replay (R329): in band 2 queues, or sent on an alternate and not acknowledged. -/
def Hub.rplCells (h : Hub) (n : Nat) : Nat :=
  ((List.range 24).map (fun e =>
    ((((h.egress (e + 1)).b2.filter (fun p => p.1 == n + 1)).flatMap (fun p => p.2)).map TxFrame.cells).sum +
    (((h.link (e + 1)).area.filter (fun x => x.origin == n + 1)).map TxFrame.cells).sum)).sum

/-- Bring RPL_CELLS of the four trunks up to date. -/
def Hub.settleRpl (h : Hub) : Hub := h.each [0, 1, 2, 3] (fun h n => h.set (R.foRplCells n) (h.rplCells n))

/-- A queue moves between its primary and its alternate (R279): its F is set to V of the egress it joins. -/
def Hub.moveQueue (h : Hub) (t dir : Nat) (alt : Bool) : Hub :=
  let h := h.modQueue t dir (fun q => { q with moved := alt, active := false })
  let e := h.egressOf t dir
  if e = 0 then h else h.modQueue t dir (fun q => { q with vf := (h.egress e).v })

/-- Discard what a queue holds for want of a working alternate (R324): counted at trunk `n`. -/
def Hub.noAlt (h : Hub) (n t dir : Nat) : Hub :=
  let l := (h.queue t dir).frames
  let h := h.modQueue t dir (fun q => { q with frames := [], active := false })
  ((h.add (R.foNoaltDrop n) l.length).fenceLostAll l).settleFree

/-- One direction of a tunnel at the failure of trunk `n` (R323, R324). -/
def Hub.switchDir (h : Hub) (n t dir : Nat) : Hub :=
  let prim := if dir = 0 then h.get (R.ttEgr t) else h.get (R.ttIngr t)
  let alt := if dir = 0 then h.get (R.ttAltEgr t) else h.get (R.ttAltTrk t)
  let own := h.get (R.ttOwn t)
  if dir = 1 ∧ ¬ h.flag (R.ttBidir t) then h
  else if h.egressOf t dir ≠ n + 1 then h
  else
    let other := if prim = n + 1 then alt else prim
    if h.attachedTo other own then h.moveQueue t dir (other != prim)
    else h.noAlt n t dir

/-- The failover switch of one tunnel: it is marked FAILED, and its queues move (R323). -/
def Hub.switchTunnel (h : Hub) (n t : Nat) : Hub :=
  let c := n + 1
  let names := h.get (R.ttEgr t) == c || h.get (R.ttIngr t) == c || h.get (R.ttAltEgr t) == c || h.get (R.ttAltTrk t) == c
  if isUser t && (h.tunIs t tOpen || h.tunIs t tDraining) && names then
    let x := h.tunX t
    let other := ((h.queue t 0).moved || (h.queue t 1).moved) && !x.failTrk.contains c
    let h := if other then h
      else (h.set (R.ttFailed t) 1).modTunX t (fun x => { x with failTrk := if x.failTrk.contains c then x.failTrk else x.failTrk ++ [c] })
    (h.switchDir n t 0).switchDir n t 1
  else h

/-- The egress that now carries the tunnel direction of a replay frame; 0 for none (R326). -/
def Hub.replayEgress (h : Hub) (n m : Nat) (x : TxFrame) : Nat :=
  let t := x.key / 2
  let dir := x.key % 2
  if isSys t then h.routeTo (if 1 ≤ t ∧ t ≤ 4 then t - 1 else if 10 ≤ t ∧ t ≤ 13 then t - 10 else m)
  else
    let e := h.egressOf t dir
    if e ≠ n + 1 ∧ h.attachedTo e (h.get (R.ttOwn t)) then e else 0

/-- The frames of a failed trunk's replay area become replay frames (R326); strike summaries are taken out. -/
def Hub.formReplay (h : Hub) (n m : Nat) (l : List TxFrame) : Hub :=
  h.each l (fun h x =>
    let t := x.key / 2
    if 6 ≤ t ∧ t ≤ 9 then h
    else
      let o := if x.origin = 0 then n + 1 else x.origin
      let e := h.replayEgress n m x
      if e = 0 then (h.inc (R.foNoaltDrop n)).fenceLost x.f
      else h.modEgress e (fun y =>
        if y.b2.any (fun p => p.1 == o) then { y with b2 := y.b2.map (fun p => if p.1 == o then (o, p.2 ++ [x]) else p) }
        else { y with b2 := y.b2 ++ [(o, [x])] }))

/-- Band 2 queues that trunk `n` was itself carrying for another failed trunk lose their egress (Table 10-6, R324):
their frames move on where another trunk serves them. -/
def Hub.reformBand2 (h : Hub) (n m : Nat) : Hub :=
  let l := (h.egress (n + 1)).b2.flatMap (fun p => p.2.map (fun x => { x with origin := p.1 }))
  (h.modEgress (n + 1) (fun y => { y with b2 := [] })).formReplay n m l

/-- Frames that wait for failed trunk `n` on the system tunnels of its host `m` go on the next trunk of R71 (R323); where
there is none they go with their tunnel. -/
def Hub.rerouteSys (h : Hub) (n m : Nat) : Hub :=
  let e := h.routeTo m
  h.each [1 + m, 10 + m, 14] (fun h t =>
    let there (f : QFrame) : Bool := f.dest == n + 1
    let gone := if e = 0 then (h.queue t 1).frames.filter there else []
    (h.modQueue t 1 (fun q => { q with
      frames := if e = 0 then q.frames.filter (fun f => !there f)
        else q.frames.map (fun f => if there f then { f with dest := e } else f) })).fenceLostAll gone)

/-- Is the summary of the tick before this one of trunk `n` still to be acknowledged on it (R333): not yet built, waiting, or
in the replay area? The tick is one of which the trunk has a strike record. -/
def Hub.summaryOut (h : Hub) (n : Nat) : Bool :=
  let c := n + 1
  let sum (k : Nat) : Bool := k == qkey (6 + n) 1
  (h.stk c).hist.any (fun t => t.tick + 1 == h.tickNum &&
    (!t.summed || (h.link c).area.any (fun x => sum x.key) || (h.link c).wait.any (fun x => sum x.key) ||
      !(h.egress c).summary.isEmpty || (h.stk c).built.any (fun p => p.1 == c)))

/-- The failover switch (R323 to R326), with the failover state of Table 10-5. -/
def Hub.failoverSwitch (h : Hub) (n m cause : Nat) : Hub :=
  let c := n + 1
  let h := h.obsEvent 2 1
  let area := (h.link c).area
  let lost := ((h.link c).wait.filter (fun x => x.ccls == 1 || x.ccls == 3)).length
  let prevAcked := !h.summaryOut n
  let h := h.each h.liveIds (fun h t => h.switchTunnel n t)
  let h := h.formReplay n m area
  let h := h.reformBand2 n m
  let h := (h.add (R.linkUrLost n) lost).modLink c (fun l => { l with wait := [], area := [], open_ := none })
  let h := (h.modEgress c (fun x => { x with summary := [] })).rerouteSys n m
  let h := h.modStk c (fun s => { s with built := s.built.filter (fun p => p.1 != c) })
  let (lat, h) := h.draw 16
  let (res, h) := h.draw 16
  let h := h.setAll [(R.foState n, 1), (R.foCause n, cause), (R.foSwLat n, lat), (R.foResLat n, res)]
  let h := (h.inc (R.foCnt n)).modFailover c (fun f => { f with
    hostAtFail := some m, failTick := h.tickNum, attached := 0, retAsked := false, waitOver := false,
    waitMs := h.get (R.foRtrDly n),
    divert := if prevAcked then [h.tickNum] else [h.tickNum - 1, h.tickNum] })
  let h := (h.suspendTemper c).each [1, 2, 3, 4] (fun h e =>
    if e ≠ c ∧ (h.egress e).b2.any (fun p => p.1 == c) then h.suspendTemper e else h)
  h.settleRpl.settleWmap

/-- A trunk leaves ATTACHED for FAILED (R322): squelch, then the switch. Its receive pool and the keys of what it holds stay
until it trains (R325). -/
def Hub.failTrunk (h : Hub) (n cause : Nat) : Hub :=
  if h.get (R.linkState n) ≠ 4 then h
  else
    let c := n + 1
    let m := h.get (R.linkHost n)
    let h := h.each (List.range 5) (fun h l => h.squelch c l)
    let h := h.set (R.linkState n) 5
    h.failoverSwitch n m cause

/-- A trunk goes to DOWN by port reset or disable (Table 4-13): unacknowledged frames are handled as a trunk fault. -/
def Hub.trunkDown (h : Hub) (n : Nat) : Hub :=
  if h.get (R.linkState n) = 0 then h
  else
    let c := n + 1
    let was := h.get (R.linkState n)
    let m := h.get (R.linkHost n)
    let h := h.each (List.range 5) (fun h l => h.squelch c l)
    let h := (h.set (R.linkState n) 0).lanesOff c
    let h := if was = 4 then h.failoverSwitch n m 7 else h
    if was = 4 ∨ was = 5 then
      let rx := (h.link c).rx
      (h.linkOff c).modLink c (fun l => { l with rx := rx })
    else (h.dropSession c).linkOff c

/-- Is trunk `n` held down: a contained source of it is sticky, or its TRN_FAIL is contained (Table 18-1, R545, R548)? -/
def Hub.trunkHeld (h : Hub) (n : Nat) : Bool :=
  [srcLinkSilent n, srcLinkProto n, srcCrdStall n, srcLaneWidth n, srcLaneDegrade n, srcTemperRange n, srcSpareMism n,
   srcTagFail n].any (fun i => h.contained i && h.sticky i) || h.replayHeld (n + 1)

/-- Does a latched TRN_FAIL, or a sticky source, keep the port from training on its own (Table 18-1)? -/
def Hub.trunkBarred (h : Hub) (n : Nat) : Bool := h.trunkHeld n || h.contained (srcTrnFail n)

/-- May trunk `n` leave FAILED for TRAINING: its replay area is empty (R329)? -/
def Hub.replayEmpty (h : Hub) (n : Nat) : Bool := h.rplCells n == 0

/-- Training of a trunk ends in DOWN (Table 5-3, Table 10-5): TRN_FAIL, and the wait doubles up to 64 times RTR_DLY. -/
def Hub.trunkTrainFail (h : Hub) (n : Nat) : Hub :=
  let h := ((h.markTraining (n + 1)).set (R.linkState n) 0).lanesOff (n + 1)
  let h := if h.get (R.foState n) = 0 then h
    else h.modFailover (n + 1) (fun f => { f with waitOver := false, waitMs := min (2 * f.waitMs) (64 * h.get (R.foRtrDly n)) })
  h.raise (srcTrnFail n) 0

/-- Buffering and shares that wait for LINKUP take effect (R136, R138); cells given back by a return to the default
go to the queue pool. -/
def Hub.applyLinkPend (h : Hub) (n : Nat) : Hub :=
  let l := h.link (n + 1)
  let h := match l.sharePend with
    | some (a, b, d, e) => h.setAll [(R.linkCtl n, a), (R.linkIso n, b), (R.linkRtx n, d), (R.linkBlk n, e)]
    | none => h
  let h := match l.extPend with
    | some true => h.set (R.linkExtbuf n) 1
    | some false => (h.set (R.linkExtbuf n) 0).set R.bufQpool (h.get R.bufQpool + 5120)
    | none => h
  (h.modLink (n + 1) (fun l => { l with sharePend := none, extPend := none })).settleFree

/-- A trunk enters LINKUP after training (Table 4-13). -/
def Hub.trunkLinkup (h : Hub) (n : Nat) : Hub :=
  let c := n + 1
  let h := ((h.set (R.linkState n) 2).applyLinkPend n).linkZero c
  h.each (List.range 8) (fun h _ => h.sendProbe c)

/-- An ATTACHED trunk goes back to LINKUP with its session keys discarded, the link layer running on (Table 4-13 warm reset,
Table 19-3). -/
def Hub.trunkUnattach (h : Hub) (n : Nat) : Hub :=
  if h.get (R.linkState n) = 4 then (h.set (R.linkState n) 2).dropSession (n + 1) else h

/-! Return after repair (R337). -/

/-- Is a tunnel returning: FAILED, with all its failed trunks ATTACHED to its owning master? -/
def Hub.returning (h : Hub) (t : Nat) : Bool :=
  h.flag (R.ttFailed t) && (h.tunX t).failTrk.all (fun c => h.attachedTo c (h.get (R.ttOwn t)))

/-- Does a frame of a queue remain unacknowledged on the port that carries it, or in a band 2 queue? -/
def Hub.stillOut (h : Hub) (t dir : Nat) : Bool :=
  (List.range 24).any (fun e =>
    (h.link (e + 1)).area.any (fun x => x.key == qkey t dir) || (h.link (e + 1)).wait.any (fun x => x.key == qkey t dir) ||
    h.replayAhead (e + 1) (qkey t dir))

/-- A returning tunnel direction moves back (Table 10-5); FAILED clears when all its directions have moved. -/
def Hub.returnDir (h : Hub) (t dir : Nat) : Hub :=
  let h := if (h.queue t dir).moved then h.moveQueue t dir false else h
  if (h.queue t 0).moved ∨ (h.queue t 1).moved then h
  else (h.set (R.ttFailed t) 0).modTunX t (fun x => { x with failTrk := [] })

/-- RETURNING to NORMAL where no returning tunnel is left (Table 10-5). -/
def Hub.settleReturn (h : Hub) : Hub :=
  h.each [0, 1, 2, 3] (fun h n =>
    if h.get (R.foState n) = 2 ∧ ¬ h.liveIds.any (fun t => isUser t && (h.tunX t).failTrk.contains (n + 1) && h.returning t) then
      (h.set (R.foState n) 0).modFailover (n + 1) (fun f => { f with hostAtFail := none, retAsked := false })
    else h)

/-- A descriptor that a boundary installs runs on its alternate wherever its primary trunk has failed (Table 2-8). -/
def Hub.installFailed (h : Hub) (t : Nat) : Hub :=
  h.each [0, 1, 2, 3] (fun h n => if h.get (R.foState n) = 1 ∧ h.get (R.linkState n) ≠ 4 then h.switchTunnel n t else h)

/-- Frames that reach the egress of a failed trunk without an alternate are discarded there (R33, R324). -/
def Hub.discardDown (h : Hub) (e : Nat) : Hub :=
  if isTrunk e ∧ ¬ h.portUp e ∧ h.get (R.foState (e - 1)) ≠ 0 then
    h.each (h.queuesAt e) (fun h k => if isUser (k / 2) then h.noAlt (e - 1) (k / 2) (k % 2) else h)
  else h

end Sys2Proof.Machine
end

