-- ==== Sys2Proof/Machine/StrikeOps.lean ====
section
/-!
DEFINITION. The flash path (chapter 6): micro-frames, trigger pins, routing, the pulse crossing, and the summaries that
confirm what was sent.
-/

namespace Sys2Proof.Machine

open Sys2Proof

/-- The fields of a STRIKE block. -/
def strikeOf (w : Nat) : Strike :=
  { chan := bits w 55 48, edge := bits w 47 47, hops := bits w 46 44, tlow := bits w 43 40, stseq := bits w 39 30,
    toff := bits w 29 12, late := bit w 11 }

/-- The lanes of a strike row that carry a STRIKE block (R111, R212). -/
def Hub.strikeLanes (h : Hub) (c : Nat) : List Nat :=
  ((h.strikeRowOf c 0).filter (fun b => b.2.2 != btRowfill)).map (fun b => b.1)

/-- Is a copy valid, its lane apart (R214)? -/
def copyValid (b : Block) : Bool :=
  isType b btStrike && (crc8 (leBytes 7 (b.w % 2 ^ 56)) == bits b.w 63 56) && (bits b.w 10 8 == 0)

/-- Is a copy valid: well formed, and on a lane where a strike row places one (R214)? -/
def Hub.copyOk (h : Hub) (c : Nat) (b : Block) : Bool := copyValid b && (h.strikeLanes c).contains b.lane

/-! Trigger outputs (R204, R232). -/

/-- Drive value of a logical level under INV. -/
def Hub.driveOf (h : Hub) (k : Nat) (lv : Bool) : Nat := if lv != h.flag (R.toutInv k) then 2 else 1

/-- Drive value of the SAFE setting. -/
def Hub.safeDrive (h : Hub) (k : Nat) : Nat :=
  match h.get (R.toutSafe k) with
  | 0 => 0
  | 1 => 1
  | 2 => 2
  | _ => (h.trigOut k).drive

/-- Put an output at its inactive level, low before INV, or at its SAFE setting where it is off or safe state is in
force (R204, R232). -/
def Hub.restOutput (h : Hub) (k : Nat) : Hub :=
  if h.get (R.toutMode k) = 0 ∨ h.safe then h.setTrigOut k { drive := h.safeDrive k }
  else h.setTrigOut k { drive := h.driveOf k false }

/-- Has the output ever been configured since cold reset, or does safe state bind it (R205)? -/
def Hub.outBound (h : Hub) (k : Nat) : Bool :=
  h.get (R.toutMode k) != 0 || h.get (R.toutSafe k) != 0

/-- An event acts on an output (R204). -/
def Hub.actOutput (h : Hub) (k edge : Nat) : Hub :=
  let x := h.trigOut k
  match h.get (R.toutMode k) with
  | 1 => h.setTrigOut k { drive := h.driveOf k true, level := true, pulse := true }
  | 2 => h.setTrigOut k { drive := h.driveOf k (edge == 1), level := edge == 1, pulse := false }
  | 3 => h.setTrigOut k { drive := h.driveOf k (!x.level), level := !x.level, pulse := false }
  | _ => h

/-- Events not sent in this tick on a trunk (LIMDROP). -/
def Hub.limdrop (h : Hub) (c : Nat) : Hub :=
  if isTrunk c then h.modStk c (fun s => { s with cur := { s.cur with limdrop := min 65535 (s.cur.limdrop + 1) } }) else h

/-- Has the strike queue of a port room: 8 places, and on a trunk 252 micro-frames in a tick (R210, R213)? -/
def Hub.strikeRoom (h : Hub) (c : Nat) : Bool :=
  let s := h.stk c
  decide (s.queue.length < 8) && (!isTrunk c || decide (s.cur.sent.length + s.queue.length < 252))

/-- Put a micro-frame that came from `src` in a port's strike queue (R210, R213). -/
def Hub.queueStrike (h : Hub) (c src : Nat) (x : Strike) : Hub :=
  if !h.strikeUp c then h.inc (R.fpDrop (fpOf c))
  else if !h.strikeRoom c then (h.inc (R.fpDrop (fpOf c))).limdrop c
  else h.modStk c (fun s => { s with queue := s.queue ++ [(src, x)] })

/-- One event into the crossing of its channel (R222, R223). -/
def Hub.crossEvent (h : Hub) (ch : Nat) : Hub :=
  let x := h.crossing ch
  if x.busy then
    if x.pend = 15 then (h.inc R.fpStatXovf).raise srcStkXovf ch
    else h.setCrossing ch { x with pend := x.pend + 1 }
  else h.setCrossing ch { x with tog := !x.tog, busy := true }

/-- Ports to which an event goes: the DST ports other than its ingress (R216, R217). Trunks that are not ATTACHED are replaced
once by ALT where ALT_EN is 1 and ALT can carry it; otherwise they stay, and the event is dropped there (R218). -/
def Hub.strikeDests (h : Hub) (ch src : Nat) : List Nat :=
  let dst := h.get (R.routeDst ch)
  let all := ((List.range 20).map (· + 1)).filter (fun c => bit dst (c - 1) && c != src)
  let down := all.filter (fun c => isTrunk c && !h.strikeUp c)
  let alt := h.get (R.routeAlt ch) + 1
  if h.flag (R.routeAltEn ch) && !down.isEmpty && h.strikeUp alt && alt != src then
    (all.filter (fun c => !down.contains c)) ++ (if all.contains alt then [] else [alt])
  else all

/-- The TRIG_OUT pins that an event reaches: those of OUT, and of these for a late delivery those with LATE_EN (R217, R230). -/
def Hub.strikeOuts (h : Hub) (x : Strike) : List Nat :=
  (List.range 32).filter (fun k => bit (h.get (R.routeOut x.chan)) k && (!x.late || h.flag (R.toutLateEn k)))

/-- The ports that an event reaches: none for a late delivery without LATE_FWD (R230). -/
def Hub.strikePorts (h : Hub) (x : Strike) (src : Nat) : List Nat :=
  if x.late && !h.flag (R.routeLateFwd x.chan) then [] else h.strikeDests x.chan src

/-- How many deliveries a late event makes: to pins, to ports whose strike queue takes it, and to local consumers (R230). -/
def Hub.deliveries (h : Hub) (x : Strike) (src : Nat) : Nat :=
  (h.strikeOuts x).length + ((h.strikePorts x src).filter (fun c => h.strikeUp c && h.strikeRoom c)).length +
    h.get (R.routeLocalEv x.chan)

/-- Route an accepted event (R217, R230): `src` is the ingress port code, 0 for a TRIG_IN pin; a late one reaches only
what its entry opens to late deliveries, each of which is counted. -/
def Hub.routeStrike (h : Hub) (x : Strike) (src : Nat) : Hub :=
  let ch := x.chan
  let h := h.obsEvent 2 (128 + ch)
  if h.safe then
    let h := if src = 0 then h.inc R.fpStatDrop else h.inc (R.fpDrop (fpOf src))
    h.each (h.strikePorts x src) (fun h c => h.limdrop c)
  else
    let h := h.when (x.late && src != 0) (fun h => h.add (R.fpLate (fpOf src)) (h.deliveries x src))
    let h := h.each (h.strikeOuts x) (fun h k => h.actOutput k x.edge)
    let h := h.each (h.strikePorts x src) (fun h c => h.queueStrike c src x)
    if h.flag (R.routeLocalEv ch) then h.crossEvent ch else h

/-- Is the port's flash path contained by a strike source (Table 18-1)? -/
def Hub.strikeContained (h : Hub) (c : Nat) : Bool :=
  [srcStkLost, srcStkUnconf, srcStkSummary].any (fun i => h.contained i && (h.blocksOf i).contains c)

/-- One valid copy of a micro-frame (R209, R215, R216). Where several discards apply, HOPS 7 comes before SRC, and SRC before a
containment; one counter moves (DESIGN CHOICE, assumption 221: the manual gives no order). -/
def Hub.takeCopy (h : Hub) (c : Nat) (x : Strike) : Hub :=
  let s := h.stk c
  match s.window.find? (fun p => p.1 == x.stseq) with
  | some p =>
    if p.2 = x then h
    else ((h.inc (R.fpDiffer (fpOf c))).inc (R.fpUnconf (fpOf c))).raise srcStkUnconf c
  | none =>
    let h := h.modStk c (fun s => { s with
      window := (s.window ++ [(x.stseq, x)]).drop (s.window.length + 1 - 128)
      acted := if isTrunk c then s.acted ++ [{ x := x, came := h.now }] else s.acted })
    let h := h.inc (R.fpRx (fpOf c))
    if x.hops = 7 then h.inc (R.fpDrop (fpOf c))
    else if !bit (h.get (R.routeSrc x.chan)) (c - 1) then h.inc (R.fpDenied (fpOf c))
    else if h.strikeContained c then h
    else h.routeStrike { x with hops := x.hops + 1 } c

/-- A strike row received: its copies in order of arrival, each with the lane it came on (R214). -/
def Hub.strikeRowReceived (h : Hub) (c : Nat) (copies : List Block) : Hub :=
  let any := copies.any (h.copyOk c)
  let h := h.each copies (fun h b => if h.copyOk c b then h.takeCopy c (strikeOf b.w) else h.inc (R.fpCopyErr (fpOf c)))
  if any then
    (if isTrunk c then h.obsEvent 0 (16 * (c - 1) + 9) else h.obsEvent 1 (8 * (c - 5) + 5))
  else h.modStk c (fun s => { s with cur := { s.cur with rxinv := min 65535 (s.cur.rxinv + 1) } })

/-- The strike unit of a port as its link comes up: STSEQ and windows start again (R208); the ticks whose summaries have been
reconciled stay known (R228). -/
def Hub.strikeLinkUp (h : Hub) (c : Nat) : Hub :=
  h.modStk c (fun s => { s with queue := [], stseq := 0, window := [], acted := [], rangeEnd := 0,
                                cur := { tick := h.tickNum, safe := h.safe }, hist := [] })

/-- What waits in the strike queue of a trunk that fails: sent on ALT where ALT_EN is 1, but never back on its ingress, else
discarded (Table 6-8, R216). -/
def Hub.strikeLinkDown (h : Hub) (c : Nat) : Hub :=
  let l := (h.stk c).queue
  let h := h.modStk c (fun s => { s with queue := [] })
  h.each l (fun h p =>
    let ch := p.2.chan
    let alt := h.get (R.routeAlt ch) + 1
    if isTrunk c && h.flag (R.routeAltEn ch) && alt != c && alt != p.1 then h.queueStrike alt p.1 p.2
    else h.inc (R.fpDrop (fpOf c)))

/-! Summaries (R225 to R231). -/

/-- The payload of a summary (Tables 6-6 and 6-7). -/
def summaryPayload (code : Nat) (t : StrikeTick) (diverted : Bool) : List Byte :=
  let n := t.sent.length
  wordBytes ([0x01 * 2 ^ 24 + 0x01 * 2 ^ 16 + n * 2 ^ 8 + code * 8 + b2n diverted * 4 + b2n t.safe * 2,
    t.tick % 2 ^ 32, t.tick / 2 ^ 32 % 2 ^ 16, t.fseq * 2 ^ 22, t.limdrop * 2 ^ 16 + t.rxinv, 0, 0, 0] ++
    t.sent.flatMap (fun x =>
      [x.chan * 2 ^ 24 + x.edge * 2 ^ 23 + x.hops * 2 ^ 20 + b2n x.late * 2 ^ 19 + x.tlow * 2 ^ 12,
       x.toff * 2 ^ 14 + x.stseq]))

/-- At a boundary each trunk's strike record of the tick just ended is set aside (R225). -/
def Hub.strikeTurn (h : Hub) (ended : Nat) : Hub :=
  h.each [1, 2, 3, 4] (fun h c => h.modStk c (fun s => { s with
    hist := ({ s.cur with tick := ended } :: s.hist).take 3
    cur := { tick := ended + 1, fseq := s.stseq, safe := h.safe } }))

/-- The trunk on which the summaries of failed trunk `n` go (R333); 0 for none. -/
def Hub.divertTrunk (h : Hub) (n : Nat) : Nat :=
  match (h.failover (n + 1)).hostAtFail with
  | none => 0
  | some m =>
    let alt := h.get (R.ttAltEgr (6 + n))
    if alt = 0 then 0
    else if h.attachedTo alt m then alt
    else h.routeTo m

/-- A summary frame as it waits at its egress. -/
def Hub.summaryItem (h : Hub) (e : Nat) (f : Frame) : QFrame :=
  { f := f, cells := f.cells, ingress := codeE3, ccls := 0, dest := e, adm := h.now }

/-- E3 builds summary frame `f` of trunk port `c` for egress `e`, in cells of the system reserve (R262). -/
def Hub.buildSummary (h : Hub) (c e : Nat) (f : Frame) : Hub :=
  let (q, h) := h.giveCells (h.summaryItem e f)
  (h.modStk c (fun s => { s with built := s.built ++ [(e, q)] })).markDepth f.tid 1

/-- Build the summaries of the tick just ended, one for each ATTACHED trunk (R225). -/
def Hub.buildSummaries (h : Hub) : Hub :=
  h.each [0, 1, 2, 3] (fun h n =>
    let c := n + 1
    let s := h.stk c
    if h.get (R.linkState n) = 4 then
      match s.hist with
      | [] => h
      | t :: rest =>
        let h := h.modStk c (fun s => { s with hist := { t with summed := true } :: rest })
        h.buildSummary c c (h.sysFrame (6 + n) 0 (summaryPayload c t false))
    else h)

/-- The summaries built for trunk port `c` join the head of band 0 of their egress, where it is up (R65). -/
def Hub.placeBuilt (h : Hub) (c : Nat) : Hub :=
  let l := (h.stk c).built
  let h := h.modStk c (fun s => { s with built := [] })
  h.each l (fun h p => if h.portUp p.1 then h.modEgress p.1 (fun x => { x with summary := x.summary ++ [p.2] }) else h)

/-- The diverted summaries of failed trunks whose ticks have ended are built and sent (R333): before B + 1.00 µs they wait
for it with the others (R65). -/
def Hub.settleDivert (h : Hub) : Hub :=
  h.each [0, 1, 2, 3] (fun h n =>
    let c := n + 1
    let e := h.divertTrunk n
    let ts := (h.stk c).hist.reverse.filter (fun t => (h.failover c).divert.contains t.tick && decide (t.tick < h.tickNum))
    if ts.isEmpty then h
    else
      let fs := ts.map (fun t =>
        ({ tid := 6 + n, gen := h.get (R.ttGen (6 + n)), cls := 1, payload := summaryPayload c t true } : Frame))
      let h := h.modFailover c (fun f => { f with divert := f.divert.filter (fun k => !(ts.any (fun t => t.tick == k))) })
      if e = 0 then h
      else
        let h := h.each fs (fun h f => h.buildSummary c e f)
        if h.now < h.tick.last + 1000 then h else h.placeBuilt c)

/-- At B + 1.00 µs the summaries built are placed at the head of band 0 of their egress (R65). -/
def Hub.placeSummaries (h : Hub) : Hub := h.each [1, 2, 3, 4] (fun h c => h.placeBuilt c)

/-- A received micro-frame or summary record as Table 6-7 gives it: the strike that a record stands for. -/
def recordStrike (w0 w1 : Nat) : Strike :=
  { chan := bits w0 31 24, edge := bits w0 23 23, hops := bits w0 22 20, late := bit w0 19, tlow := bits w0 15 12,
    toff := bits w1 31 14, stseq := bits w1 9 0 }

/-- The records of a summary payload. -/
def summaryRecords (ws : List Nat) : Nat → List (Nat × Nat)
  | 0 => []
  | n + 1 => match ws with
    | w0 :: w1 :: rest => (w0, w1) :: summaryRecords rest n
    | _ => []

/-- May a summary of trunk `n` come on trunk port `via` (R333): the trunk has failed, and `via` is attached to its host? -/
def Hub.summaryVia (h : Hub) (n via : Nat) : Bool :=
  h.trunkFailed n && (match (h.failover (n + 1)).hostAtFail with
    | some m => h.attachedTo via m
    | none => false)

/-- Is a summary well formed, its TICK apart (R228)? -/
def Hub.summaryOk (h : Hub) (n via : Nat) (ws : List Nat) (len : Nat) : Bool :=
  let w (i : Nat) : Nat := ws.getD i 0
  let nrec := bits (w 0) 15 8
  let fseq := bits (w 3) 31 22
  let recs := summaryRecords (ws.drop 8) nrec
  let div := bit (w 0) 2
  (bits (w 0) 31 24 == 1) && (bits (w 0) 23 16 == 1) && decide (nrec ≤ 252) && (len == 32 + 8 * nrec) &&
  (bits (w 0) 7 3 == n + 1) && (if via = n + 1 then !div else h.summaryVia n via) &&
  (bits (w 0) 0 0 == 0) && (bits (w 2) 31 16 == 0) && (bits (w 3) 21 0 == 0) &&
  (w 5 == 0) && (w 6 == 0) && (w 7 == 0) &&
  ((List.range nrec).zip recs).all (fun p =>
    (bits p.2.2 9 0 == (fseq + p.1) % 1024) && (bits p.2.1 18 16 == 0) && (bits p.2.1 11 0 == 0) && (bits p.2.2 13 10 == 0))

/-- A lost event (R227, R230): counted, reported, and delivered late unless something bars it. -/
def Hub.lostEvent (h : Hub) (c : Nat) (x : Strike) (deliver : Bool) : Hub :=
  let barred := x.hops == 7 || !bit (h.get (R.routeSrc x.chan)) (c - 1) || h.strikeContained c || h.safe
  let h := (h.inc (R.fpLost (fpOf c))).raise srcStkLost c
  if barred || !deliver then h
  else h.routeStrike { x with late := true, hops := x.hops + 1 } c

/-- How far an STSEQ lies after another, modulo 1,024. -/
def seqAfter (a b : Nat) : Nat := (b + 1024 - a % 1024) % 1024

/-- Reconcile a received summary of trunk `n` that arrived on port `via` (R227 to R229). Where its limit had
already passed, nothing is delivered late (R231). -/
def Hub.reconcile (h : Hub) (n via : Nat) (payload : List Byte) : Hub :=
  let c := n + 1
  let ws := bytesWords payload
  let tick := ws.getD 1 0 + (ws.getD 2 0 % 2 ^ 16) * 2 ^ 32
  let s := h.stk c
  let dup := s.sums.contains tick
  let fresh := s.sums.all (fun k => decide (k < tick)) && decide (tick < h.tickNum)
  if h.summaryOk n via ws payload.length && dup then h
  else if !(h.summaryOk n via ws payload.length && fresh) then (h.inc (R.fpSummiss (fpOf c))).raise srcStkSummary c
  else
    let nrec := bits (ws.getD 0 0) 15 8
    let fseq := bits (ws.getD 3 0) 31 22
    let h := if s.sums.isEmpty || fseq == s.rangeEnd then h else h.raise srcStkSummary c
    let recs := (summaryRecords (ws.drop 8) nrec).map (fun p => recordStrike p.1 p.2)
    let stop := (fseq + nrec) % 1024
    let carried (a : Acted) : Bool := decide (seqAfter stop a.x.stseq < 512)
    let lost := recs.filter (fun r => !(s.acted.any (fun a => a.x == r)))
    let unconf := (s.acted.filter (fun a => !carried a && !a.told && !recs.contains a.x)).length
    let h := h.modStk c (fun s => { s with acted := s.acted.filter carried, rangeEnd := stop, sums := tick :: s.sums })
    let h := h.each lost (fun h r => h.lostEvent c r (!s.missed.contains tick))
    let h := h.add (R.fpUnconf (fpOf c)) unconf
    if unconf = 0 then h else h.raise srcStkUnconf c

/-- RTT of R231, in units of 4 ns: the covered trunk's, or for a summary that R333 covers the largest among it and those of the
trunks on which one is accepted. -/
def Hub.summaryRtt (h : Hub) (n k : Nat) : Nat :=
  let f := h.failover (n + 1)
  if h.trunkFailed n && (k == f.failTick || k + 1 == f.failTick) then
    (((List.range 4).filter (fun j => h.summaryVia n (j + 1))).map (fun j => h.get (R.linkRtt j))).foldl max (h.get (R.linkRtt n))
  else h.get (R.linkRtt n)

/-- The limit of R231 passes for the summary of tick `k` of trunk `n`: the missing range is unconfirmed. -/
def Hub.summaryMissing (h : Hub) (n k : Nat) : Hub :=
  let c := n + 1
  let s := h.stk c
  if s.sums.contains k ∨ s.missed.contains k then h
  else
    let edge := h.boundaryOf (k + 1) + h.summaryRtt n k * 4 / 2
    let miss := s.acted.filter (fun a => decide (a.came < edge) && !a.told)
    let h := (h.inc (R.fpSummiss (fpOf c))).raise srcStkSummary c
    let h := h.modStk c (fun s => { s with
      missed := k :: s.missed, acted := s.acted.map (fun a => { a with told := a.told || decide (a.came < edge) }) })
    let h := h.add (R.fpUnconf (fpOf c)) miss.length
    if miss.isEmpty then h else h.raise srcStkUnconf c

/-! PORT.ROUTE (R219). -/

/-- Apply one staged change at the boundary; an output whose MODE or INV changes takes its inactive level (R204). -/
def Hub.applyRoute (h : Hub) (r : RouteChange) : Hub :=
  match r with
  | .entry ch w0 w1 w2 =>
    h.setAll [(R.routeOut ch, w0), (R.routeDst ch, bits w1 19 0), (R.routeLocalEv ch, bits w2 27 27),
      (R.routeAltEn ch, bits w2 26 26), (R.routeAlt ch, bits w2 25 24), (R.routeLateFwd ch, bits w2 23 23),
      (R.routeLocalSrc ch, bits w2 22 22), (R.routeSrc ch, bits w2 19 0)]
  | .tin i w =>
    h.setAll [(R.tinEdgesel i, bits w 31 30), (R.tinInv i, bits w 29 29), (R.tinFilt i, bits w 28 25), (R.tinChan i, bits w 7 0)]
  | .tout k w =>
    let same := h.get (R.toutMode k) == bits w 31 30 && h.get (R.toutInv k) == bits w 27 27
    let h := h.setAll [(R.toutMode k, bits w 31 30), (R.toutSafe k, bits w 29 28), (R.toutInv k, bits w 27 27),
      (R.toutLateEn k, bits w 26 26), (R.toutWidth k, bits w 23 12)]
    if same && h.get (R.toutMode k) != 0 then h else h.restOutput k

/-- Every staged change takes effect in one boundary action (R219). -/
def Hub.applyRoutes (h : Hub) : Hub :=
  let l := h.flash.staged
  ({ h with flash := { h.flash with staged := [] } }).each l Hub.applyRoute

/-- Is a change legal: no reserved encoding (R9, R204), no reserved bit set? -/
def RouteChange.legal (r : RouteChange) : Bool :=
  match r with
  | .entry ch _ w1 w2 => decide (ch < 256) && (bits w1 31 20 == 0) && (bits w2 31 28 == 0) && (bits w2 21 20 == 0)
  | .tin i w => decide (i < 32) && (bits w 24 8 == 0)
  | .tout k w => decide (k < 32) && (bits w 25 24 == 0) && (bits w 11 0 == 0) && !(bits w 31 30 == 1 && bits w 23 12 == 0)

/-- Safe state begins: every output that has been configured drives its SAFE setting (R232), and the guard timers of the
trunk egresses go to 0 (R286). -/
def Hub.strikeSafe (h : Hub) : Hub :=
  let h := h.each (List.range 32) (fun h k => if h.outBound k then h.setTrigOut k { drive := h.safeDrive k } else h)
  let h := h.each [1, 2, 3, 4] (fun h c => h.modEgress c (fun x => { x with guardDue := false }))
  h.each [1, 2, 3, 4] (fun h c => h.modStk c (fun s => { s with cur := { s.cur with safe := true } }))

/-- Safe state ends: each output resumes its mode from its inactive level (R232). -/
def Hub.strikeUnsafe (h : Hub) : Hub :=
  h.each (List.range 32) (fun h k => if h.outBound k then h.restOutput k else h)

end Sys2Proof.Machine
end

