-- ==== Sys2Proof/Machine/Access.lean ====
section
/-!
DEFINITION. Gates, the owner, and the answers of Twiop commands (R574, R575, Table 21-4).
-/

namespace Sys2Proof.Machine

open Sys2Proof

/-! Status codes (Table 21-4). -/

def stOk : Nat := 0
def stBusy : Nat := 1
def stDenied : Nat := 2
def stBadArg : Nat := 3
def stZeroLen : Nat := 4
def stStale : Nat := 5
def stNotOwner : Nat := 6
def stInPlan : Nat := 7
def stTooLate : Nat := 8
def stNoResource : Nat := 9
def stPatchReject : Nat := 10

/-- The answer of a command: status, index of the failing item, response words; `parked` where the command goes on to
WAITING (R616). -/
structure Ans where
  status : Nat := stOk
  fail : Nat := 0xFFFF
  resp : List Nat := []
  parked : Bool := false
deriving DecidableEq, Repr

/-- Refuse with a status: nothing is changed (R610). -/
def Hub.refuse (h : Hub) (s : Nat) : Ans × Hub := ({ status := s }, h)

/-- Refuse with a status and the index of an item. -/
def Hub.refuseAt (h : Hub) (s i : Nat) : Ans × Hub := ({ status := s, fail := i }, h)

/-- Complete with OK. -/
def Hub.ok (h : Hub) (resp : List Nat) : Ans × Hub := ({ resp := resp }, h)

/-- Level that master `m` holds at gate target `t`: 0 none, 1 read, 2 read-write, 3 read-write-command (R574, R575). -/
def Hub.level (h : Hub) (m t : Nat) : Nat :=
  if m = 15 ∨ 16 ≤ m then 0
  else if m = 7 then 3
  else if m = 14 ∧ ¬ h.flag R.secDebug then 0
  else bits (h.get (R.gateWord t)) (2 * m + 1) (2 * m)

/-- Does master `m` hold at least `lvl` at target `t`? -/
def Hub.holds (h : Hub) (m t lvl : Nat) : Bool := decide (lvl ≤ h.level m t)

/-! Gate targets (Table 19-4). -/

def tgtTunnel (tid : Nat) : Nat := tid / 256
def tgtPort (code : Nat) : Nat := 0x0F + code
def tgtStage (n : Nat) : Nat := 0x24 + n
def tgtHead (hd : Nat) : Nat := 0x34 + hd
def tgtDma (g : Nat) : Nat := 0x3C + g
def tgtWin (w : Nat) : Nat := 0x40 + w
def tgtFault : Nat := 0x50
def tgtKeys : Nat := 0x51
def tgtEpMem : Nat := 0x59
def tgtService : Nat := 0x5A

/-- Is master `m` the owner (R611)? -/
def Hub.isOwner (h : Hub) (m : Nat) : Bool := h.flag R.secOwned && (h.get R.secOwner == m)

/-- The owner, or 15 for none. -/
def Hub.owner (h : Hub) : Nat := if h.flag R.secOwned then h.get R.secOwner else 15

/-- The number of the next tick boundary. -/
def Hub.nextBoundary (h : Hub) : Nat := h.tickNum + 1

end Sys2Proof.Machine
end

