-- ==== Sys2Proof/Machine/PlanOps.lean ====
section
/-!
DEFINITION. Re-plan (chapter 9): plan records, staging checks, admission, commit, reversal, and the changes of open
tunnels that TUNNEL.MODIFY and plan commits share.
-/

namespace Sys2Proof.Machine

open Sys2Proof

/-- A plan slot. -/
def Hub.slot (h : Hub) (m : Nat) : PlanSlot := tabGet h.plans.slots (k1 m) {}

/-- Change a plan slot. -/
def Hub.modSlot (h : Hub) (m : Nat) (f : PlanSlot → PlanSlot) : Hub :=
  { h with plans := { h.plans with slots := tabSet h.plans.slots (k1 m) (f (h.slot m)) {} } }

/-! Slot states (Table 9-3). -/

def pEmpty : Nat := 0
def pStaging : Nat := 1
def pChecked : Nat := 2
def pArmed : Nat := 3
def pWindow : Nat := 4
def pReverting : Nat := 5

/-- State of a slot. -/
def Hub.planState (h : Hub) (m : Nat) : Nat := h.get (R.planState m)

/-- Arm tick of a slot. -/
def Hub.armTick (h : Hub) (m : Nat) : Nat := h.get (R.planArmHi m) * 2 ^ 32 + h.get (R.planArmLo m)

/-! Changes of an open tunnel at a boundary (R100, R101, R276, R281). -/

/-- Bellows of one direction after a change: clipped, filled at 0 to 1, emptied at 1 to 0 (R101, R276). -/
def Hub.rebel (h : Hub) (t dir : Nat) (old : BelSet) : Hub :=
  let b := h.bel t dir
  h.modQueue t dir (fun q => { q with tok :=
    if !b.en then 0 else if !old.en then b.burst * 2 ^ 32 else min q.tok (b.burst * 2 ^ 32) })

/-- Policer buckets of one direction as they stand now under the profile in force (R252). -/
def Hub.refillPol (h : Hub) (t dir : Nat) : Hub :=
  let p := h.profileOf t dir
  if p = 0 then h
  else
    let cir := rateBps (h.get (R.profCirE p)) (h.get (R.profCirM p))
    let pir := rateBps (h.get (R.profPirE p)) (h.get (R.profPirM p))
    let cbs := burstBytes (h.get (R.profCbsE p)) (h.get (R.profCbsM p)) * 256
    let pbs := burstBytes (h.get (R.profPbsE p)) (h.get (R.profPbsM p)) * 256
    h.modQueue t dir (fun q => { q with
      tc := min cbs (q.tc + cir * (h.cyc - q.polAt) * 256 / 8000000000)
      tp := min pbs (q.tp + pir * (h.cyc - q.polAt) * 256 / 8000000000), polAt := h.cyc })

/-- Policer buckets of every open user tunnel as they stand now. -/
def Hub.refillPols (h : Hub) : Hub := h.each (h.liveIds.filter isUser) (fun h t => (h.refillPol t 0).refillPol t 1)

/-- Policer buckets of one direction clipped to the profile in force (R101, R254). -/
def Hub.clipPol (h : Hub) (t dir : Nat) : Hub :=
  let p := h.profileOf t dir
  if p = 0 then h
  else h.modQueue t dir (fun q => { q with
    tc := min q.tc (burstBytes (h.get (R.profCbsE p)) (h.get (R.profCbsM p)) * 256)
    tp := min q.tp (burstBytes (h.get (R.profPbsE p)) (h.get (R.profPbsM p)) * 256) })

/-- A queue that passes from the weighted group to a band enters its round robin behind the pointer (R281). -/
def Hub.enterBand (h : Hub) (t dir : Nat) : Hub :=
  let e := h.egressOf t dir
  let k := qkey t dir
  let h := h.modQueue t dir (fun q => { q with active := false })
  if e = 0 then h
  else
    let h := h.each (h.queuesAt e) (fun h j => h.refillQueue (j / 2) (j % 2))
    let others := (h.queuesAt e).filter (fun j => j != k && h.bandOf (j / 2) == h.bandOf t && h.isActive e j)
    h.modEgress e (fun x => { x with behind := (x.behind.filter (fun p => p.1 != k)) ++ [(k, others)] })

/-- New non-role fields of an open tunnel (R100, R101, R281). -/
def Hub.retune (h : Hub) (t : Nat) (d : Desc) : Hub :=
  let h := (((h.refillQueue t 0).refillQueue t 1).refillPol t 0).refillPol t 1
  let f := h.belF t
  let r := h.belR t
  let band := h.bandOf t
  let h := h.setTune t d
  let h := (((h.rebel t 0 f).rebel t 1 r).clipPol t 0).clipPol t 1
  if band = 4 ∧ h.bandOf t ≠ 4 then (h.enterBand t 0).enterBand t 1 else h

/-- Band limiters, guards and policer buckets after settings may have changed since `old` (R101, R273, R282): a limiter
keeps the tokens that it has under its old setting, and a new GUARD is timed anew. -/
def Hub.settleLimiters (h old : Hub) : Hub :=
  let one (e band : Nat) (b : Bucket) : Bucket :=
    let n := h.limiter e band
    let o := old.limiter e band
    if n = o then b
    else if n.en && !o.en then ⟨n.burst * 2 ^ 32, h.cyc⟩
    else if n.en then ⟨min (refilled o b.tok (h.cyc - b.last)) (n.burst * 2 ^ 32), h.cyc⟩
    else b
  let h := h.each (List.range 24) (fun h c =>
    h.modEgress (c + 1) (fun x => { x with
      bl0 := one (c + 1) 0 x.bl0, bl1 := one (c + 1) 1 x.bl1, bl3 := one (c + 1) 3 x.bl3
      guardDue := x.guardDue && h.get (R.schGuard c) == old.get (R.schGuard c) }))
  h.each (h.liveIds.filter isUser) (fun h t => (h.clipPol t 0).clipPol t 1)

/-! Records (Tables 9-1 and 9-2). -/

/-- Word `i` of a record. -/
def rw (r : List Nat) (i : Nat) : Nat := r.getD i 0

def recKind (r : List Nat) : Nat := bits (rw r 0) 31 28
def recTid (r : List Nat) : Nat := bits (rw r 0) 11 0
def recGen (r : List Nat) : Nat := bits (rw r 0) 23 20
def recProf (r : List Nat) : Nat := bits (rw r 0) 7 0
def recMaster (r : List Nat) : Nat := bits (rw r 0) 19 16
def recPort (r : List Nat) : Nat := bits (rw r 0) 4 0

/-- The descriptor that a tunnel record carries. -/
def recDesc (r : List Nat) : Desc := descOfWords (rw r 1) (rw r 2) (rw r 3) (rw r 4) (rw r 5) (rw r 6) (rw r 7)

/-- Is the record about a tunnel? -/
def recTun (r : List Nat) : Bool := recKind r == 1 || recKind r == 2 || recKind r == 3

/-- The item that a record changes: a second record for it replaces the first (R296). -/
def recItem (r : List Nat) : Nat × Nat × Nat :=
  match recKind r with
  | 1 => (1, recTid r, 0)
  | 2 => (1, recTid r, 0)
  | 3 => (1, recTid r, 0)
  | 4 => (4, recProf r, 0)
  | 5 => (4, recProf r, 0)
  | 8 => (8, recMaster r, recPort r)
  | 9 => (9, recPort r, 0)
  | k => (k, 0, 0)

/-- Are the body words from `n` on 0 (R295)? -/
def bodyZeroFrom (r : List Nat) (n : Nat) : Bool := (r.drop n).all (fun w => w == 0)

/-- The nominal raw rate of a port, b/s (R300). -/
def Hub.nominalBps (h : Hub) (c : Nat) : Nat :=
  if isTrunk c then 4 * 8000000000 * 2 ^ h.get (R.laneMaxrate (c - 1)) else 2 * 20000000000

/-- Does a band limiter word hold a legal setting (Tables 3-7 and 8-3)? -/
def limiterLegal (w : Nat) : Bool :=
  let b := belOfWord w
  !b.en || ((b.rateM != 0) && decide (16502 ≤ b.burst))

/-- Is the record well formed on its own (R295, R296, R78 but rule 8, R253, R300, Table 7-8)? Table 8-3 is judged at
the check. -/
def Hub.recForm (h : Hub) (r : List Nat) : Bool :=
  let w := rw r
  (r.length == 10) && match recKind r with
  | 1 => (bits (w 0) 27 12 == 0) && (w 9 == 0) && isUser (recTid r) &&
      descWordsLegal (w 1) (w 2) (w 3) (w 4) (w 5) (w 6) (w 7) (w 8) && classRule (recDesc r) && descRules (recDesc r)
  | 2 => (bits (w 0) 27 24 == 0) && (bits (w 0) 19 12 == 0) && (w 9 == 0) && isUser (recTid r) &&
      descWordsLegal (w 1) (w 2) (w 3) (w 4) (w 5) (w 6) (w 7) (w 8) && classRule (recDesc r) && descRules (recDesc r)
  | 3 => (bits (w 0) 27 24 == 0) && (bits (w 0) 19 12 == 0) && isUser (recTid r) && bodyZeroFrom r 1
  | 4 => (bits (w 0) 27 8 == 0) && (recProf r != 0) && bodyZeroFrom r 5 && (bits (w 2) 7 0 == 0) &&
      (bits (w 3) 31 2 == 0) && (w 4 == 0) &&
      decide (rateBps (bits (w 1) 31 28) (bits (w 1) 27 16) ≤ rateBps (bits (w 1) 15 12) (bits (w 1) 11 0)) &&
      decide (burstBytes (bits (w 2) 31 28) (bits (w 2) 27 20) ≤ 2 ^ 25) &&
      decide (burstBytes (bits (w 2) 19 16) (bits (w 2) 15 8) ≤ 2 ^ 25)
  | 5 => (bits (w 0) 27 8 == 0) && (recProf r != 0) && bodyZeroFrom r 1
  | 8 => (bits (w 0) 27 20 == 0) && (bits (w 0) 15 5 == 0) && decide (recMaster r ≤ 4) &&
      decide (1 ≤ recPort r) && decide (recPort r ≤ 20) && (bits (w 1) 14 0 == 0) && (bits (w 2) 31 31 == 0) &&
      (bits (w 2) 14 0 == 0) && (bits (w 3) 31 31 == 0) && (bits (w 3) 14 0 == 0) && (bits (w 4) 31 18 == 0) && bodyZeroFrom r 5
  | 9 => (bits (w 0) 27 5 == 0) && decide (1 ≤ recPort r) && decide (recPort r ≤ 24) && (bits (w 1) 31 31 == 0) &&
      (bits (w 1) 15 0 == 0) && (bits (w 2) 2 0 == 0) && (bits (w 3) 2 0 == 0) && (bits (w 4) 2 0 == 0) &&
      (bits (w 5) 31 31 == 0) && (bits (w 5) 14 0 == 0) && bodyZeroFrom r 6 &&
      (if isEngine (recPort r) then w 5 == 0
       else decide (rateBps (bits (w 5) 30 27) (bits (w 5) 26 15) * 10 ≤ h.nominalBps (recPort r) * 9))
  | 10 => (bits (w 0) 27 0 == 0) && bodyZeroFrom r 3 && decide (bits (w 1) 31 16 ≤ bits (w 1) 15 0) &&
      (bits (w 2) 31 24 != 0) && (bits (w 2) 23 16 == 0) && (bits (w 2) 14 14 == 0) &&
      decide (10 ≤ bits (w 2) 13 0) && decide (bits (w 2) 13 0 ≤ 10000)
  | _ => false

/-- The fields that a profile, share, egress or buffer record writes, with their new values. -/
def recFields (m : Nat) (r : List Nat) : List (Fld × Nat) :=
  let w := rw r
  match recKind r with
  | 4 =>
    let p := recProf r
    [(R.profCirE p, bits (w 1) 31 28), (R.profCirM p, bits (w 1) 27 16), (R.profPirE p, bits (w 1) 15 12),
     (R.profPirM p, bits (w 1) 11 0), (R.profCbsE p, bits (w 2) 31 28), (R.profCbsM p, bits (w 2) 27 20),
     (R.profPbsE p, bits (w 2) 19 16), (R.profPbsM p, bits (w 2) 15 8), (R.profValid p, 1), (R.profOwn p, m),
     (R.profYDrop p, bits (w 3) 1 1), (R.profRPass p, bits (w 3) 0 0)]
  | 5 => [(R.profValid (recProf r), 0)]
  | 8 =>
    let c := recPort r - 1
    [(R.shareW1 (recMaster r) c, w 1), (R.shareW2 (recMaster r) c, w 2), (R.shareW3 (recMaster r) c, w 3),
     (R.shareW4 (recMaster r) c, w 4)]
  | 9 =>
    let c := recPort r - 1
    [(R.schOvhEnc c, bits (w 1) 30 24), (R.schGuard c, bits (w 1) 23 16), (R.schBl0 c, w 2), (R.schBl1 c, w 3),
     (R.schBl3 c, w 4)] ++ (if recPort r ≤ 20 then [(R.admCap c, bits (w 5) 30 15)] else [])
  | 10 =>
    [(R.bufYelFree, bits (w 1) 31 16), (R.bufRedFree, bits (w 1) 15 0), (R.bufCtWait, bits (w 2) 31 24),
     (R.bufCtEn, bits (w 2) 15 15), (R.bufHoldMax, bits (w 2) 13 0)]
  | _ => []

/-- Does a TUN_CHANGE alter the alternates of the tunnel (R102)? -/
def Hub.altsDiffer (h : Hub) (t : Nat) (d : Desc) : Bool :=
  (d.altEgr != h.get (R.ttAltEgr t)) || (d.altTrk != h.get (R.ttAltTrk t))

/-- The descriptor as a change applies it: the alternates of a tunnel that has failed over stay (Table 9-4). -/
def Hub.heldAlts (h : Hub) (t : Nat) (d : Desc) : Desc :=
  if h.flag (R.ttFailed t) then { d with altEgr := h.get (R.ttAltEgr t), altTrk := h.get (R.ttAltTrk t) } else d

/-- Are the role fields those of the live descriptor (R74, R296)? -/
def Hub.sameRole (h : Hub) (t : Nat) (d : Desc) : Bool :=
  let l := h.desc t
  (d.cls == l.cls) && (d.own == l.own) && (d.bidir == l.bidir) && (d.ingr == l.ingr) && (d.egr == l.egr) &&
  (d.line == l.line) && (d.lp5w == l.lp5w)

/-! The state with records applied, as admission sees it (R304 step 2). -/

/-- One record applied, for judging only: queues are not touched. -/
def Hub.viewRec (h : Hub) (m : Nat) (r : List Nat) : Hub :=
  let t := recTid r
  match recKind r with
  | 1 => ((h.setRole t (recDesc r)).setTune t (recDesc r)).setAll [(R.ttState t, tOpen), (R.ttFailed t, 0)]
  | 2 => if h.tunIs t tOpen then h.setTune t (h.heldAlts t (recDesc r)) else h
  | 3 => if h.tunIs t tOpen then h.set (R.ttState t) tDraining else h
  | _ => h.setAll (recFields m r)

/-- A plan applied, for judging. -/
def Hub.viewPlan (h : Hub) (m : Nat) (l : List (List Nat)) : Hub := h.each l (fun h r => h.viewRec m r)

/-- The TUNNEL commands that await the next boundary applied, for judging (R306). -/
def Hub.viewCmds (h : Hub) : Hub :=
  h.each h.tun.cmds (fun h c => match c with
    | .opening t d _ => ((h.setRole t d).setTune t d).setAll [(R.ttState t, tOpen), (R.ttFailed t, 0)]
    | .modify t d _ => h.setTune t d
    | .closing t ab _ => if h.tunIs t tOpen then h.set (R.ttState t) (if ab then tQuar else tDraining) else h
    | .altEgr t c _ => h.set (R.ttAltEgr t) c)

/-- One item of a reversal image restored, for judging. -/
def Hub.viewUndo (h : Hub) (u : Undo) : Hub :=
  match u with
  | .added t => h.set (R.ttState t) tQuar
  | .changed t d _ => h.setTune t d
  | .removed t _ => h.set (R.ttState t) tOpen
  | .fields l => h.setAll l

/-! Admission (R303, R304). -/

/-- Is master `m` granted a share at the port with code `c` (R298)? -/
def Hub.granted (h : Hub) (m c : Nat) : Bool := bit (h.get (R.shareW1 m (c - 1))) 31

/-- RATE, B1, B3 in b/s and BUF in cells of a share; 0 where it is not granted (R298). -/
def Hub.shRate (h : Hub) (m c : Nat) : Nat :=
  if h.granted m c then (belOfWord (h.get (R.shareW1 m (c - 1)))).rate else 0
def Hub.shB1 (h : Hub) (m c : Nat) : Nat :=
  if h.granted m c then (belOfWord (h.get (R.shareW2 m (c - 1)))).rate else 0
def Hub.shB3 (h : Hub) (m c : Nat) : Nat :=
  if h.granted m c then (belOfWord (h.get (R.shareW3 m (c - 1)))).rate else 0
def Hub.shBuf (h : Hub) (m c : Nat) : Nat := if h.granted m c then bits (h.get (R.shareW4 m (c - 1))) 17 0 else 0

/-- Admission capacity of a port, b/s (R300). -/
def Hub.admBps (h : Hub) (c : Nat) : Nat := rateBps (h.get (R.admCap (c - 1)) / 4096) (h.get (R.admCap (c - 1)) % 4096)

/-- Rate of a band limiter; 0 where it is off. -/
def Hub.bandRate (h : Hub) (c band : Nat) : Nat := let b := h.limiter c band; if b.en then b.rate else 0

/-- Ports at which a direction is served: its primary egress and its alternate (R303). -/
def Hub.servedAt (h : Hub) (t dir p : Nat) : Bool :=
  if dir = 0 then h.get (R.ttEgr t) == p || h.get (R.ttAltEgr t) == p
  else h.get (R.ttIngr t) == p || h.get (R.ttAltTrk t) == p

/-- Open directions of the user tunnels of master `m`. -/
def Hub.dirsOf (h : Hub) (m : Nat) : List (Nat × Nat) :=
  (h.liveIds.filter (fun t => isUser t && h.get (R.ttOwn t) == m)).flatMap
    (fun t => (t, 0) :: (if h.flag (R.ttBidir t) then [(t, 1)] else []))

/-- Reserved rate of master `m` at port `p` over directions whose band satisfies a test (R303). -/
def Hub.rhoAt (h : Hub) (m p : Nat) (f : Nat → Bool) : Nat :=
  ((h.dirsOf m).map (fun x =>
    let b := h.bel x.1 x.2
    if h.tunIs x.1 tOpen && h.servedAt x.1 x.2 p && b.en && f (h.bandOf x.1) then b.rate else 0)).sum

/-- Floors of master `m`'s directions whose primary egress is `p` (R240, R304). -/
def Hub.floorsAt (h : Hub) (m p : Nat) : Nat :=
  ((h.dirsOf m).map (fun x =>
    if (h.tunIs x.1 tOpen || h.tunIs x.1 tDraining) && h.get (if x.2 = 0 then R.ttEgr x.1 else R.ttIngr x.1) == p
    then h.floor x.1 else 0)).sum

/-- One limit of R304: port 1 to 20 (0 for the pool), master where it has one, and which. -/
structure Limit where
  port : Nat
  master : Nat
  kind : Nat
deriving DecidableEq, Repr

/-- The limits of steps 3 and 4 and of R240, in the order of R304. -/
def limits : List Limit :=
  (List.range 20).flatMap (fun c =>
    [⟨c + 1, 0, 0⟩, ⟨c + 1, 0, 1⟩, ⟨c + 1, 0, 2⟩, ⟨c + 1, 0, 3⟩] ++
    (List.range 5).flatMap (fun m => [⟨c + 1, m, 4⟩, ⟨c + 1, m, 5⟩, ⟨c + 1, m, 6⟩, ⟨c + 1, m, 7⟩, ⟨c + 1, m, 8⟩])) ++
  [⟨0, 0, 9⟩]

/-- Does state `s` keep a limit? -/
def Hub.keeps (s : Hub) (x : Limit) : Bool :=
  let p := x.port
  let m := x.master
  let total (f : Nat → Nat) : Nat := ((List.range 5).map f).sum
  match x.kind with
  | 0 => decide (s.bandRate p 0 + s.bandRate p 1 + s.bandRate p 3 ≤ s.admBps p)
  | 1 => decide (total (fun m => s.shRate m p) ≤ s.admBps p)
  | 2 => decide (total (fun m => s.shB1 m p) ≤ s.bandRate p 1)
  | 3 => decide (total (fun m => s.shB3 m p) ≤ s.bandRate p 3)
  | 4 => decide (s.shB1 m p + s.shB3 m p ≤ s.shRate m p)
  | 5 => decide (s.rhoAt m p (fun _ => true) ≤ s.shRate m p)
  | 6 => decide (s.rhoAt m p (fun b => b == 1) ≤ s.shB1 m p)
  | 7 => decide (s.rhoAt m p (fun b => b == 3) ≤ s.shB3 m p)
  | 8 => decide (s.floorsAt m p ≤ s.shBuf m p)
  | _ => decide ((s.liveIds.map s.floorsOf).sum ≤ s.get R.bufQpool / 2)

/-- Status of a broken limit (R304). -/
def Limit.status (x : Limit) : Nat := if x.kind = 4 then stBadArg else stNoResource

/-- Is profile `p` one that a tunnel of master `own` may name (R254)? -/
def Hub.profOk (s : Hub) (own p : Nat) : Bool := p == 0 || (s.flag (R.profValid p) && s.get (R.profOwn p) == own)

/-- Does an OPEN tunnel name profile `p`? -/
def Hub.profNamed (s : Hub) (p : Nat) : Bool :=
  s.liveIds.any (fun t => s.tunIs t tOpen && (s.get (R.ttProfile t) == p || s.get (R.ttRprofile t) == p))

/-- Who may stage the record, and against what it must be current (R297, R302): the status, OK where none applies. -/
def Hub.recHolds (s : Hub) (m : Nat) (r : List Nat) : Nat :=
  let t := recTid r
  match recKind r with
  | 1 =>
    if (recDesc r).own ≠ m then stNotOwner
    else if s.tunIs t tOpen || s.tunIs t tDraining then stBusy else stOk
  | 2 =>
    if (recDesc r).own ≠ m then stNotOwner
    else if s.tunIs t tFree || s.tunIs t tQuar || s.get (R.ttGen t) != recGen r then stStale
    else if s.get (R.ttOwn t) ≠ m then stNotOwner
    else if s.tunIs t tDraining then stBusy
    else if !s.sameRole t (recDesc r) then stBadArg else stOk
  | 3 =>
    if s.tunIs t tFree || s.tunIs t tQuar || s.get (R.ttGen t) != recGen r then stStale
    else if s.get (R.ttOwn t) ≠ m then stNotOwner
    else if s.tunIs t tDraining then stBusy else stOk
  | 4 => if s.flag (R.profValid (recProf r)) && s.get (R.profOwn (recProf r)) != m then stNotOwner else stOk
  | 5 => if s.flag (R.profValid (recProf r)) && s.get (R.profOwn (recProf r)) != m then stNotOwner else stOk
  | _ => if s.isOwner m then stOk else stNotOwner

/-- Does the record install a descriptor whose OWN is not the issuing master (R297)? Judged before its form, as R79 does
for TUNNEL.OPEN. -/
def recForeign (m : Nat) (r : List Nat) : Bool := (recKind r == 1 || recKind r == 2) && ((recDesc r).own != m)

/-- Step 1 of R304 for one record: `bound` is the boundary that the plan names, if any. -/
def Hub.recCheck (s : Hub) (m : Nat) (bound : Option Nat) (r : List Nat) : Nat :=
  let t := recTid r
  let late := match bound with
    | none => false
    | some n => recTun r && s.tunIs t tQuar && decide (n < s.tickNum + s.get (R.runQleft t))
  if late then stBusy
  else if recForeign m r then stNotOwner
  else if !s.recForm r then stBadArg
  else
    let c := s.recHolds m r
    if c ≠ stOk then c
    else match recKind r with
      | 2 => if s.flag (R.ttFailed t) && s.altsDiffer t (recDesc r) then stBusy else stOk
      | 5 => if s.profNamed (recProf r) then stBusy else stOk
      | 9 => if limiterLegal (rw r 2) && limiterLegal (rw r 3) && limiterLegal (rw r 4) then stOk else stBadArg
      | _ => stOk

/-- Step 2a of R304 for one record, in the state with the plan applied. -/
def Hub.recShares (s2 : Hub) (r : List Nat) : Nat :=
  if recKind r = 1 ∨ recKind r = 2 then
    let d := recDesc r
    if !descShares s2.granted d then stNoResource
    else if s2.profOk d.own d.profile && s2.profOk d.own d.rprofile then stOk else stBadArg
  else stOk

/-- The first record of a list with a status other than OK, and its index. -/
def firstBad (f : List Nat → Nat) : List (List Nat) → Nat → Option (Nat × Nat)
  | [], _ => none
  | r :: l, i => if f r ≠ stOk then some (f r, i) else firstBad f l (i + 1)

/-- The first prefix of the records with which a limit is broken: its last record's index. -/
def firstBreak (x : Limit) (m : Nat) : Hub → List (List Nat) → Nat → Nat
  | _, [], _ => 0xFFFF
  | s, r :: l, i => if (s.viewRec m r).keeps x then firstBreak x m (s.viewRec m r) l (i + 1) else i

/-- Admission of a plan of master `m` against state `s` (R304): status and failing record, 0xFFFF for none. -/
def admission (s : Hub) (m : Nat) (bound : Option Nat) (recs : List (List Nat)) : Nat × Nat :=
  match firstBad (s.recCheck m bound) recs 0 with
  | some x => x
  | none =>
    let s2 := s.viewPlan m recs
    match firstBad s2.recShares recs 0 with
    | some x => x
    | none => match limits.find? (fun x => !s2.keeps x) with
      | some x => (x.status, firstBreak x m s recs 0)
      | none => (stOk, 0xFFFF)

/-! Armed plans in the order of R305. -/

/-- Armed masters in order of boundary, and of one boundary the owner before masters 0 to 4. -/
def Hub.armedOrder (h : Hub) (l : List (Nat × Nat)) : List (Nat × Nat) :=
  let rank (x : Nat × Nat) : Nat := x.1 * 8 + (if h.isOwner x.2 then 0 else x.2 + 1)
  l.mergeSort (fun a b => decide (rank a ≤ rank b))

/-- Boundary and master of every armed plan. -/
def Hub.armed (h : Hub) : List (Nat × Nat) :=
  ([0, 1, 2, 3, 4].filter (fun m => h.planState m == pArmed)).map (fun m => (h.armTick m, m))

/-- The state with the waiting TUNNEL commands and every armed plan applied (R305). -/
def Hub.viewArmed (h : Hub) : Hub :=
  h.viewCmds.each (h.armedOrder h.armed) (fun s x => s.viewPlan x.2 (h.slot x.2).recs)

/-- Check plans in order, each against the state before it; those before the first of master `m` are only applied.
The answer names the first that fails: its status, record and master. -/
def checkFrom (h : Hub) (m : Nat) : Hub → Bool → List (Nat × Nat) → Option (Nat × Nat × Nat)
  | _, _, [] => none
  | s, seen, x :: l =>
    let seen := seen || x.2 == m
    let recs := (h.slot x.2).recs
    let a := admission s x.2 (some x.1) recs
    if seen && a.1 != stOk then some (a.1, a.2, x.2)
    else checkFrom h m (s.viewPlan x.2 recs) seen l

/-- The checks of R308 for an arm of master `m` at boundary `n`: its own plan against the state that will stand at
`n`, then each later plan with it included. -/
def Hub.armCheck (h : Hub) (m n : Nat) : Option (Nat × Nat × Nat) :=
  let others := h.armed.filter (fun x => x.2 != m)
  let upTo := h.armedOrder (others.filter (fun x => decide (x.1 ≤ n)))
  let s := h.viewCmds.each upTo (fun s x => s.viewPlan x.2 (h.slot x.2).recs)
  let a := admission s m (some n) (h.slot m).recs
  if a.1 ≠ stOk then some (a.1, a.2, m)
  else
    let later := h.armedOrder (others.filter (fun x => decide (n < x.1)))
    checkFrom h (match later with | x :: _ => x.2 | [] => 0) (s.viewPlan m (h.slot m).recs) false later

/-- Admission of one record for the next boundary, as R306 judges TUNNEL.OPEN and TUNNEL.MODIFY, with every later armed
plan checked again. -/
def Hub.admitOne (h : Hub) (m : Nat) (r : List Nat) : Nat :=
  let a := admission h.viewCmds m (some h.nextBoundary) [r]
  if a.1 ≠ stOk then a.1
  else
    let later := h.armedOrder h.armed
    match checkFrom h (match later with | x :: _ => x.2 | [] => 0) (h.viewCmds.viewRec m r) false later with
    | some _ => stNoResource
    | none => stOk

/-! Commit, reversal and the end of the window. -/

/-- Is tunnel ID or profile of an item named in the slot of master `m`? -/
def Hub.slotNames (h : Hub) (m : Nat) (r : List Nat) : Bool := (h.slot m).recs.any (fun x => recItem x == recItem r)

/-- Is tunnel `t` named in the slot of master `m`? -/
def Hub.slotHas (h : Hub) (m t : Nat) : Bool := (h.slot m).recs.any (fun x => recTun x && recTid x == t)

/-- Show in RSV which slot names each tunnel of a list (Table 3-17). -/
def Hub.settleRsv (h : Hub) (l : List Nat) : Hub :=
  h.each l (fun h t =>
    let s := [0, 1, 2, 3, 4].find? (fun m =>
      (h.planState m == pStaging || h.planState m == pChecked || h.planState m == pArmed) && h.slotHas m t)
    h.set (R.runRsv t) (match s with | some m => m + 1 | none => 0))

/-- Empty a slot with an outcome (Table 9-3). -/
def Hub.emptySlot (h : Hub) (m outcome : Nat) : Hub :=
  let ids := ((h.slot m).recs.filter recTun).map recTid
  let h := h.setAll [(R.planState m, pEmpty), (R.planOutcome m, outcome), (R.planNrec m, 0), (R.planPlanId m, 0)]
  let h := h.each ids (fun h t => h.modTunX t (fun x => { x with window := if x.window = some m then none else x.window }))
  (h.modSlot m (fun _ => {})).settleRsv ids

/-- HCAP of every master from the shares in force (R299). -/
def Hub.hcapFields (h : Hub) : List (Fld × Nat) :=
  [0, 1, 2, 3, 4].map (fun m =>
    (R.hcapCap m, min 0x3FFFF (((List.range 20).map (fun c => h.shBuf m (c + 1))).sum)))

/-- Write fields and keep their former values in the slot's image. -/
def Hub.writeKept (h : Hub) (m : Nat) (l : List (Fld × Nat)) : Hub :=
  let old := l.map (fun p => (p.1, h.get p.1))
  (h.setAll l).modSlot m (fun s => { s with image := .fields old :: s.image })

/-- One tunnel record takes effect at the commit (R310). -/
def Hub.commitTun (h : Hub) (m pid : Nat) (r : List Nat) : Hub :=
  let t := recTid r
  let old := h.get (R.ttPlanId t)
  let keep (h : Hub) (u : Undo) : Hub :=
    (h.modSlot m (fun s => { s with image := u :: s.image })).modTunX t (fun x => { x with window := some m })
  match recKind r with
  | 1 =>
    if h.tunIs t tFree then keep ((h.openTunnel t (recDesc r) pid).installFailed t) (.added t) else h
  | 2 =>
    if h.tunIs t tOpen then
      let d := h.desc t
      let h := if h.flag (R.ttFailed t) && h.altsDiffer t (recDesc r) then h.inc (R.planSkipped m) else h
      let h := (h.retune t (h.heldAlts t (recDesc r))).set (R.ttPlanId t) pid
      keep (h.installFailed t) (.changed t d old)
    else h
  | _ =>
    if h.tunIs t tOpen then keep ((h.drainTunnel t).set (R.ttPlanId t) pid) (.removed t old) else h

/-- The plan of master `m` commits (R310). Settings are written before the tunnels that name them. -/
def Hub.commitPlan (h : Hub) (m : Nat) : Hub :=
  let recs := (h.slot m).recs
  let pid := h.get (R.planPlanId m)
  let tuns := recs.filter recTun
  let cfg := recs.filter (fun r => !recTun r)
  let owners := recs.filter (fun r => recKind r == 8 || recKind r == 9 || recKind r == 10)
  let h := ((h.obsEvent 2 2).set (R.planSkipped m) 0).modSlot m (fun s => { s with image := [] })
  let h := h.writeKept m (cfg.flatMap (recFields m))
  let h := if recs.any (fun r => recKind r == 8) then h.writeKept m h.hcapFields else h
  let h := h.each tuns (fun h r => h.commitTun m pid r)
  let h := if tuns.isEmpty then h else h.writeKept m [(R.planTunId m, pid)]
  let h := if owners.isEmpty then h else h.writeKept m ([0, 1, 2, 3, 4].map (fun s => (R.planCfgId s, pid)))
  let h := h.setAll [(R.planState m, pWindow), (R.planLastId m, pid)]
  h.settleRsv (tuns.map recTid)

/-- One item of a reversal image is restored (R312); a tunnel that its owner's close has ended since stays closed. -/
def Hub.restore (h : Hub) (u : Undo) : Hub :=
  match u with
  | .added t => if h.tunIs t tOpen then h.quarantine t else h
  | .changed t d pid =>
    if h.tunIs t tOpen then ((h.retune t (h.heldAlts t d)).set (R.ttPlanId t) pid).installFailed t else h
  | .removed t pid =>
    if h.tunIs t tDraining then (h.setAll [(R.ttState t, tOpen), (R.runDrained t, 0), (R.ttPlanId t, pid)]).installFailed t
    else h
  | .fields l => h.setAll l

/-- The reversal of a plan (R312). -/
def Hub.revertPlan (h : Hub) (m : Nat) : Hub :=
  ((h.obsEvent 2 2).each (h.slot m).image (fun h u => h.restore u)).emptySlot m 2

/-- The plan actions of boundary `n` (R310, R312, R313): windows that have passed close, reversals apply, then every
plan armed for `n` commits in the order of R305. -/
def Hub.planBoundary (h : Hub) (n : Nat) : Hub :=
  let was := h
  let h := h.each [0, 1, 2, 3, 4] (fun h m =>
    if h.planState m = pReverting then h.refillPols.revertPlan m
    else if h.planState m = pWindow then h.emptySlot m 1
    else h)
  let due := h.armedOrder (h.armed.filter (fun x => x.1 == n))
  let h := h.when (!due.isEmpty) Hub.refillPols
  let h := h.each due (fun h x => h.commitPlan x.2)
  h.settleLimiters was

/-! PLAN commands (Table 21-9). -/

/-- Is a plan ID in use by a slot or in force (R293)? -/
def Hub.planIdUsed (h : Hub) (v : Nat) : Bool :=
  [0, 1, 2, 3, 4].any (fun m => h.get (R.planPlanId m) == v || h.get (R.planTunId m) == v || h.get (R.planCfgId m) == v)

/-- The next free plan ID from `v` on: at most 11 values are in use. -/
def Hub.freePlanId (h : Hub) : Nat → Nat → Nat
  | 0, v => v
  | n + 1, v => if v = 0 ∨ h.planIdUsed v then h.freePlanId n ((v + 1) % 65536) else v

def Hub.planBegin (h : Hub) (m : Nat) : Ans × Hub :=
  if 4 < m then h.refuse stDenied
  else if h.planState m ≠ pEmpty then h.refuse stBusy
  else
    let v := h.freePlanId 16 h.plans.counter
    let h := { h with plans := { h.plans with counter := (v + 1) % 65536 } }
    let h := h.setAll [(R.planState m, pStaging), (R.planPlanId m, v), (R.planNrec m, 0)]
    (h.modSlot m (fun _ => {})).ok [v]

/-- Does the slot of master `m` hold the plan named (R292, R294)? -/
def Hub.planNamed (h : Hub) (m pid : Nat) : Nat :=
  if 4 < m then stDenied else if pid = 0 ∨ h.get (R.planPlanId m) ≠ pid then stStale else stOk

/-- A record on its own at staging (R302). -/
def Hub.stageCheck (h : Hub) (m : Nat) (r : List Nat) : Nat :=
  if recForeign m r then stNotOwner
  else if !h.recForm r then stBadArg
  else if recTun r && !h.holds m (tgtTunnel (recTid r)) 3 then stDenied
  else
    let c := h.recHolds m r
    if c ≠ stOk then c
    else
      let t := recTid r
      if recTun r && h.tun.cmds.any (fun c => match c with
          | .opening x _ _ => x == t | .modify x _ _ => x == t | .closing x _ _ => x == t | .altEgr x _ _ => x == t) then stBusy
      else if (recTun r || recKind r == 4 || recKind r == 5) && [0, 1, 2, 3, 4].any (fun s => s != m && h.slotNames s r) then
        stInPlan
      else stOk

/-- Add a record, in place of one for the same item (R296). -/
def addRec (l : List (List Nat)) (r : List Nat) : List (List Nat) :=
  if l.any (fun x => recItem x == recItem r) then l.map (fun x => if recItem x == recItem r then r else x) else l ++ [r]

/-- The named generation of a record refused with STALE is counted where it is not the current one (R98). -/
def Hub.countStale (h : Hub) (r : List Nat) : Hub :=
  if (recKind r == 2 || recKind r == 3) && h.get (R.ttGen (recTid r)) != recGen r then h.inc (R.runStaleCnt (recTid r)) else h

def Hub.planStage (h : Hub) (m pid : Nat) (recs : List (List Nat)) : Ans × Hub :=
  let c := h.planNamed m pid
  if c ≠ stOk then h.refuse c
  else if recs.isEmpty then h.refuse stZeroLen
  else if 25 < recs.length then h.refuse stBadArg
  else if h.planState m ≠ pStaging ∧ h.planState m ≠ pChecked then h.refuse stBusy
  else match firstBad (h.stageCheck m) recs 0 with
    | some (s, i) => (if s = stStale then h.countStale (recs.getD i []) else h).refuseAt s i
    | none =>
      let l := recs.foldl addRec (h.slot m).recs
      if 1024 < l.length then h.refuse stNoResource
      else
        let h := h.modSlot m (fun s => { s with recs := l })
        let h := h.setAll [(R.planState m, pStaging), (R.planNrec m, l.length)]
        (h.settleRsv ((recs.filter recTun).map recTid)).ok [l.length]

/-- Note the last failure of a check, arm or abort (Table 9-6). -/
def Hub.planFail (h : Hub) (m code i pid : Nat) : Ans × Hub :=
  ({ status := code, fail := i },
   h.setAll [(R.planFailCode m, code), (R.planFailRec m, i), (R.planFailPlan m, pid)])

def Hub.planCheck (h : Hub) (m pid : Nat) : Ans × Hub :=
  let c := h.planNamed m pid
  if c ≠ stOk then h.refuse c
  else if h.planState m ≠ pStaging ∧ h.planState m ≠ pChecked then h.refuse stBusy
  else
    let a := admission h.viewArmed m none (h.slot m).recs
    if a.1 = stOk then (h.set (R.planState m) pChecked).ok []
    else (h.set (R.planState m) pStaging).planFail m a.1 a.2 0

/-- The generations that the TUN_ADDs of an armed plan will receive, eight to a word (R309). -/
def genWords (l : List Nat) : List Nat :=
  (List.range (ceilDiv l.length 8)).map (fun k =>
    ((List.range 8).map (fun j => l.getD (8 * k + j) 0 * 16 ^ j)).sum)

def Hub.planArm (h : Hub) (m pid n : Nat) : Ans × Hub :=
  let c := h.planNamed m pid
  if c ≠ stOk then h.refuse c
  else if h.planState m ≠ pChecked then h.refuse stBusy
  else if n < h.tickNum + 2 then h.refuse stTooLate
  else if h.tickNum + 65536 < n then h.refuse stBadArg
  else if [0, 1, 2, 3, 4].any (fun s => h.planState s == pWindow || h.planState s == pReverting) then h.refuse stInPlan
  else match h.armCheck m n with
    | some (code, i, who) =>
      let p := h.get (R.planPlanId who)
      let r := h.planFail m code i p
      ({ r.1 with resp := [p * 2 ^ 16] }, r.2)
    | none =>
      let gens := ((h.slot m).recs.filter (fun r => recKind r == 1)).map (fun r => (h.get (R.ttGen (recTid r)) + 1) % 16)
      let h := h.setAll [(R.planState m, pArmed), (R.planArmLo m, n % 2 ^ 32), (R.planArmHi m, n / 2 ^ 32)]
      h.ok (gens.length :: genWords gens)

/-- The state that the reversals requested so far, and that of master `m`, would produce (R312). -/
def Hub.viewReversals (h : Hub) (m : Nat) : Hub :=
  h.viewCmds.each ([0, 1, 2, 3, 4].filter (fun s => h.planState s == pReverting || s == m))
    (fun x s => x.each (h.slot s).image (fun x u => x.viewUndo u))

def Hub.planAbort (h : Hub) (m pid : Nat) : Ans × Hub :=
  if 4 < m then h.refuse stDenied
  else
    let st := h.planState m
    if st = pEmpty then
      if pid ≠ h.get (R.planLastId m) then h.refuse stStale
      else if h.get (R.planOutcome m) = 1 ∨ h.get (R.planOutcome m) = 2 then h.refuse stTooLate
      else h.refuse stBusy
    else if h.get (R.planPlanId m) ≠ pid then h.refuse stStale
    else if st = pStaging ∨ st = pChecked ∨ st = pArmed then (h.emptySlot m 3).ok [st]
    else if st = pReverting then h.ok [st]
    else if [0, 1, 2, 3, 4].any (fun s => s != m && h.planState s == pArmed) then h.refuse stInPlan
    else
      let a := admission (h.viewReversals m) m none []
      if a.1 = stOk then (h.set (R.planState m) pReverting).ok [st]
      else h.planFail m a.1 0xFFFF 0

/-- The words of a plan slot (Table 9-6). -/
def Hub.slotWords (h : Hub) (m : Nat) : List Nat :=
  [h.planState m * 2 ^ 29 + h.get (R.planOutcome m) * 2 ^ 26 + h.get (R.planNrec m) * 2 ^ 15,
   h.get (R.planPlanId m) * 2 ^ 16 + h.get (R.planTunId m), h.get (R.planCfgId m) * 2 ^ 16 + h.get (R.planLastId m),
   h.get (R.planArmLo m), h.get (R.planSkipped m) * 2 ^ 16 + h.get (R.planArmHi m),
   h.get (R.planFailRec m) * 2 ^ 16 + h.get (R.planFailCode m), h.get (R.planFailPlan m), 0]

def Hub.planStatus (h : Hub) (m : Nat) (shares : Bool) (who : Nat) : Ans × Hub :=
  if 4 < m then h.refuse stDenied
  else if shares && decide (4 < who) then h.refuse stBadArg
  else if shares && who != m && !h.isOwner m then h.refuse stNotOwner
  else
    let sh := if shares then
        (List.range 20).flatMap (fun c => [h.get (R.shareW1 who c), h.get (R.shareW2 who c), h.get (R.shareW3 who c),
          h.get (R.shareW4 who c)]) ++ (List.range 20).map (fun c => h.get (R.admCap c) * 2 ^ 15)
      else []
    h.ok (h.slotWords m ++ sh)

/-! Resets (Table 9-5) and the loss of the owner (R336). -/

/-- The slot of master `m` at a host tunnel-layer reset or a warm reset. -/
def Hub.planReset (h : Hub) (m : Nat) : Hub :=
  let st := h.planState m
  let h := if st = pStaging ∨ st = pChecked ∨ st = pArmed then h.emptySlot m 4
    else if st = pWindow ∨ st = pReverting then h.emptySlot m 1 else h
  h.set (R.planTunId m) 0

/-- The plan slot of an owner whose ownership ends by takeover (R336). -/
def Hub.planTakeover (h : Hub) (m : Nat) : Hub :=
  if (h.planState m == pStaging || h.planState m == pChecked) &&
      (h.slot m).recs.any (fun r => recKind r == 8 || recKind r == 9 || recKind r == 10) then h.emptySlot m 3
  else h

end Sys2Proof.Machine
end

