-- ==== Sys2Proof/Machine/KeyOps.lean ====
section
/-!
DEFINITION. The key store (chapter 19): slots, derivation, the default keys, proofs, and zeroisation.
-/

namespace Sys2Proof.Machine

open Sys2Proof

/-! Slot states, levels and domains (Table 19-6, R561). -/

def ksFree : Nat := 0
def ksValid : Nat := 1
def ksZero : Nat := 2
def domLink : Nat := 1
def domOwner : Nat := 2
def domService : Nat := 3
def domPatch : Nat := 4
def domNode : Nat := 5

/-- A 32-bit little-endian word (R672). -/
def le32 (v : Nat) : List Byte := leBytes 4 v

/-- An identity of 8 bytes, least significant first (R672). -/
def le64 (v : Nat) : List Byte := leBytes 8 v

/-- Key material of a slot. -/
def Hub.keyMat (h : Hub) (s : Nat) : KeyTerm := tabGet h.sec.mat (k1 s) .zero

/-- Write key material. -/
def Hub.setKeyMat (h : Hub) (s : Nat) (k : KeyTerm) : Hub :=
  { h with sec := { h.sec with mat := tabSet h.sec.mat (k1 s) k .zero } }

/-- Is a slot VALID? -/
def Hub.keyValid (h : Hub) (s : Nat) : Bool := h.get (R.keyState s) == ksValid

/-- The VALID slot that holds a domain, level, purpose and instance. -/
def Hub.findKey (h : Hub) (dom level purpose inst : Nat) : Option Nat :=
  (List.range 128).find? (fun s => h.keyValid s && h.get (R.keyDomain s) == dom && h.get (R.keyLevel s) == level &&
    h.get (R.keyPurpose s) == purpose && h.get (R.keyInst s) == inst)

/-- Slots of K_h, K_n, K_own, K_svc and K_pat (Table 19-2). -/
def Hub.hostKey (h : Hub) (m : Nat) : Option Nat := h.findKey domLink 3 1 m
def Hub.nodeKey (h : Hub) (n : Nat) : Option Nat := h.findKey domNode 3 1 n
def Hub.ownKey (h : Hub) : Option Nat := h.findKey domOwner 2 1 0
def Hub.svcKey (h : Hub) : Option Nat := h.findKey domService 2 1 0
def Hub.patKey (h : Hub) : Option Nat := h.findKey domPatch 2 1 0

/-- Domain, purpose and instance keys (R561). -/
def domainKey (root : KeyTerm) (d : Nat) : KeyTerm := .kdf root "HBDM" (le32 d)
def purposeKey (d : KeyTerm) (p v : Nat) : KeyTerm := .kdf d "HBPK" (le32 p ++ le32 v)
def instanceKey (p : KeyTerm) (i v : Nat) : KeyTerm := .kdf p "HBIK" (le32 i ++ le32 v)

/-- The lowest FREE slot of 6 to 127 (R564). -/
def Hub.freeSlot (h : Hub) : Option Nat := (List.range 128).find? (fun s => decide (6 ≤ s) && h.get (R.keyState s) == ksFree)

/-- Fill a slot. -/
def Hub.fillSlot (h : Hub) (s level dom parent purpose inst kint ver : Nat) (dflt : Bool) (k : KeyTerm) : Hub :=
  (h.setAll [(R.keyState s, ksValid), (R.keyLevel s, level), (R.keyDomain s, dom), (R.keyParent s, parent),
    (R.keyPurpose s, purpose), (R.keyInst s, inst), (R.keyKint s, kint), (R.keyDefault s, b2n dflt),
    (R.keyVer s, ver)]).setKeyMat s k

/-- Fused version in force of a domain (R565). -/
def Hub.fusedVer (h : Hub) (d : Nat) : Nat := tabGet h.sec.fv (k1 d) 0

/-- One default key (R562): its slot shows the domain key as parent, since no slot holds the purpose key between. -/
def Hub.defaultKey (h : Hub) (root : KeyTerm) (dom level inst : Nat) : Hub :=
  let v := h.fusedVer dom
  let p := purposeKey (domainKey root dom) 1 v
  if (h.findKey dom level 1 inst).isSome then h
  else match h.freeSlot with
    | none => h
    | some s => h.fillSlot s level dom dom 1 inst 12 v true (if level = 3 then instanceKey p inst v else p)

/-- Load a root and derive the domain and default keys (R562). -/
def Hub.loadRoot (h : Hub) (root : KeyTerm) : Hub :=
  let h := h.fillSlot 0 0 0 0 0 0 12 0 false root
  let h := h.each [1, 2, 3, 4, 5] (fun h d => h.fillSlot d 1 d 0 0 0 12 0 false (domainKey root d))
  let h := ((h.defaultKey root domOwner 2 0).defaultKey root domService 2 0).defaultKey root domPatch 2 0
  h.each [0, 1, 2, 3] (fun h i => h.defaultKey root domLink 3 i)

/-- Is slot `s` descended from slot `a` (R567)? Parents stand above their children, at most three levels. -/
def Hub.descends (h : Hub) (a s : Nat) : Bool :=
  let p := h.get (R.keyParent s)
  let used := h.get (R.keyState s) != ksFree && decide (1 ≤ s)
  used && (p == a || (h.get (R.keyLevel p) != 0 && (h.get (R.keyParent p) == a || (h.get (R.keyLevel (h.get (R.keyParent p))) != 0 &&
    h.get (R.keyParent (h.get (R.keyParent p))) == a))))

/-- ZEROISING slots are overwritten and become FREE (R567). -/
def Hub.zeroise (h : Hub) : Hub :=
  h.each (List.range 128) (fun h s =>
    if h.get (R.keyState s) = ksZero then
      (h.resetAll [R.keyState s, R.keyLevel s, R.keyDomain s, R.keyParent s, R.keyPurpose s, R.keyInst s, R.keyKint s,
        R.keyDefault s, R.keyVer s]).setKeyMat s .zero
    else h)

/-- Within one tick of debug being enabled the test root is loaded and the default keys are derived from it; the source
TESTROOT is set (R568). -/
def Hub.testRoot (h : Hub) : Hub :=
  if h.sec.testDue then
    let h := ({ h with sec := { h.sec with testDue := false } }).loadRoot .test
    (h.set R.secTestroot 1).raise srcTestRoot 0
  else h

/-- The two words of a slot (Table 19-6). -/
def Hub.slotStatus (h : Hub) (s : Nat) : List Nat :=
  [h.get (R.keyState s) * 2 ^ 30 + h.get (R.keyLevel s) * 2 ^ 28 + h.get (R.keyDomain s) * 2 ^ 25 +
     h.get (R.keyParent s) * 2 ^ 18 + h.get (R.keyPurpose s) * 2 ^ 14 + h.get (R.keyInst s) * 2 ^ 9 +
     h.get (R.keyKint s) * 16 + h.get (R.keyDefault s) * 8,
   h.get (R.keyVer s)]

/-- Draw a 128-bit nonce from the random source (R165); its bytes in travelling order. -/
def Hub.nonce (h : Hub) : List Byte × Hub :=
  (leBytes 16 (Config.random h.sec.draws), { h with sec := { h.sec with draws := h.sec.draws + 1 } })

/-- AES-256-CMAC under a key of the tree, its 16 bytes in the order in which they travel (R672; assumption 10). -/
def cmacBytes (k : KeyTerm) (m : List Byte) : List Byte := aesCmac (keyBytes k) m

/-- SEC_OWN (Table 19-6). -/
def Hub.secOwn (h : Hub) : Nat :=
  h.get R.secOwned * 2 ^ 31 + h.get R.secOwner * 2 ^ 27 + h.get R.secDeputy * 2 ^ 23 + h.get R.secTestroot * 2 ^ 22 +
  h.get R.secDebug * 2 ^ 21 + h.get R.secDepHold * 32

/-- The hub's proof to a far end of a link (R165, R360). -/
def Hub.hubProof (h : Hub) (k : KeyTerm) (nPeer nHub : List Byte) (peer port : Nat) : List Byte :=
  cmacBytes k (labelBytes "HUB" ++ nPeer ++ nHub ++ le64 h.sec.hubId ++ le64 peer ++ le32 port)

/-- The proof expected of a far end: label "HST" of a host, "NOD" of a node. -/
def Hub.peerProof (h : Hub) (k : KeyTerm) (lab : String) (nPeer nHub : List Byte) (peer port : Nat) : List Byte :=
  cmacBytes k (labelBytes lab ++ nHub ++ nPeer ++ le64 h.sec.hubId ++ le64 peer ++ le32 port)

/-- The hold-off after the `n`th bad proof in a row, ns: 100 ms, doubling up to 12.8 s (R166, R572). -/
def holdOff (n : Nat) : Nat := 100000000 * 2 ^ (min n 8 - 1)

/-- The tick number of the first epoch switch after now, for an interval of 2^KINT ticks (R160). -/
def Hub.firstSwitch (h : Hub) (kint : Nat) : Nat := (h.tickNum / 2 ^ kint + 1) * 2 ^ kint

end Sys2Proof.Machine
end

