-- ==== Sys2Proof/Machine/LineOps.lean ====
section
/-!
DEFINITION. Line ports (chapter 11): link states, the attach exchange with a node, fault causes, and frames that a line
cannot carry. Line ports are named by their number 0 to 15; their port code is 5 more.
-/

namespace Sys2Proof.Machine

open Sys2Proof

/-- A line port beside its registers. -/
def Hub.line (h : Hub) (n : Nat) : LineX := tabGet h.lines (k1 n) {}

/-- Change a line port. -/
def Hub.modLine (h : Hub) (n : Nat) (f : LineX → LineX) : Hub :=
  { h with lines := tabSet h.lines (k1 n) (f (h.line n)) {} }

/-- Send a management packet on the control credit class (R359). -/
def Hub.sendMgt (h : Hub) (n : Nat) (mtype : Nat) (body : List Byte) : Hub :=
  let f : Frame := { tid := 0, gen := 0, cls := 0, payload := le32 (mtype * 2 ^ 24 + 2 ^ 16) ++ body,
                     nb := some { op := 7, ni := false, status := 0, tag := 0, rlen := 0, addr := 0 } }
  h.sendMsg (n + 5) f (qkey (4096 + n + 5) 0)

/-- Send HELLO and await NODEINFO (Table 11-10). -/
def Hub.sendHello (h : Hub) (n : Nat) : Hub :=
  let enc := (h.line n).encAsked
  let w3 := h.get (R.lpNbWin n) * 2 ^ 10 + h.get R.secTestroot * 2 ^ 9 + b2n enc * 2 ^ 8 + (n + 5)
  (h.sendMgt n 1 (le64 h.sec.hubId ++ le32 w3)).modLine n (fun x => { x with asked := 1, helloDue := false })

/-- Refuse the node with a reason (Table 11-10). -/
def Hub.sendRefuse (h : Hub) (n reason : Nat) : Hub :=
  (((h.sendMgt n 6 (le32 reason)).inc (R.lpAuthRefuse n)).lineCause n cAuth).modLine n (fun x => { x with asked := 0 })

/-- The registers latched from NODEINFO read 0 in DOWN. -/
def Hub.clearNode (h : Hub) (n : Nat) : Hub :=
  h.setAll [(R.lpNodeIdLo n, 0), (R.lpNodeIdHi n, 0), (R.lpVendor n, 0), (R.lpModel n, 0), (R.lpNodeCap n, 0), (R.lpNodeNb n, 0)]

/-- Queue a node record: 1 up, 2 down, 3 failed (R362). -/
def Hub.nodeRecord (h : Hub) (n evt : Nat) : Hub :=
  let r := [0x11 * 2 ^ 24 + evt * 2 ^ 20 + (n + 5) * 2 ^ 15, h.get (R.lpNodeIdLo n), h.get (R.lpNodeIdHi n),
    h.get (R.lpVendor n) * 2 ^ 16 + h.get (R.lpModel n)]
  { h with bridge := { h.bridge with nodeRecs := h.bridge.nodeRecs ++ [(n + 5, r)] } }

/-- Lane training of a line starts (Table 11-5). -/
def Hub.lineTrain (h : Hub) (n : Nat) : Hub :=
  (h.startTraining (n + 5)).modLine n (fun x => { x with waiting := false, departed := false, asked := 0 })

/-- Is line port `n` held down by a sticky source that contains it (R545, R548)? -/
def Hub.lineHeld (h : Hub) (n : Nat) : Bool :=
  [srcLpFail n, srcLpWarn n].any (fun i => h.contained i && h.sticky i) || h.replayHeld (n + 5)

/-- Start training where R349 allows it. -/
def Hub.lineTryTrain (h : Hub) (n : Nat) : Hub :=
  let x := h.line n
  if h.lineState n = lDown ∧ x.cond ∧ h.flag (R.lpEn n) ∧ ¬ x.waiting ∧ ¬ x.departed ∧ ¬ h.lineHeld n then
    h.lineTrain n
  else h

/-- No further piece of a transaction is issued: it fails at the first of those left, unless a piece has failed
before. -/
def StorTx.cut (t : StorTx) (status : Nat) : StorTx :=
  match t.fail, t.todo with
  | none, p :: _ => { t with todo := [], fail := some (status, p.1) }
  | _, _ => { t with todo := [] }

/-- The outcomes of hub requests that end at once with STATUS 3 (R365): they come back to the bridge. -/
def Hub.endRequests (h : Hub) (n : Nat) : Hub :=
  let c := n + 5
  let b := h.bridge
  let ended : List PieceDone := (h.line n).out.map (fun r => { num := r.num, off := r.off, status := 3 })
  let b : Bridge := { b with
    done := b.done ++ ended
    nodeHolds := b.nodeHolds.filter (fun e => e.port != c)
    txs := b.txs.map (fun t => if t.line = c then t.cut 3 else t) }
  ({ h with bridge := b }).modLine n (fun x => { x with out := [] })

/-- Does a held packet wait for the node-bus queue of the line port with code `c`, toward its node? -/
def QFrame.nbFor (q : QFrame) (c : Nat) : Bool := q.f.nb.isSome && q.ingress == codeE2 && q.dest == c

/-- Packets toward the node of the port with code `c` that have not started, in order. -/
def Hub.nbWaiting (h : Hub) (c : Nat) : List QFrame :=
  (h.queue (4096 + c) 0).frames ++ (h.held codeE2 2).filter (fun q => q.nbFor c)

/-- Keep of them those that satisfy a test. -/
def Hub.nbKeep (h : Hub) (c : Nat) (keep : QFrame → Bool) : Hub :=
  let h := h.modQueue (4096 + c) 0 (fun q => { q with frames := q.frames.filter keep })
  (h.keepHeld codeE2 2 ((h.held codeE2 2).filter (fun q => !q.nbFor c || keep q))).settleFree

/-- Node-bus traffic where a line port leaves UP (R365): requests end, and the packets of both queues are discarded. -/
def Hub.nbDiscard (h : Hub) (n : Nat) : Hub :=
  let c := n + 5
  let h : Hub := { h with bridge := { h.bridge with inbox := h.bridge.inbox.filter (fun x => x.1 != c) } }
  let h := h.each [0, 2] (fun h k => h.setHeld c k ((h.held c k).filter (fun q => q.f.nb.isNone)))
  (((h.endRequests n).nbKeep c (fun _ => false)).modQueue (4096 + c) 1 (fun q => { q with frames := [] })).settleFree

/-- What a transition out of UP does to frames and node-bus traffic (R365). -/
def Hub.lineLeave (h : Hub) (n evt : Nat) : Hub :=
  let c := n + 5
  let l := (h.link c).area
  let h := ((h.add (R.lpLdownDrop n) l.length).modLink c (fun x => { x with area := [] })).each l (fun h x => h.fenceLost x.f)
  (h.nbDiscard n).nodeRecord n evt

/-- A line port leaves its link layer: lanes off, session keys and counts gone. -/
def Hub.lineOff (h : Hub) (n : Nat) : Hub :=
  let c := n + 5
  let h := (h.lanesOff c).dropSession c
  let h := h.linkOff c
  let h := h.modStk c (fun s => { s with queue := [] })
  (h.set (R.lpEnc n) 0).modLine n (fun x => { x with asked := 0, helloDue := false })

/-- To DOWN from any other state (Table 11-5). -/
def Hub.lineDown (h : Hub) (n : Nat) : Hub :=
  if h.lineState n = lDown then h
  else
    let h := if h.lineState n = lUp then h.lineLeave n 2 else h.endRequests n
    ((h.set (R.lpState n) lDown).lineOff n).clearNode n

/-- To FAILED: the port is contained (Table 11-5). -/
def Hub.lineFail (h : Hub) (n : Nat) : Hub :=
  let st := h.lineState n
  if st = lUp ∨ st = lLinkup then
    let h := h.each [0, 1] (fun h l => h.squelch (n + 5) l)
    let h := if st = lUp then h.lineLeave n 3 else h.endRequests n
    ((h.set (R.lpState n) lFailed).lineOff n).modLine n (fun x => { x with waiting := true })
  else h

/-- The attach condition begins (R349). With LRTR_DLY 0 no retrain wait runs, and a new attachment trains. -/
def Hub.lineCondOn (h : Hub) (n : Nat) : Hub :=
  if (h.line n).cond then h
  else (h.modLine n (fun x => { x with
    cond := true, departed := false, waiting := x.waiting && h.get (R.lpLrtrDly n) != 0 })).lineTryTrain n

/-- The attach condition ends (R349, Table 11-5). -/
def Hub.lineCondOff (h : Hub) (n : Nat) : Hub :=
  (h.lineDown n).modLine n (fun x => { x with cond := false, departed := false })

/-- Training of a line ends in DOWN (Table 11-5). -/
def Hub.lineTrainFail (h : Hub) (n : Nat) : Hub :=
  (((h.set (R.lpState n) lDown).lineOff n).modLine n (fun x => { x with waiting := true })).lineCause n cTrn

/-- The credit shares that wait for LINKUP take effect (Table 11-6). -/
def Hub.applyLineShare (h : Hub) (n : Nat) : Hub :=
  match (h.link (n + 5)).sharePend with
  | none => h
  | some (a, b, d, e) =>
    (h.setAll [(R.lpCtl n, a), (R.lpIso n, b), (R.lpRtx n, d), (R.lpBlk n, e)]).modLink (n + 5)
      (fun l => { l with sharePend := none })

/-- A line enters LINKUP after training (Table 11-5, R361). HELLO waits for the firmware after a warm reset (Table 11-13). -/
def Hub.lineLinkup (h : Hub) (n : Nat) : Hub :=
  let c := n + 5
  let h := ((h.set (R.lpState n) lLinkup).applyLineShare n).linkZero c
  let h := h.each (List.range 8) (fun h _ => h.sendProbe c)
  let h := (h.strikeLinkUp c).modLine n (fun x => { x with unanswered := 0, encAsked := h.flag (R.lpEncEn n) })
  if h.flag R.psFwrdy then h.sendHello n else h.modLine n (fun x => { x with helloDue := true })

/-- Acceptance of a node: ACCEPT, and UP (Table 11-5). -/
def Hub.acceptNode (h : Hub) (n : Nat) (key : Option (KeyTerm × Nat)) : Hub :=
  let c := n + 5
  let body := match key with
    | none => leBytes 12 0
    | some (_, s) =>
      let k := h.get (R.keyKint s)
      le32 (k * 2 ^ 8) ++ leBytes 8 (h.firstSwitch k % 2 ^ 48)
  let h := h.sendMgt n 5 body
  let h := match key with
    | none => h.set (R.lpEnc n) 0
    | some x => (h.dropSession c).modLink c (fun l => { l with sess := some x })
  let h := h.setAll [(R.lpState n, lUp), (R.lpEnc n, b2n key.isSome), (R.lpEpoch n, 0)]
  (h.modLine n (fun x => { x with asked := 0, unanswered := 0 })).nodeRecord n 1

/-- Fields of a NODEINFO (Table 11-10): identity, VENDOR and MODEL, words 4 and 5, nonce. -/
structure NodeInfo where
  id : Nat
  vm : Nat
  cap : Nat
  nb : Nat
  nonce : List Byte
deriving DecidableEq, Repr

/-- A NODEINFO as its words spell it, where it is well formed (R359). -/
def nodeInfoOf (payload : List Byte) : Option NodeInfo :=
  let w := bytesWords payload
  let g (i : Nat) : Nat := w.getD i 0
  let ok := payload.length == 40 && bits (g 0) 31 24 == 2 && bits (g 0) 23 16 == 1 && bits (g 0) 15 0 == 0 &&
    bits (g 5) 31 28 != 0 && decide (16 ≤ bits (g 5) 27 21) && decide (bits (g 5) 27 21 ≤ 64) && bits (g 5) 20 0 == 0
  if ok then some ⟨g 1 + g 2 * 2 ^ 32, g 3, g 4, g 5, payload.drop 24⟩ else none

/-- Latch the node registers. -/
def Hub.latchNode (h : Hub) (n : Nat) (x : NodeInfo) : Hub :=
  h.setAll [(R.lpNodeIdLo n, x.id), (R.lpNodeIdHi n, x.id / 2 ^ 32), (R.lpVendor n, x.vm / 2 ^ 16), (R.lpModel n, x.vm),
    (R.lpNodeCap n, x.cap), (R.lpNodeNb n, x.nb)]

/-- A NODEINFO arrives in LINKUP (Table 11-5, R360). -/
def Hub.nodeInfo (h : Hub) (n : Nat) (payload : List Byte) : Hub :=
  let c := n + 5
  if h.lineState n ≠ lLinkup then h
  else match nodeInfoOf payload with
    | none => h.sendRefuse n 5
    | some x =>
      let enc := (h.line n).encAsked
      if !enc then (h.latchNode n x).acceptNode n none
      else if h.now < (h.link c).holdUntil then h.sendRefuse n 4
      else match h.nodeKey n with
        | none => h.sendRefuse n 1
        | some s =>
          let h := h.latchNode n x
          let (nh, h) := h.nonce
          let h := h.modLink c (fun l => { l with peerId := x.id, nPeer := x.nonce, nHub := nh })
          let h := h.sendMgt n 3 (nh ++ h.hubProof (h.keyMat s) x.nonce nh x.id c)
          h.modLine n (fun l => { l with asked := 2, unanswered := 0 })

/-- A PROOF arrives in LINKUP (Table 11-5, R360, R166). -/
def Hub.nodeProof (h : Hub) (n : Nat) (payload : List Byte) : Hub :=
  let c := n + 5
  let l := h.link c
  if h.lineState n ≠ lLinkup ∨ (h.line n).asked ≠ 2 then h
  else if payload.length ≠ 20 ∨ leWord (payload.take 4) ≠ 4 * 2 ^ 24 + 2 ^ 16 then h.sendRefuse n 5
  else match h.nodeKey n with
    | none => h.sendRefuse n 1
    | some s =>
      if payload.drop 4 = h.peerProof (h.keyMat s) "NOD" l.nPeer l.nHub l.peerId c then
        (h.set (R.lpHoldn n) 0).acceptNode n (some (h.keyMat s, s))
      else
        let k := min 127 (h.get (R.lpHoldn n) + 1)
        let h := (h.set (R.lpHoldn n) k).modLink c (fun l => { l with holdUntil := h.now + holdOff k })
        h.sendRefuse n 2

/-- No answer to HELLO or CHALLENGE for 10 ms (Table 11-5). -/
def Hub.helloAgain (h : Hub) (n : Nat) : Hub :=
  if h.lineState n ≠ lLinkup ∨ (h.line n).asked = 0 then h
  else
    let k := (h.line n).unanswered + 1
    let h := (h.modLine n (fun x => { x with unanswered := k })).inc (R.lpHelloRpt n)
    let h := if k % 3 = 0 then h.lineCause n cNodeSilent else h
    h.sendHello n

/-- A departed node's port goes to DOWN once no request to it is outstanding, and does not train again by itself (Tables
11-5 and 11-13). -/
def Hub.departEnd (h : Hub) (n : Nat) : Hub :=
  let x := h.line n
  if h.lineState n = lUp ∧ x.departed ∧ x.out.isEmpty then
    let h := h.each [0, 1] (fun h l => h.squelch (n + 5) l)
    (h.lineDown n).modLine n (fun x => { x with departed := true })
  else h

/-- Is a queued packet a request of the hub's that has not started at the pins, and which `r` awaits? -/
def NbReq.unsent (r : NbReq) (q : List QFrame) : Bool :=
  q.any (fun e => match e.f.nb with | some x => x.op == r.op && x.tag == r.tag | none => false)

/-- DEPART (Tables 11-5 and 11-13): no new hub request is sent, those not started end with STATUS 3, and the rest are
awaited. -/
def Hub.nodeDepart (h : Hub) (n : Nat) : Hub :=
  if h.lineState n ≠ lUp then h
  else
    let c := n + 5
    let q := h.nbWaiting c
    let gone := (h.line n).out.filter (fun r => r.unsent q)
    let ended : List PieceDone := gone.map (fun r => { num := r.num, off := r.off, status := 3 })
    let b := h.bridge
    let b : Bridge := { b with
      done := b.done ++ ended
      txs := b.txs.map (fun t => if t.line = c then t.cut 3 else t) }
    let h := ({ h with bridge := b }).modLine n (fun x => { x with
      departed := true, out := x.out.filter (fun r => !r.unsent q) })
    let keep (e : QFrame) : Bool := match e.f.nb with | some x => x.op != 1 && x.op != 2 | none => true
    (h.nbKeep c keep).departEnd n

/-- Session keys of a line are discarded and HELLO is sent again (Table 11-5 warm reset, Table 19-3). -/
def Hub.lineUnattach (h : Hub) (n : Nat) (hello : Bool) : Hub :=
  let st := h.lineState n
  if st = lUp ∨ st = lLinkup then
    let h := if st = lUp then h.nbDiscard n else h
    let h := (h.dropSession (n + 5)).setAll [(R.lpState n, lLinkup), (R.lpEnc n, 0)]
    let h := h.modLine n (fun x => { x with asked := 0, unanswered := 0, helloDue := !hello, encAsked := h.flag (R.lpEncEn n) })
    if hello then h.sendHello n else h
  else h

/-- The retrain wait ends (Table 11-5); with LRTR_DLY 0 it never does. -/
def Hub.lineWaitOver (h : Hub) (n : Nat) : Hub :=
  if !(h.line n).waiting || h.get (R.lpLrtrDly n) == 0 then h
  else
    let h := h.modLine n (fun x => { x with waiting := false })
    if h.lineState n = lFailed then (if (h.line n).cond ∧ ¬ h.lineHeld n then h.lineTrain n else h)
    else h.lineTryTrain n

/-- A lane fault on a line port (Table 11-3): width degrade, or WIDTH below MINW. -/
def Hub.lineLaneFault (h : Hub) (n l : Nat) : Hub :=
  let c := n + 5
  if (h.port c).phase ≠ 4 ∨ h.laneRole c l ≠ 2 then h
  else
    let h := h.inc (fFaults c l)
    let ok := h.minw c ≤ h.get (fNlane c) - 1
    let h := h.degrade c l (fun h => h.lineCause n cWidth)
    if ok then h.lineCause n cDegrade else h

/-! Frames that the line cannot carry (R364, R365). -/

/-- Does the node accept a frame of this class and length (R364)? -/
def Hub.nodeTakes (h : Hub) (n : Nat) (f : Frame) : Bool :=
  let cap := h.get (R.lpNodeCap n)
  f.nb.isSome || (bit cap (f.cls + 17) && decide (f.len ≤ bits cap 13 0))

/-- Discard the heads that the line cannot carry, and count them. -/
def Hub.discardLine (h : Hub) (e : Nat) : Hub :=
  if !isLine e then h
  else
    let n := e - 5
    let up := h.portUp e
    h.each (h.queuesAt e) (fun h k =>
      let q := h.queue (k / 2) (k % 2)
      let rest := q.frames.dropWhile (fun f => !up || !h.nodeTakes n f.f)
      let gone := q.frames.take (q.frames.length - rest.length)
      if gone.isEmpty then h
      else
        let h := ((h.modQueue (k / 2) (k % 2) (fun q => { q with frames := rest })).fenceLostAll gone).settleFree
        h.add (if up then R.lpNodeDrop n else R.lpLdownDrop n) gone.length)

end Sys2Proof.Machine
end

