-- ==== Sys2Proof/Machine/Mem.lean ====
section
/-!
DEFINITION. Memory: the LP5 devices by chip address (R433) and the 64 KiB of USB endpoint memory (R477), in one list
of cells. An unlisted cell reads 0 (assumption 14). Endpoint memory offset `e` has the key `epBase + e`, which no LP5
address reaches; the placement is the model's own.
-/

namespace Sys2Proof.Machine

open Sys2Proof

/-- Memory as a list of cells. -/
abbrev Memory := List Host.Cell

/-- First chip address of LP5 (R433, Table 1-12). -/
def lp5Base : Nat := 2 ^ 34

/-- Key of endpoint memory offset 0. -/
def epBase : Nat := 2 ^ 35

/-- One byte. -/
def memByte : Memory → Nat → Byte
  | [], _ => 0
  | (k, v) :: t, a => if k = a then v else memByte t a

/-- Enter a byte in its place; a byte that is 0 is not listed. -/
def memSet : Memory → Nat → Byte → Memory
  | [], a, b => if b = 0 then [] else [(a, b)]
  | (k, v) :: t, a, b =>
    if a < k then (if b = 0 then (k, v) :: t else (a, b) :: (k, v) :: t)
    else if a = k then (if b = 0 then t else (a, b) :: t)
    else (k, v) :: memSet t a b

/-- Write bytes at ascending addresses. -/
def memWrite : Memory → Nat → List Byte → Memory
  | m, _, [] => m
  | m, a, b :: l => memWrite (memSet m a b) (a + 1) l

/-- Read bytes at ascending addresses. -/
def memRead (m : Memory) (a : Nat) : Nat → List Byte
  | 0 => []
  | n + 1 => memByte m a :: memRead m (a + 1) n

/-- Canonical form: addresses strictly rising from `lo` on, and no byte 0. -/
def Memory.wfFrom : Nat → Memory → Bool
  | _, [] => true
  | lo, (k, v) :: t => decide (lo ≤ k) && decide (v ≠ 0) && Memory.wfFrom (k + 1) t

/-- Canonical form. -/
def Memory.wf (m : Memory) : Bool := Memory.wfFrom 0 m

/-- Endpoint memory as its 65,536 cells. -/
def isEp (a : Nat) : Bool := decide (epBase ≤ a)

end Sys2Proof.Machine
end

