-- ==== Sys2Proof/Machine/Lp5Ops.lean ====
section
/-!
DEFINITION. The LP5 controller (chapter 14): windows, checks, the queue of accepted accesses, sleep by stated
tolerance, and node-bus answers, which wait for it.
-/

namespace Sys2Proof.Machine

open Sys2Proof

/-! Clients of the controller (R437). -/

def clDma : Nat := 8
def clBridge : Nat := 9
def clCore : Nat := 10

/-- Master IDs of Table 1-11. -/
def masHead : Nat := 12
def masNode : Nat := 13

/-- Does an access of `len` bytes at LP5 offset `off` lie wholly within enabled window `w` (R434)? -/
def Hub.winHas (h : Hub) (w off len : Nat) : Bool :=
  h.flag (R.winEn w) && decide (h.get (R.winBase w) * 2 ^ 20 ≤ off) &&
  decide (off + len ≤ (h.get (R.winBase w) + h.get (R.winSize w)) * 2 ^ 20)

/-- May master `m` reach window `w`: read, or read-write for a write (R435)? -/
def Hub.winGrants (h : Hub) (m w : Nat) (wr : Bool) : Bool := h.holds m (tgtWin w) (if wr then 2 else 1)

/-- The further check of the access's client: WMASK of a head, BRG_NWIN of a node's port (R435). -/
def Hub.clientMask (h : Hub) (a : Lp5Acc) (w : Nat) : Bool :=
  if a.client < 8 then bit (h.get (R.rhWmask a.client)) w
  else if a.client = clBridge ∧ a.node ≠ 0 then bit (h.get (R.nwinWmask (a.node - 5))) w
  else true

/-- Is the access within the capacity and allowed by some window (R433, R435)? -/
def Hub.lp5Allowed (h : Hub) (a : Lp5Acc) : Bool :=
  decide (lp5Base ≤ a.addr) && decide (a.addr - lp5Base + a.len ≤ h.get R.lp5CapMib * 2 ^ 20) &&
  (List.range 16).any (fun w => h.winHas w (a.addr - lp5Base) a.len && h.winGrants a.master w a.wr && h.clientMask a w)

/-- Does the controller refuse every access with a target error: no rate trained (R431), or contained (Table 18-1)? -/
def Hub.lp5Down (h : Hub) : Bool := h.lp5.failed || h.contained srcLp5Train || h.contained srcLp5Ecc

/-- What becomes of an access at issue: 0 accepted, 1 refused, 2 target error (R431, R435). -/
def Hub.lp5Verdict (h : Hub) (a : Lp5Acc) : Nat := if h.lp5Down then 2 else if h.lp5Allowed a then 0 else 1

/-- An access is issued (R435). One that is not accepted has no effect; its client hears of it. -/
def Hub.lp5Issue (h : Hub) (a : Lp5Acc) : Hub :=
  let v := h.lp5Verdict a
  if v = 0 then { h with lp5 := { h.lp5 with queue := h.lp5.queue ++ [a] } }
  else
    let h := if v = 1 then h.inc R.lp5Refused else h
    if a.client = clBridge ∧ a.node = 0 then
      { h with bridge := { h.bridge with done := h.bridge.done ++ [{ num := a.num, off := a.off, status := v }] } }
    else if a.client = clCore then h.emit (.words "LP5_CORE" v [])
    else h

/-! Node-bus packets toward a node (R353, R358). -/

/-- A packet joins the node-bus queue of the line port with code `c`, or waits at E2 where the system reserve has no room. -/
def Hub.nbSend (h : Hub) (c : Nat) (f : Frame) : Hub :=
  h.judge (4096 + c) 0 { f := f, cells := f.cells, ingress := codeE2, ccls := 2, dest := c, written := f.cells }

/-- The hub's answer to a node's RD (4) or WR (5): it echoes NBTAG and NI (R356). -/
def Hub.nbAnswer (h : Hub) (c op status tag : Nat) (data : List Byte) : Hub :=
  h.nbSend c { tid := 0, gen := 0, cls := 0, payload := data,
               nb := some { op := op, ni := true, status := status, tag := tag, rlen := 0, addr := 0 } }

/-! Service. -/

/-- Is a head urgent (R413)? Its tolerance is below twice the exit latency of the state in force. -/
def Hub.headUrgent (h : Hub) (n : Nat) : Bool := decide (h.get (R.rhLtol n) * 100 < 2 * h.get R.lp5Exit * 10)

/-- Is an access urgent (R437)? -/
def Hub.accUrgent (h : Hub) (a : Lp5Acc) : Bool := decide (a.client < 8) && h.headUrgent a.client

/-- What a write's acceptance tells its client: a piece is complete, a node's WR is answered (R372, R386). -/
def Hub.lp5Accepted (h : Hub) (a : Lp5Acc) : Hub :=
  if a.client = clBridge ∧ a.node = 0 then
    { h with bridge := { h.bridge with done := h.bridge.done ++ [{ num := a.num, off := a.off, status := 0 }] } }
  else if a.client = clBridge ∧ a.num = 1 then h.nbAnswer a.node 5 0 a.off []
  else if a.client = clCore then h.emit (.words "LP5_CORE" 0 [])
  else h

/-- One access is served: a write takes effect, a read takes its data with it (R436). -/
def State.lp5Serve1 (s : State) (a : Lp5Acc) : State :=
  let h := s.hub
  let h := if h.accUrgent a then h.add R.lp5UrgGrant (ceilDiv a.len 64) else h
  let h := { h with lp5 := { h.lp5 with idleSince := h.now } }
  if a.wr then { s with hub := h.lp5Accepted a, mem := memWrite s.mem a.addr a.data }
  else { s with hub := { h with lp5 := { h.lp5 with reads := h.lp5.reads ++ [{ a with data := memRead s.mem a.addr a.len }] } } }

/-- The queue is served while the controller is ACTIVE: urgent requests first, the rest in order (R437, assumption 15). -/
def State.lp5Serve (s : State) : State :=
  let h := s.hub
  if h.get R.lp5Lpstate ≠ 0 ∨ h.lp5.exiting then s
  else
    let q := h.lp5.queue
    let s := { s with hub := { h with lp5 := { h.lp5 with queue := [] } } }
    (q.filter h.accUrgent ++ q.filter (fun a => !h.accUrgent a)).foldl State.lp5Serve1 s

/-! Sleep by stated tolerance (R438 to R443). -/

/-- Exit latency of a state, ns (Table 14-2). -/
def lp5ExitNs (st : Nat) : Nat := match st with | 0 => 1000 | 1 => 1100 | 2 => 1500 | 3 => 5000 | _ => 21000

/-- Idle time before entry, ns (Table 14-2). -/
def lp5IdleNs (st : Nat) : Nat := match st with | 0 => 0 | 1 => 200 | 2 => 1000 | 3 => 10000 | _ => 50000

/-- Has a client an access queued or in flight? -/
def Hub.lp5Has (h : Hub) (p : Lp5Acc → Bool) : Bool := h.lp5.queue.any p || h.lp5.reads.any p

/-- Has any client an access queued or in flight? -/
def Hub.lp5Busy (h : Hub) : Bool := h.lp5Has (fun _ => true) || h.lp5.dmaWait

/-- What each client states (R439): heads, then the DMA, bridge and core ports. A head that relocks its PLL counts as 0
(R33). -/
def Hub.lp5States (h : Hub) : List Nat :=
  (List.range 8).map (fun n => if (tabGet h.media.heads (k1 n) {}).relock then 0 else h.get (R.rhLtol n)) ++
  [if h.lp5.dmaWait || h.lp5Has (fun a => a.client == clDma) then 0 else 0xFFFF,
   if h.lp5Has (fun a => a.client == clBridge) then 0 else 0xFFFF,
   if h.lp5Has (fun a => a.client == clCore) then 0 else 0xFFFF]

/-- The smallest tolerance, 100 ns; 0xFFFF for no demand (R439). -/
def Hub.lp5Min (h : Hub) : Nat := h.lp5States.foldl min 0xFFFF

/-- Does the smallest tolerance allow state `st` (R440)? -/
def Hub.tolAllows (h : Hub) (st : Nat) : Bool :=
  h.lp5Min == 0xFFFF || decide (lp5ExitNs st + 2000 ≤ h.lp5Min * 100)

/-- MINTOL follows the statements (Table 14-11). -/
def Hub.settleTol (h : Hub) : Hub := h.set R.lp5Mintol h.lp5Min

/-- Enter a state: EXIT follows, and the entry is counted (Table 14-11). -/
def Hub.lp5Enter (h : Hub) (st : Nat) : Hub :=
  (h.setAll [(R.lp5Lpstate, st), (R.lp5Exit, lp5ExitNs st / 10)]).inc (if 3 ≤ st then R.lp5SrEnt else R.lp5PdEnt)

/-- The deepest state that R440 allows now, if it is deeper than the present one. -/
def Hub.lp5Deepest (h : Hub) : Option Nat :=
  if h.lp5Busy || h.lp5.exiting then none
  else [4, 3, 2, 1].find? (fun st => decide (h.get R.lp5Lpstate < st) &&
    decide (lp5IdleNs st ≤ h.now - h.lp5.idleSince) && h.tolAllows st)

/-- Must the controller begin to exit (R441)? -/
def Hub.lp5MustExit (h : Hub) : Bool :=
  h.get R.lp5Lpstate != 0 && !h.lp5.exiting && (h.lp5Busy || !h.tolAllows (h.get R.lp5Lpstate))

/-- ACTIVE again (R441, R443). -/
def Hub.lp5Awake (h : Hub) : Hub :=
  let h := h.setAll [(R.lp5Lpstate, 0), (R.lp5Exit, lp5ExitNs 0 / 10)]
  { h with lp5 := { h.lp5 with exiting := false, idleSince := h.now } }

/-- Geometry of a window once the changes that wait for the boundary have been made: EN, BASE, SIZE (R434). -/
def Hub.winGeo (h : Hub) (w : Nat) : Bool × Nat × Nat :=
  match h.lp5.winPend.find? (fun x => x.1 == w) with
  | some x => x.2
  | none => (h.flag (R.winEn w), h.get (R.winBase w), h.get (R.winSize w))

/-- Is a new geometry of window `w` legal (R434)? -/
def Hub.winLegal (h : Hub) (w : Nat) (en : Bool) (base size : Nat) : Bool :=
  !en || (size != 0 && decide (base + size ≤ h.get R.lp5CapMib) &&
    (List.range 16).all (fun x =>
      let g := h.winGeo x
      x == w || !g.1 || decide (g.2.1 + g.2.2 ≤ base) || decide (base + size ≤ g.2.1)))

/-- A new geometry waits for the boundary; a later one for the same window replaces it. -/
def Hub.winSet (h : Hub) (w : Nat) (en : Bool) (base size : Nat) : Hub :=
  { h with lp5 := { h.lp5 with winPend := h.lp5.winPend.filter (fun x => x.1 != w) ++ [(w, en, base, size)] } }

/-- Window geometry takes effect (R434). -/
def Hub.winBoundary (h : Hub) : Hub :=
  let l := h.lp5.winPend
  ({ h with lp5 := { h.lp5 with winPend := [] } }).each l (fun h x =>
    h.setAll [(R.winEn x.1, b2n x.2.1), (R.winBase x.1, x.2.2.1), (R.winSize x.1, x.2.2.2)])

end Sys2Proof.Machine
end

