-- ==== Sys2Proof/Machine/BridgeOps.lean ====
section
/-!
DEFINITION. The bridge (chapter 12): target accesses in pieces, reads by retry, posted writes and late errors, accesses
that nodes start, and telemetry mirrors.
-/

namespace Sys2Proof.Machine

open Sys2Proof

/-! What E2 has delivered (R370, R389). -/

/-- The bridge takes the oldest frame that E2 has delivered of those that satisfy `p`, where it also satisfies `q`. -/
def Hub.bridgeTake (h : Hub) (p : Nat × Frame → Bool) (q : Frame → Bool) (g : Hub → Frame → Hub) : Hub :=
  match h.bridge.inbox.find? p with
  | some x => if q x.2 then g { h with bridge := { h.bridge with inbox := h.bridge.inbox.erase x } } x.2 else h
  | none => h

/-- Frames of storage tunnels, telemetry frames, and node-bus packets of the line port with code `c`. -/
def ofStorage (x : Nat × Frame) : Bool := x.2.nb.isNone && x.2.cls != 6
def ofTelemetry (x : Nat × Frame) : Bool := x.2.nb.isNone && x.2.cls == 6
def ofNode (c : Nat) (x : Nat × Frame) : Bool := x.2.nb.isSome && x.1 == c

/-! Pieces (R372). -/

/-- The pieces of `left` bytes from offset `off` on, where a piece ends at each multiple of `step` of `base` plus the
offset. `fuel` bounds their number. -/
def piecesFrom (base step : Nat) : Nat → Nat → Nat → List (Nat × Nat)
  | 0, _, _ => []
  | fuel + 1, off, left =>
    if left = 0 then []
    else
      let n := min left (step - (base + off) % step)
      (off, n) :: piecesFrom base step fuel (off + n) (left - n)

/-- The pieces of an access of `len` bytes at `base` (R372): at most one more than `len / step + 1`. -/
def pieces (base step len : Nat) : List (Nat × Nat) := piecesFrom base step (len / step + 2) 0 len

/-! Frames from the bridge. -/

/-- The bridge sends a frame on the reverse direction of a tunnel, through E2 (R370). -/
def Hub.bridgeSend (h : Hub) (f : Frame) : Hub :=
  let (c, h) := h.police f.tid 1 f.stored
  (h.countColour f.tid 1 c).judge f.tid 1
    { f := f, cells := f.cells, ingress := codeE2, ccls := cclsOf f.cls, written := f.cells, colour := c }

/-- A response to a request of a storage tunnel (R143, R375). -/
def Hub.respond (h : Hub) (t gen op tag status : Nat) (retry : Bool) (data : List Byte) : Hub :=
  h.bridgeSend { tid := t, gen := gen, cls := h.get (R.ttClass t), op := op, rev := true, tag := tag, status := status,
                 retry := retry, payload := data }

/-! Checks before a target access (Table 12-1). -/

/-- Gate target of a storage tunnel: its LP5 window, or the line port that it names. -/
def Hub.storTarget (h : Hub) (t : Nat) : Nat :=
  if h.get (R.ttLp5w t) ≠ 0 then tgtWin (h.get (R.ttLp5w t) - 1) else tgtPort (h.get (R.ttLine t))

/-- Checks 1 and 2: the status if one fails. -/
def Hub.storGate (h : Hub) (t rlen lvl : Nat) : Nat :=
  if h.get (R.ttMaxlen t) < rlen then 1
  else if !h.holds (h.get (R.ttOwn t)) (h.storTarget t) lvl then 1
  else 0

/-- Checks 3 and 4: the status if one fails. Where no node is known (ADDRBITS reads 0), check 3 has no limit to judge by. -/
def Hub.storReach (h : Hub) (t addr n : Nat) : Nat :=
  let w := h.get (R.ttLp5w t)
  let c := h.get (R.ttLine t)
  if w ≠ 0 then (if addr + n ≤ h.get (R.winSize (w - 1)) * 2 ^ 20 then 0 else 1)
  else if bits (h.get (R.lpNodeNb (c - 5))) 27 21 ≠ 0 ∧ 2 ^ bits (h.get (R.lpNodeNb (c - 5))) 27 21 < addr + n then 1
  else if h.lineState (c - 5) ≠ lUp ∨ (h.line (c - 5)).departed then 3
  else 0

/-! Late-error records (R381 to R383). -/

/-- A record goes into log `g`: the oldest is overwritten when it is full (R383). -/
def Hub.logLate (h : Hub) (g : Nat) (r : Record) : Hub :=
  let e := h.get (R.blogNext g)
  let full := h.get (R.blogCount g) == 32
  let h := { h with bridge := { h.bridge with logs := tabSet h.bridge.logs (k2 g e) r [] } }
  let h := h.set (R.blogNext g) ((e + 1) % 32)
  let h := if full then h.inc (R.blogOvfCnt g) else h.set (R.blogCount g) (h.get (R.blogCount g) + 1)
  h.raise srcLate g

/-- Late-error records that wait for host `m`. -/
def Hub.lateWaiting (h : Hub) (m : Nat) : Nat :=
  (h.tun.records.filter (fun r => r.1 == m && r.2.getD 0 0 / 2 ^ 24 == 0x12)).length

/-- Build the record of a failed posted WRITE and queue or log it (R380, R382): with those that wait, the host is sent at
most LREC_MAX in a tick. -/
def Hub.lateError (h : Hub) (t : StorTx) (nstat foff : Nat) : Hub :=
  let h := (h.obsEvent 5 2).inc R.brgLateRec
  let sent := tabGet h.bridge.sent (k1 t.own) 0 + h.lateWaiting t.own
  let rec_ (ovf : Bool) : Record :=
    [0x12 * 2 ^ 24 + nstat * 2 ^ 20 + t.gen * 2 ^ 16 + t.tid,
     t.tag * 2 ^ 16 + t.line * 2 ^ 11 + t.lp5w * 2 ^ 6 + b2n ovf * 2 ^ 5,
     t.len * 2 ^ 18 + t.seq] ++ twoWords t.addr ++ twoWords h.now ++ [t.cookie * 2 ^ 16 + foff]
  if h.canNotify t.own && decide (sent < h.get R.brgLrecMax) then
    let b := h.bridge
    let h := h.addRecord t.own (rec_ (b.ovf.contains t.own))
    let b : Bridge := { b with ovf := b.ovf.filter (fun m => m != t.own) }
    { h with bridge := b }
  else
    let h := h.logLate (if t.line = 0 then 16 else t.line - 5) (rec_ false)
    if t.own < 4 ∧ ¬ h.bridge.ovf.contains t.own then { h with bridge := { h.bridge with ovf := h.bridge.ovf ++ [t.own] } }
    else h

/-! The hold table (R375 to R378). -/

/-- Slots and cells of the hold table that master `m` uses (R376). -/
def Hub.holdUse (h : Hub) (m : Nat) : Nat × Nat :=
  let l := h.bridge.holds.filter (fun e => e.own == m)
  (l.length, (l.map (fun e => ceilDiv e.rlen 256)).sum)

/-- Is this the hold entry of a READ? -/
def HoldEntry.isOf (e : HoldEntry) (f : Frame) : Bool := e.tid == f.tid && e.gen == f.gen && e.tag == f.tag

/-- Free hold entries. -/
def Hub.dropHolds (h : Hub) (p : HoldEntry → Bool) : Hub :=
  { h with bridge := { h.bridge with holds := h.bridge.holds.filter (fun e => !p e) } }

/-! Issue of pieces (R372, R374, R389). -/

/-- Change a transaction. -/
def Hub.modTx (h : Hub) (num : Nat) (f : StorTx → StorTx) : Hub :=
  let b := h.bridge
  let b : Bridge := { b with txs := b.txs.map (fun t => if t.num = num then f t else t) }
  { h with bridge := b }

/-- A new transaction takes its place behind those before it. -/
def Hub.addTx (h : Hub) (t : StorTx) : Hub :=
  { h with bridge := { h.bridge with txs := h.bridge.txs ++ [t], nextNum := h.bridge.nextNum + 1 } }

/-- Must a transaction wait for one before it: of its tunnel or its line port with pieces to issue, or, for a READ, an
earlier WRITE of its tunnel that is not complete (Table 12-4)? -/
def StorTx.behind (t x : StorTx) : Bool :=
  (x.tid == t.tid && (!x.todo.isEmpty || (!t.wr && x.wr))) || (t.line != 0 && x.line == t.line && !x.todo.isEmpty)

/-- Issue the next piece toward LP5. -/
def Hub.issueLp5 (h : Hub) (t : StorTx) (p : Nat × Nat) : Hub :=
  let a := lp5Base + h.get (R.winBase (t.lp5w - 1)) * 2 ^ 20 + t.addr + p.1
  h.lp5Issue { client := clBridge, master := t.own, wr := t.wr, addr := a, len := p.2,
               data := if t.wr then (t.data.drop p.1).take p.2 else [], num := t.num, off := p.1 }

/-- May the port with number `n` issue another request of this kind (R356)? -/
def Hub.nbFree (h : Hub) (n : Nat) (wr : Bool) : Bool :=
  let out := (h.line n).out
  let win := min (h.get (R.lpNbWin n)) (bits (h.get (R.lpNodeNb n)) 31 28)
  if wr then out.all (fun r => r.op == 2) && decide (out.length < win) else out.isEmpty

/-- Send the next piece toward a node (R353, R354). -/
def Hub.issueNode (h : Hub) (t : StorTx) (p : Nat × Nat) : Hub :=
  let n := t.line - 5
  let x := h.line n
  let op := if t.wr then 2 else 1
  let data := if t.wr then (t.data.drop p.1).take p.2 else []
  let r : NbReq := { op := op, tag := x.nextTag, addr := t.addr + p.1, len := p.2, data := data, num := t.num, off := p.1 }
  let h := h.modLine n (fun x => { x with out := x.out ++ [r], nextTag := (x.nextTag + 1) % 256 })
  (h.inc (R.lpNbReqTx n)).nbSend t.line
    { tid := 0, gen := 0, cls := 0, payload := data,
      nb := some { op := op, ni := false, status := 0, tag := x.nextTag, rlen := if t.wr then 0 else p.2, addr := t.addr + p.1 } }

/-- Issue the pieces of one transaction that may go now, in ascending order. -/
def Hub.issuePieces (h : Hub) (num : Nat) : List (Nat × Nat) → Hub
  | [] => h
  | p :: rest =>
    match h.bridge.txs.find? (fun t => t.num == num) with
    | none => h
    | some t =>
      if t.line ≠ 0 ∧ ¬ h.nbFree (t.line - 5) t.wr then h
      else
        let h := h.modTx num (fun t => { t with todo := rest, out := t.out + 1 })
        let h := if t.line = 0 then h.issueLp5 t p else h.issueNode t p
        h.issuePieces num rest

/-- Every transaction that need not wait issues what it may, oldest first. -/
def Hub.issueAll (h : Hub) : List Nat → List Nat → Hub
  | _, [] => h
  | seen, n :: rest =>
    match h.bridge.txs.find? (fun t => t.num == n) with
    | none => h.issueAll seen rest
    | some t =>
      let wait := h.bridge.txs.any (fun x => seen.contains x.num && t.behind x)
      let h := if wait then h else h.issuePieces n t.todo
      h.issueAll (n :: seen) rest

/-- Status of a failed request for a host (R373): a node status of 4 is reported as 2. -/
def hostStatus (s : Nat) : Nat := if s = 4 then 2 else s

/-- A transaction ends: the hold entry takes a READ's outcome, a WRITE is answered or reported (R373, R377, R380,
R384). -/
def Hub.finishTx (h : Hub) (t : StorTx) : Hub :=
  let b := h.bridge
  let b : Bridge := { b with txs := b.txs.filter (fun x => x.num != t.num) }
  let h := { h with bridge := b }
  if t.wr then
    let h := match t.fail, t.posted with
      | some (s, off), true => h.lateError t s off
      | some (s, _), false => h.respond t.tid t.gen 4 t.tag (hostStatus s) false []
      | none, true => h
      | none, false => h.respond t.tid t.gen 4 t.tag 0 false []
    if t.posted then h.fenceDone t.tid (262144 + t.seq) else h
  else
    let b : Bridge := { b with holds := b.holds.map (fun e => if e.num = t.num then
      (match t.fail with
       | some (s, _) => { e with state := 2, status := hostStatus s }
       | none => { e with state := 1, data := t.data }) else e) }
    { h with bridge := b }

/-- Transactions with nothing left to issue or to await end. -/
def Hub.finishAll (h : Hub) : Hub :=
  h.each (h.bridge.txs.filter (fun t => t.todo.isEmpty && t.out == 0)) (fun h t => h.finishTx t)

/-- The bridge at rest: transactions end, and pieces go out where they may. -/
def Hub.bridgePump (h : Hub) : Hub :=
  let h := h.finishAll
  h.issueAll [] (h.bridge.txs.map (fun t => t.num))

/-- One piece has come back (R372, R373). -/
def Hub.pieceDone (h : Hub) (p : PieceDone) : Hub :=
  let h := h.modTx p.num (fun t =>
    let t := { t with out := t.out - 1 }
    if t.fail.isSome then t
    else if p.status ≠ 0 then { t with fail := some (p.status, p.off), todo := [] }
    else if t.wr then t
    else { t with data := t.data ++ p.data })
  h.bridgePump

/-! READ and WRITE (R370, R371, R375, R380). -/

/-- The transaction of a frame. -/
def Hub.txOf (h : Hub) (f : Frame) (wr : Bool) (n : Nat) : StorTx :=
  let w := h.get (R.ttLp5w f.tid)
  let c := h.get (R.ttLine f.tid)
  { num := h.bridge.nextNum, tid := f.tid, gen := f.gen, tag := f.tag, seq := f.seq, own := h.get (R.ttOwn f.tid),
    cookie := h.get (R.ttCookie f.tid), wr := wr, posted := wr && f.posted, addr := f.addr, len := n,
    line := if w = 0 then c else 0, lp5w := w, data := if wr then f.payload else [],
    todo := if w = 0 then pieces f.addr 256 n else pieces (h.get (R.winBase (w - 1)) * 2 ^ 20 + f.addr) 2048 n }

/-- Is the frame's tunnel one that the bridge still serves with the frame's generation? -/
def Hub.storLive (h : Hub) (f : Frame) : Bool :=
  f.gen == h.get (R.ttGen f.tid) && !h.tunIs f.tid tFree && (h.get (R.ttClass f.tid) == 3)

/-- A retry response (R375). -/
def Hub.retryRead (h : Hub) (f : Frame) : Hub := (h.inc R.brgRetryTx).respond f.tid f.gen 3 f.tag 0 true []

/-- A READ for which no hold entry stands (Table 12-2, "None"). -/
def Hub.newRead (h : Hub) (f : Frame) : Hub :=
  let t := h.txOf f false f.rlen
  let u := h.holdUse t.own
  if u.1 < 256 ∧ u.2 + ceilDiv f.rlen 256 ≤ 2048 then
    let e : HoldEntry := { num := t.num, tid := f.tid, gen := f.gen, tag := f.tag, addr := f.addr, rlen := f.rlen, own := t.own }
    let b := h.bridge
    let b : Bridge := { b with holds := b.holds ++ [e] }
    ((({ h with bridge := b }).addTx t).retryRead f).bridgePump
  else (h.inc R.brgSlotFull).retryRead f

/-- A frame that the bridge does not serve: a response from a host, or REV 1 (R370). -/
def Hub.bridgeReject (h : Hub) (f : Frame) : Hub := h.inc (R.runFmtCnt f.tid)

/-- A READ, or a frame that is no request, is taken from E2. A frame of a tunnel that is gone has no effect. -/
def Hub.storageRead (h : Hub) (f : Frame) : Hub :=
  if !h.storLive f then h.fenceDone f.tid f.tag
  else if f.op ≠ 1 ∨ f.rev then h.bridgeReject f
  else
    let s := h.storGate f.tid f.rlen 1
    let answer (h : Hub) (s : Nat) : Hub := h.respond f.tid f.gen 3 f.tag s false []
    if s ≠ 0 then (h.dropHolds (fun e => e.isOf f && e.state == 1)).respond f.tid f.gen 3 f.tag s false []
    else if f.rlen = 0 then answer h 0
    else
      let s := h.storReach f.tid f.addr f.rlen
      if s ≠ 0 then answer h s
      else match h.bridge.holds.find? (fun e => e.isOf f) with
        | none => h.newRead f
        | some e =>
          if e.addr = f.addr ∧ e.rlen = f.rlen then
            if e.state = 0 then h.retryRead f
            else
              let h := (h.inc R.brgHoldHit).dropHolds (fun x => x.isOf f)
              if e.state = 1 then h.respond f.tid f.gen 3 f.tag 0 false e.data else answer h e.status
          else ((h.inc R.brgTagClash).dropHolds (fun x => x.isOf f)).newRead f

/-- A WRITE is taken from E2. A frame of a tunnel that is gone has no effect. -/
def Hub.storageWrite (h : Hub) (f : Frame) : Hub :=
  if !h.storLive f then h.fenceDone f.tid (engineKeyOf f)
  else if f.op ≠ 2 ∨ f.rev then h.bridgeReject f
  else
    let t := h.txOf f true f.len
    let fail (h : Hub) (s : Nat) : Hub :=
      if f.posted then (h.lateError t s 0).fenceDone f.tid (engineKeyOf f) else h.respond f.tid f.gen 4 f.tag s false []
    let s := h.storGate f.tid 0 2
    if s ≠ 0 then fail h s
    else if f.len = 0 then
      (if f.posted then h.fenceDone f.tid (engineKeyOf f) else h.respond f.tid f.gen 4 f.tag 0 false [])
    else
      let s := h.storReach f.tid f.addr f.len
      if s ≠ 0 then fail h s else (h.addTx t).bridgePump

/-- STORAGE_READ: the oldest storage frame at E2, where it is `f` and no WRITE. -/
def Hub.takeRead (h : Hub) (f : Frame) : Hub := h.bridgeTake ofStorage (fun g => g == f && g.op != 2) Hub.storageRead

/-- STORAGE_WRITE: the oldest storage frame at E2, where it is `f` and a WRITE. -/
def Hub.takeWrite (h : Hub) (f : Frame) : Hub := h.bridgeTake ofStorage (fun g => g == f && g.op == 2) Hub.storageWrite

/-- PIECE_COMPLETE: the oldest outcome is taken. -/
def Hub.pieceComplete (h : Hub) : Hub :=
  match h.bridge.done with
  | [] => h
  | p :: rest => ({ h with bridge := { h.bridge with done := rest } }).pieceDone p

/-- HOLD_EXPIRY: the hold timer of an entry runs out (R377). -/
def Hub.holdExpiry (h : Hub) (t gen tag : Nat) : Hub :=
  let p (e : HoldEntry) : Bool := e.tid == t && e.gen == gen && e.tag == tag && e.state != 0
  if h.bridge.holds.any p then (((h.dropHolds p).fenceDone t tag).inc R.brgHoldLost).raise srcHoldLost t else h

/-! Responses of nodes (R356, R357). -/

/-- Does a node's response fit the request (Table 11-8, R354)? -/
def NbReq.fits (r : NbReq) (f : Frame) (x : NbHead) : Bool :=
  !x.ni && x.tag == r.tag && (x.op == if r.op = 1 then 4 else 5) && x.rlen == 0 && x.addr == 0 && f.rsv == 0 &&
  (x.status == 0 || x.status == 2 || x.status == 3 || x.status == 4) &&
  (f.len == if r.op = 1 ∧ x.status = 0 then r.len else 0)

/-- NODE_BUS_RESPONSE: it answers the oldest outstanding request, or is counted in NB_FMT. -/
def Hub.nodeResponse (h : Hub) (n : Nat) (f : Frame) : Hub :=
  match (h.line n).out, f.nb with
  | r :: rest, some x =>
    if r.fits f x then
      let h := h.modLine n (fun l => { l with out := rest })
      let b := h.bridge
      let b : Bridge := { b with done := b.done ++ [{ num := r.num, off := r.off, status := x.status, data := f.payload }] }
      ({ h with bridge := b } : Hub).departEnd n
    else h.inc (R.lpNbFmt n)
  | _, _ => h.inc (R.lpNbFmt n)

/-- NODE_BUS_TIMEOUT: the oldest outstanding request ends with STATUS 3 (Table 11-9). -/
def Hub.nodeTimeout (h : Hub) (n : Nat) : Hub :=
  match (h.line n).out with
  | [] => h
  | r :: rest =>
    let h := h.modLine n (fun l => { l with out := rest })
    let b := h.bridge
    let b : Bridge := { b with done := b.done ++ [{ num := r.num, off := r.off, status := 3 }] }
    ((({ h with bridge := b }).inc (R.lpNbTmout n)).lineCause n cNbTmo).departEnd n

/-! Accesses that nodes start (R355, R385 to R388). -/

/-- Does a request of a node have the form of R355 and Table 11-8? -/
def nbFormOk (f : Frame) (x : NbHead) : Bool :=
  let n := if x.op = 1 then x.rlen else f.len
  x.ni && x.status == 0 && f.rsv == 0 && decide (n ≤ 256) && (x.op != 1 || f.len == 0) && (x.op == 1 || x.rlen == 0) &&
  (n == 0 || x.addr / 256 == (x.addr + n - 1) / 256)

/-- The LP5 access of a node's request. `num` 1 marks a WR that is to be answered with the tag in `off`. -/
def nodeAcc (c : Nat) (x : NbHead) (n : Nat) (data : List Byte) : Lp5Acc :=
  { client := clBridge, master := masNode, wr := x.op != 1, addr := x.addr, len := n, data := data,
    num := if x.op = 2 then 1 else 0, off := x.tag, node := c }

/-- Is a node's access within R385? -/
def Hub.nodeVerdict (h : Hub) (a : Lp5Acc) : Nat := if 2 ^ 40 ≤ a.addr then 1 else h.lp5Verdict a

/-- Is the hub-initiated direction of a port in use (R388)? -/
def Hub.hubBusy (h : Hub) (n : Nat) : Bool :=
  !(h.line n).out.isEmpty || h.bridge.txs.any (fun t => t.line == n + 5 && !t.todo.isEmpty)

/-- NODE_BUS_WR and NODE_BUS_PWR (R385, R386). -/
def Hub.nodeWrite (h : Hub) (n : Nat) (f : Frame) (x : NbHead) : Hub :=
  let c := n + 5
  let answer (h : Hub) (s : Nat) : Hub := if x.op = 2 then h.nbAnswer c 5 s x.tag [] else h
  if !nbFormOk f x then answer (h.inc (R.lpNbFmt n)) 4
  else if f.len = 0 then answer h 0
  else
    let a := nodeAcc c x f.len f.payload
    match h.nodeVerdict a with
    | 0 => h.lp5Issue a
    | 1 => answer ((h.inc R.brgNbRefuse).when (decide (a.addr < 2 ^ 40)) (fun h => h.inc R.lp5Refused)) 2
    | _ => answer h 2

/-- STATUS 1 to a node's RD: it is to come back for its data (R387). -/
def Hub.nodeRetry (h : Hub) (c : Nat) (x : NbHead) : Hub := (h.inc R.brgNretryTx).nbAnswer c 4 1 x.tag []

/-- A node hold entry of a port for this address and length. -/
def NodeHold.isOf (e : NodeHold) (c : Nat) (x : NbHead) : Bool := e.port == c && e.addr == x.addr && e.len == x.rlen

/-- The fetch goes into a node hold entry, where one is free (R387). -/
def Hub.nodeFetch (h : Hub) (c : Nat) (x : NbHead) : Hub :=
  let b := h.bridge
  if b.nodeHolds.any (fun e => e.isOf c x) || decide (4 ≤ (b.nodeHolds.filter (fun e => e.port == c)).length) then h
  else
    let b : Bridge := { b with nodeHolds := b.nodeHolds ++ [{ port := c, addr := x.addr, len := x.rlen }] }
    ({ h with bridge := b }).lp5Issue (nodeAcc c x x.rlen [])

/-- NODE_BUS_RD (R387, R388). `inTime`: the data of a new fetch is in hand within 1.5 µs. -/
def State.nodeRead (s : State) (n : Nat) (f : Frame) (x : NbHead) (inTime : Bool) : State :=
  let c := n + 5
  let h := s.hub
  let ans (h : Hub) (st : Nat) (data : List Byte) : State := { s with hub := h.nbAnswer c 4 st x.tag data }
  if !nbFormOk f x then ans (h.inc (R.lpNbFmt n)) 4 []
  else if x.rlen = 0 then ans h 0 []
  else
    let a := nodeAcc c x x.rlen []
    match h.nodeVerdict a with
    | 0 =>
      match h.bridge.nodeHolds.find? (fun e => e.isOf c x && e.data.isSome) with
      | some e =>
        let b := h.bridge
        let b : Bridge := { b with nodeHolds := b.nodeHolds.filter (fun y => !(y.isOf c x)) }
        ans { h with bridge := b } 0 (e.data.getD [])
      | none =>
        if h.hubBusy n then { s with hub := (((h.obsEvent 5 1).inc R.brgCross).nodeRetry c x).nodeFetch c x }
        else if inTime ∧ h.get R.lp5Lpstate = 0 ∧ ¬ h.lp5.exiting ∧ ¬ h.bridge.nodeHolds.any (fun e => e.isOf c x) then
          let s := s.lp5Serve
          let h := { s.hub with lp5 := { s.hub.lp5 with idleSince := s.hub.now } }
          { s with hub := h.nbAnswer c 4 0 x.tag (memRead s.mem x.addr x.rlen) }
        else { s with hub := (h.nodeRetry c x).nodeFetch c x }
    | 1 => ans ((h.inc R.brgNbRefuse).when (decide (x.addr < 2 ^ 40)) (fun h => h.inc R.lp5Refused)) 2 []
    | _ => ans h 2 []

/-- Packet `f`, of operation `op`, is the oldest of line port `n` at E2, and the port is UP. -/
def Hub.nodeOp (h : Hub) (n op : Nat) (f : Frame) : Bool :=
  decide (n < 16) && h.lineState n == lUp && h.bridge.inbox.find? (ofNode (n + 5)) == some (n + 5, f) &&
  (match f.nb with | some y => y.op == op | none => false)

/-- A packet that the bridge has taken from E2. -/
def Hub.nodeTaken (h : Hub) (n : Nat) (f : Frame) : Hub :=
  { h with bridge := { h.bridge with inbox := h.bridge.inbox.erase (n + 5, f) } }

/-- It is taken. -/
def Hub.takeNode (h : Hub) (n op : Nat) (f : Frame) (g : Hub → NbHead → Hub) : Hub :=
  match f.nb with
  | some x => if h.nodeOp n op f then g (h.nodeTaken n f) x else h
  | none => h

/-- NODE_BUS_RD: `f` is the oldest packet of the port, and an RD. -/
def State.takeNodeRead (s : State) (n : Nat) (f : Frame) (inTime : Bool) : State :=
  match f.nb with
  | some x => if s.hub.nodeOp n 1 f then ({ s with hub := s.hub.nodeTaken n f } : State).nodeRead n f x inTime else s
  | none => s

/-- Data of a node's fetch returns to its hold entry, or is lost where the fetch failed (R387, R432). -/
def Hub.nodeData (h : Hub) (a : Lp5Acc) (ok : Bool) : Hub :=
  let b := h.bridge
  let is (e : NodeHold) : Bool := e.port == a.node && e.addr == a.addr && e.len == a.len && e.data.isNone
  let l : List NodeHold :=
    if ok then b.nodeHolds.map (fun e => if is e then { e with data := some a.data } else e)
    else b.nodeHolds.filter (fun e => !is e)
  let b : Bridge := { b with nodeHolds := l }
  { h with bridge := b }

/-- NODE_HOLD_EXPIRY (R387). -/
def Hub.nodeHoldExpiry (h : Hub) (n addr len : Nat) : Hub :=
  let b := h.bridge
  let is (e : NodeHold) : Bool := e.port == n + 5 && e.addr == addr && e.len == len && e.data.isSome
  if b.nodeHolds.any is then
    let b : Bridge := { b with nodeHolds := b.nodeHolds.filter (fun e => !is e) }
    ({ h with bridge := b }).inc R.brgNholdLost
  else h

/-! Telemetry mirrors (R390 to R393). -/

/-- Mirror entries that master `m` holds. -/
def Hub.mirrorUse (h : Hub) (m : Nat) : Nat := (h.bridge.mirror.filter (fun x => x.own == m)).length

/-- One item's update (R391). -/
def Hub.mirrorPut (h : Hub) (t item : Nat) (value : List Byte) : Hub :=
  let b := h.bridge
  let is (x : MirItem) : Bool := x.tid == t && x.item == item
  if b.mirror.any is then
    let b : Bridge := { b with mirror := b.mirror.map (fun x => if is x then
      { x with value := value, at_ := h.now, dirty := true, lost := if x.dirty then min 65535 (x.lost + 1) else x.lost }
      else x) }
    { h with bridge := b }
  else
    let own := h.get (R.ttOwn t)
    if 4096 ≤ b.mirror.length ∨ 1024 ≤ h.mirrorUse own then (h.inc R.brgMirFull).raise srcMirrorFull t
    else
      let b : Bridge := { b with mirror := b.mirror ++
        [{ tid := t, item := item, own := own, value := value, at_ := h.now, dirty := true, lost := 0 }] }
      { h with bridge := b }

/-- The items of a payload, until one breaks R390. `fuel` bounds their number. -/
def Hub.mirrorItems (h : Hub) (t : Nat) : Nat → List Byte → Hub
  | 0, _ => h
  | fuel + 1, l =>
    if l.isEmpty then h
    else
      let w := leWord (l.take 4)
      let n := bits w 7 0
      if decide (l.length < 4) || bits w 23 8 != 0 || n % 4 != 0 || decide (n < 4) || decide (64 < n) ||
          decide (l.length < 4 + n) then h.inc R.brgMirFmt
      else (h.mirrorPut t (bits w 31 24) ((l.drop 4).take n)).mirrorItems t fuel (l.drop (4 + n))

/-- A telemetry frame of a node reaches the mirror store (R390, Table 3-14). -/
def Hub.telemetry (h : Hub) (f : Frame) : Hub :=
  if f.cls ≠ 6 ∨ f.gen ≠ h.get (R.ttGen f.tid) ∨ ¬ (h.tunIs f.tid tOpen ∨ h.tunIs f.tid tDraining) then h
  else if f.payload.isEmpty then h.inc R.brgMirFmt
  else h.mirrorItems f.tid (f.payload.length / 4 + 1) f.payload

/-- TELEMETRY_UPDATE: the oldest telemetry frame that the policer has passed, where it is `f`. -/
def Hub.takeTelemetry (h : Hub) (f : Frame) : Hub := h.bridgeTake ofTelemetry (fun g => g == f) Hub.telemetry

/-- One item as the mirror frame carries it (R392). -/
def MirItem.bytes (x : MirItem) : List Byte :=
  leBytes 4 (x.item * 2 ^ 24 + x.value.length) ++ leBytes 4 (x.lost * 2 ^ 16) ++ leBytes 8 x.at_ ++ x.value

/-- Insert by item number. -/
def insItem (x : MirItem) : List MirItem → List MirItem
  | [] => [x]
  | y :: l => if x.item ≤ y.item then x :: y :: l else y :: insItem x l

/-- The leading items that fit in `room` bytes. -/
def fitting : Nat → List MirItem → List MirItem
  | _, [] => []
  | room, x :: l => if 16 + x.value.length ≤ room then x :: fitting (room - (16 + x.value.length)) l else []

/-- The mirror frame of one tunnel, where it is due (R392). -/
def Hub.mirrorSend (h : Hub) (t : Nat) : Hub :=
  let dirty := (h.bridge.mirror.filter (fun x => x.tid == t && x.dirty)).foldr insItem []
  let send := fitting (h.get (R.ttMaxlen t) - 4) dirty
  if send.isEmpty ∨ h.get (R.ttMaxlen t) < 4 ∨ ¬ h.tunIs t tOpen ∨ (h.queue t 0).frames.any (fun q => q.ingress == codeE2) then h
  else
    let b := h.bridge
    let gone (x : MirItem) : Bool := x.tid == t && send.any (fun y => y.item == x.item)
    let b : Bridge := { b with mirror := b.mirror.map (fun x => if gone x then { x with dirty := false, lost := 0 } else x) }
    let h := { h with bridge := b }
    let head := 2 ^ 24 + h.get (R.ttIngr t) % 32 * 2 ^ 19 + h.tickNum % 2 ^ 19
    let f : Frame := { tid := t, gen := h.get (R.ttGen t), cls := 6, payload := leBytes 4 head ++ send.flatMap MirItem.bytes }
    let (c, h) := h.police t 0 f.stored
    (h.countColour t 0 c).judge t 0 { f := f, cells := f.cells, ingress := codeE2, ccls := cclsOf 6, written := f.cells, colour := c }

/-- Task 8: the mirror frames of every open telemetry tunnel (R392). -/
def Hub.mirrorTask (h : Hub) : Hub :=
  h.each (h.liveIds.filter (fun t => isUser t && (h.get (R.ttClass t) == 6))) (fun h t => h.mirrorSend t)

/-- Every item of a tunnel is dirty after a failover switch (R393). -/
def Hub.mirrorDirty (h : Hub) (t : Nat) : Hub :=
  let b := h.bridge
  let b : Bridge := { b with mirror := b.mirror.map (fun x => if x.tid = t then { x with dirty := true } else x) }
  { h with bridge := b }

/-- Entries of tunnels that are neither OPEN nor DRAINING are freed: mirrors (R391) and hold entries (Table 12-5). -/
def Hub.settleBridge (h : Hub) : Hub :=
  let live (t : Nat) : Bool := h.tunIs t tOpen || h.tunIs t tDraining
  let b := h.bridge
  let b : Bridge := { b with
    mirror := b.mirror.filter (fun x => live x.tid)
    holds := b.holds.filter (fun e => live e.tid && e.gen == h.get (R.ttGen e.tid)) }
  ({ h with bridge := b }).bridgePump

/-- BRG_CFG and the window masks take effect (R396). -/
def Hub.bridgeBoundary (h : Hub) : Hub :=
  let b := h.bridge
  let h := match b.cfgPend with
    | some (x, y, z) => h.setAll [(R.brgHoldUs, x), (R.brgNholdUs, y), (R.brgLrecMax, z)]
    | none => h
  let h := h.each b.nwinPend (fun h p => h.set (R.nwinWmask p.1) p.2)
  let b : Bridge := { b with cfgPend := none, nwinPend := [], sent := [] }
  { h with bridge := b }

/-- Warm reset: hold, node hold and mirror entries are discarded, and what E2 has delivered with its tunnels; logs are kept
(Table 12-5). -/
def Hub.bridgeWarm (h : Hub) : Hub :=
  let b := h.bridge
  let b : Bridge := { b with inbox := [], holds := [], nodeHolds := [], mirror := [] }
  { h with bridge := b }

/-! Views (Table 12-8). -/

/-- BRG_SLOT_m. -/
def Hub.slotUse (h : Hub) (m : Nat) : Nat := let u := h.holdUse m; u.1 * 2 ^ 16 + u.2

/-- BRG_LOG entry `e` of log `g`, as its eight words. -/
def Hub.blogEntry (h : Hub) (g e : Nat) : Record := tabGet h.bridge.logs (k2 g e) []

end Sys2Proof.Machine
end

