-- ==== Sys2Proof/Machine/RegView.lean ====
section
/-!
DEFINITION. Registers by address: which fields a word holds, what an image writes into them, and whether an image is
legal (R4, R7, R9).
-/

namespace Sys2Proof.Machine

open Sys2Proof

/-- Which copy of a field family lies in the word at `addr`. -/
def RegRow.copyAt (r : RegRow) (addr : Nat) : Option (Nat × Nat) :=
  ((List.range r.nj).filterMap (fun j =>
    let a := r.base + j * r.sj
    if addr < a then none
    else if r.ni ≤ 1 then (if addr = a then some (0, j) else none)
    else if (addr - a) % r.si = 0 ∧ (addr - a) / r.si < r.ni then some ((addr - a) / r.si, j) else none)).head?

/-- The fields of the word at `addr`, among some rows: row and field. -/
def fieldsAt (rows : List RegRow) (addr : Nat) : List (RegRow × Fld) :=
  rows.filterMap (fun r => (r.copyAt addr).map (fun c => (r, r.fld c.1 c.2)))

/-- The word at `addr` as its fields read (R4). -/
def Hub.wordAt (h : Hub) (rows : List RegRow) (addr : Nat) : Nat :=
  ((fieldsAt rows addr).map (fun x => h.get x.2 * 2 ^ x.1.lo)).sum

/-- `n` words from `addr` on. -/
def Hub.wordsAt (h : Hub) (rows : List RegRow) (addr n : Nat) : List Nat :=
  (List.range n).map (fun k => h.wordAt rows (addr + 4 * k))

/-- What the image `w` of the word at `addr` gives each of its fields. -/
def imageAt (rows : List RegRow) (addr w : Nat) : List (Fld × Nat) :=
  (fieldsAt rows addr).map (fun x => (x.2, bits w (x.1.lo + x.2.width - 1) x.1.lo))

/-- Has the image no reserved encoding (R9) and no reserved bit set? -/
def imageLegal (rows : List RegRow) (addr w : Nat) : Bool :=
  let l := fieldsAt rows addr
  l.all (fun x => x.1.legal (bits w (x.1.lo + x.2.width - 1) x.1.lo)) &&
  (w == (l.map (fun x => bits w (x.1.lo + x.2.width - 1) x.1.lo * 2 ^ x.1.lo)).sum)

/-- The fields of an image of several words from `addr` on. -/
def imagesAt (rows : List RegRow) : Nat → List Nat → List (Fld × Nat)
  | _, [] => []
  | a, w :: l => imageAt rows a w ++ imagesAt rows (a + 4) l

/-- Are all words of an image legal? -/
def imagesLegal (rows : List RegRow) : Nat → List Nat → Bool
  | _, [] => true
  | a, w :: l => imageLegal rows a w && imagesLegal rows (a + 4) l

/-- What an image gives a field; its present value where the image does not name it. -/
def Hub.imgGet (h : Hub) (l : List (Fld × Nat)) (f : Fld) : Nat :=
  match l.find? (fun p => p.1.key == f.key) with
  | some p => p.2
  | none => h.get f

end Sys2Proof.Machine
end

