-- ==== Sys2Proof/Machine/RasterOps.lean ====
section
/-!
DEFINITION. Raster heads, DP outputs and the pixel witness (chapter 13).
-/

namespace Sys2Proof.Machine

open Sys2Proof

/-- A head beside its registers. -/
def Hub.head (h : Hub) (n : Nat) : HeadX := tabGet h.media.heads (k1 n) {}

/-- Change a head. -/
def Hub.modHead (h : Hub) (n : Nat) (f : HeadX → HeadX) : Hub :=
  { h with media := { h.media with heads := tabSet h.media.heads (k1 n) (f (h.head n)) {} } }

/-- A DP output beside its registers. -/
def Hub.dpX (h : Hub) (d : Nat) : DpX := tabGet h.media.dps (k1 d) {}

/-- Change a DP output. -/
def Hub.setDpX (h : Hub) (d : Nat) (x : DpX) : Hub :=
  { h with media := { h.media with dps := tabSet h.media.dps (k1 d) x {} } }

/-! Planes (R402, Table 13-2). -/

/-- Bytes of a sample. -/
def Hub.cb (h : Hub) (n : Nat) : Nat := if h.get (R.rhDepth n) = 0 then 1 else 2

/-- Planes of the format. -/
def Hub.planes (h : Hub) (n : Nat) : Nat := if h.get (R.rhFmt n) = 2 then 3 else 2

/-- Bytes of a line of a plane. -/
def Hub.bpl (h : Hub) (n p : Nat) : Nat := if p < h.planes n then h.get (R.rhHact n) * h.cb n else 0

/-- Lines of a plane: in 4:2:0 plane 1 has one for every two. -/
def Hub.planeLines (h : Hub) (n p : Nat) : Nat :=
  if h.get (R.rhFmt n) = 0 ∧ p = 1 then h.get (R.rhVact n) / 2 else h.get (R.rhVact n)

/-- Stride of a plane, bytes. -/
def Hub.strideOf (h : Hub) (n p : Nat) : Nat :=
  256 * (match p with | 0 => h.get (R.rhStrideP0 n) | 1 => h.get (R.rhStrideP1 n) | _ => h.get (R.rhStrideP2 n))

/-- A_h in half bytes: twice the average of plane bytes per active line. -/
def Hub.avg2 (h : Hub) (n : Nat) : Nat :=
  h.get (R.rhHact n) * h.cb n * (match h.get (R.rhFmt n) with | 0 => 3 | 1 => 4 | _ => 6)

/-- Output depth in bits. -/
def Hub.outBits (h : Hub) (n : Nat) : Nat := match h.get (R.rhObpc n) with | 0 => 8 | 1 => 10 | 2 => 12 | _ => 6

/-- The current addresses of a head, as chip addresses. -/
def Hub.curAddrs (h : Hub) (n : Nat) : List Nat :=
  [0, 1, 2].map (fun p => h.get (R.flipPCurHi n p) * 2 ^ 32 + h.get (R.flipPCurLo n p) * 256)

/-- The pending addresses of a head. -/
def Hub.pendAddrs (h : Hub) (n : Nat) : List Nat :=
  [0, 1, 2].map (fun p => h.get (R.flipPHi n p) * 2 ^ 32 + h.get (R.flipPLo n p) * 256)

/-- Write the current addresses. -/
def Hub.setCur (h : Hub) (n : Nat) (l : List Nat) : Hub :=
  h.setAll ([0, 1, 2].flatMap (fun p => [(R.flipPCurLo n p, l.getD p 0 / 256), (R.flipPCurHi n p, l.getD p 0 / 2 ^ 32)]))

/-! Setup checks (R398 to R400, R414, R415). -/

/-- Table 13-1 and reserved encodings, for the head as its registers stand. -/
def Hub.rasterTiming (h : Hub) (n : Nat) : Bool :=
  let g := fun f => h.get f
  let hact := g (R.rhHact n)
  let ht := g (R.rhHtotal n)
  let vact := g (R.rhVact n)
  let vt := g (R.rhVtotal n)
  let rng := fun (a v b : Nat) => decide (a ≤ v) && decide (v ≤ b)
  rng 25000 (g (R.rhPclkKhz n)) 600000 && rng 64 hact 4096 && (hact % 2 == 0) && rng (hact + 40) ht 8192 &&
  rng 1 (g (R.rhHfp n)) 1023 && rng 1 (g (R.rhHsync n)) 1023 && rng 32 vact 2304 && rng (vact + 8) vt 4096 &&
  rng 1 (g (R.rhVfp n)) 255 && rng 1 (g (R.rhVsync n)) 255 &&
  decide (hact + g (R.rhHfp n) + g (R.rhHsync n) + 1 ≤ ht) && decide (vact + g (R.rhVfp n) + g (R.rhVsync n) + 1 ≤ vt) &&
  (g (R.rhFmt n) != 0 || vact % 2 == 0) &&
  (g (R.rhSink n) != 3 || (hact % (2 * (g (R.rhNseg n) + 1)) == 0 && (g (R.rhObpc n) != 3))) &&
  (g (R.rhStrideP0 n) != 0) && (g (R.rhStrideP1 n) != 0) && ((g (R.rhFmt n) == 2) == (g (R.rhStrideP2 n) != 0))

/-- Fetch rates of the heads from `n` on down, in bytes per second, as a fraction (R400): F_h = A_h × PCLK / HTOTAL of each
that is enabled. -/
def Hub.fetchRates (h : Hub) : Nat → Nat × Nat
  | 0 => (0, 1)
  | n + 1 =>
    let s := h.fetchRates n
    if h.flag (R.rhEn n) then
      let d := 2 * h.get (R.rhHtotal n)
      (s.1 * d + h.avg2 n * h.get (R.rhPclkKhz n) * 1000 * s.2, s.2 * d)
    else s

/-- Do the enabled heads keep within 19.2 GB/s (R400)? -/
def Hub.fetchOk (h : Hub) : Bool := let s := h.fetchRates 8; decide (s.1 ≤ 19200000000 * s.2)

/-- Share of the line buffer that a plane has, bytes (R411). -/
def Hub.planeShare (h : Hub) (n p : Nat) : Nat :=
  131072 * h.bpl n p / (h.bpl n 0 + h.bpl n 1 + h.bpl n 2)

/-- Can the line buffer hold two lines of the planes (R414)? -/
def Hub.twoLines (h : Hub) (n : Nat) : Bool := decide (2 * (h.bpl n 0 + h.bpl n 1 + h.bpl n 2) ≤ 131072)

/-- Rate of a DP link, kb/s (Table 13-3). -/
def dpKbps (r : Nat) : Nat := match r with | 0 => 1620000 | 1 => 2700000 | 2 => 5400000 | _ => 8100000

/-- Does the stream of head `n` fit the link of output `d` (R415)? -/
def Hub.dpFits (h : Hub) (n d : Nat) : Bool :=
  decide (h.get (R.rhPclkKhz n) * 3 * h.outBits n * 1000 ≤ 792 * 2 ^ h.get (R.dpLanes d) * dpKbps (h.get (R.dpRate d)))

/-! Sinks and demand (R397, R407, R417). -/

/-- Is the display tunnel OPEN with the generation of the setup (R417)? -/
def Hub.tunnelAlive (h : Hub) (n : Nat) : Bool :=
  let t := h.get (R.rhTunnel n)
  h.tunIs t tOpen && (h.get (R.ttGen t) == (h.head n).gen)

/-- The DP output that a head drives. -/
def Hub.dpOf (h : Hub) (n : Nat) : Option Nat :=
  let d := h.get (R.rhSink n) - 1
  if (h.get (R.rhSink n) = 1 ∨ h.get (R.rhSink n) = 2) ∧ h.flag (R.dpEn d) ∧ h.get (R.dpSrc d) = n then some d else none

/-- Does a head drive a sink? -/
def Hub.drivesSink (h : Hub) (n : Nat) : Bool :=
  if h.get (R.rhSink n) = 3 then h.tunnelAlive n else (h.dpOf n).isSome

/-- Is a head blanked: by its reaction, by safe state or by containment (R420, R424, Table 18-1)? -/
def Hub.headBlank (h : Hub) (n : Nat) : Bool :=
  (h.head n).safe == 2 || (h.head n).react == 2 || h.contained (srcRasterUnder n) || h.contained (srcWitMism n)

/-- Does a head state no demand (R407, R442)? -/
def Hub.noDemand (h : Hub) (n : Nat) : Bool :=
  let x := h.head n
  !h.flag (R.rhEn n) || !h.drivesSink n || (x.safe == 2 && h.safe) ||
  ((x.react == 2 || h.contained (srcRasterUnder n) || h.contained (srcWitMism n)) && !x.resume)

/-! The line buffer and latency tolerance (R404, R411, R412). -/

/-- Next burst to fetch of a plane: line and burst. -/
def HeadX.nextOf (x : HeadX) (p : Nat) : Nat × Nat := match p with | 0 => x.next0 | 1 => x.next1 | _ => x.next2

/-- Move the fetch of a plane on. -/
def HeadX.setNext (x : HeadX) (p : Nat) (v : Nat × Nat) : HeadX :=
  match p with | 0 => { x with next0 := v } | 1 => { x with next1 := v } | _ => { x with next2 := v }

/-- Has a burst arrived? -/
def HeadX.has (x : HeadX) (p l b : Nat) : Bool := (tabFind x.got ⟨p, l, b⟩).isSome

/-- The burst after this one, in a plane with `k` bursts to a line. -/
def burstAfter (k : Nat) (v : Nat × Nat) : Nat × Nat := if v.2 + 1 < k then (v.1, v.2 + 1) else (v.1 + 1, 0)

/-- The first burst that is not held, from `v` on. -/
def HeadX.firstMiss (x : HeadX) (p k : Nat) : Nat → Nat × Nat → Nat × Nat
  | 0, v => v
  | fuel + 1, v => if x.has p v.1 v.2 then x.firstMiss p k fuel (burstAfter k v) else v

/-- First line of a plane that the active line `y` and those after it need. -/
def Hub.lineOf (h : Hub) (n p y : Nat) : Nat :=
  if h.get (R.rhFmt n) = 0 ∧ p = 1 then (if h.flag (R.rhUps n) ∧ y % 2 = 0 then y / 2 - 1 else y / 2) else y

/-- Pixel clocks from the latch point to the need of byte `o` of line `l` of a plane (R412): all blanking lines, then
the active lines before the first that needs it, then the pixels of that line. -/
def Hub.clocksTo (h : Hub) (n p l o : Nat) : Nat :=
  let vact := h.get (R.rhVact n)
  let blank := h.get (R.rhVtotal n) - vact
  let ups := h.flag (R.rhUps n)
  let half := h.get (R.rhFmt n) = 0 ∧ p = 1
  let chroma := p = 1 ∧ h.get (R.rhFmt n) ≠ 2
  let y := if half then (if ups then 2 * l - 1 else 2 * l) else l
  let px := o / h.cb n
  let px := if chroma ∧ ups then px - 1 else px
  if h.planeLines n p ≤ l then (2 * blank + vact) * h.get (R.rhHtotal n)
  else (blank + y) * h.get (R.rhHtotal n) + px

/-- LTOL, units of 100 ns (R412). -/
def Hub.ltolOf (h : Hub) (n : Nat) : Nat :=
  let x := h.head n
  let c := ((List.range (h.planes n)).map (fun p =>
    let k := ceilDiv (h.bpl n p) 256
    let v := x.firstMiss p k (x.got.length + 1) (h.lineOf n p x.scan, 0)
    h.clocksTo n p v.1 (v.2 * 256))).foldl min (2 ^ 40)
  let need := x.latchAt + c * 1000000 / h.get (R.rhPclkKhz n)
  min 0xFFFE ((need - h.now - 500) / 100)

/-- STATE of a head (Table 13-7). -/
def Hub.headStateOf (h : Hub) (n : Nat) : Nat :=
  if !h.flag (R.rhEn n) then 0
  else if (h.head n).safe ≠ 0 then 4
  else if h.headBlank n then 3
  else if (h.head n).react = 1 then 2
  else 1

/-- STATE and LTOL of every head follow its condition. -/
def Hub.settleHeads (h : Hub) : Hub :=
  h.each (List.range 8) (fun h n =>
    let st := h.headStateOf n
    if st = 0 then h.setAll [(R.rhState n, 0), (R.rhLtol n, 0xFFFF)]
    else
      let v := if (h.head n).relock then 0 else if h.noDemand n then 0xFFFF else h.ltolOf n
      (h.setAll [(R.rhState n, st), (R.rhLtol n, v)]).modHead n (fun x => { x with low := min x.low v }))

/-- The burst that a head fetches next of a plane, where it fits (R404, R411): chip address and length. -/
def Hub.nextBurst (h : Hub) (n p : Nat) : Option (Nat × Nat) :=
  let x := h.head n
  let v := x.nextOf p
  let bpl := h.bpl n p
  let mine (a : Lp5Acc) : Bool := a.client == n && a.node == p
  let held := ((x.got.filter (fun e => e.1.id == p)).map (fun e => e.2.length)).sum +
    ((h.lp5.queue.filter mine).map (fun a => a.len)).sum + ((h.lp5.reads.filter mine).map (fun a => a.len)).sum
  let len := min 256 (bpl - v.2 * 256)
  if !h.flag (R.rhEn n) || x.relock || h.noDemand n || bpl == 0 || decide (h.planeLines n p ≤ v.1) ||
      decide (h.planeShare n p < held + len) then none
  else some ((h.curAddrs n).getD p 0 + v.1 * h.strideOf n p + v.2 * 256, len)

/-- A head fetches the next burst of a plane: a burst that LP5 refuses does not arrive (R404). -/
def Hub.headFetch (h : Hub) (n p : Nat) : Hub :=
  match h.nextBurst n p with
  | none => h
  | some (a, len) =>
    let v := (h.head n).nextOf p
    let h := h.modHead n (fun x => ({ x with fetched := x.fetched + len }).setNext p (burstAfter (ceilDiv (h.bpl n p) 256) v))
    h.lp5Issue { client := n, master := masHead, wr := false, addr := a, len := len, num := v.1, off := v.2, node := p }

/-- A burst arrives: it is held, or discarded where its line has gone (R412, R414). -/
def Hub.headData (h : Hub) (a : Lp5Acc) (ok : Bool) : Hub :=
  if !ok || decide (a.num < h.lineOf a.client a.node (h.head a.client).scan) then h
  else h.modHead a.client (fun x => { x with got := tabPut x.got ⟨a.node, a.num, a.off⟩ a.data })

/-! The pixel pipeline (R405). -/

/-- A pixel: red, green and blue. -/
abbrev Rgb := Nat × Nat × Nat

/-- A sample of a line in hand, expanded to 12 bits (step 1); none where it has not arrived. -/
def HeadX.sample (x : HeadX) (depth p l i : Nat) : Option Nat :=
  let cb := if depth = 0 then 1 else 2
  let o := i * cb
  match tabFind x.got ⟨p, l, o / 256⟩ with
  | none => none
  | some d =>
    let w := leWord ((d.drop (o % 256)).take cb)
    some (match depth with | 0 => w * 16 | 1 => w / 64 * 4 | _ => w / 16)

/-- Chroma component `c` at chroma position `k` of active line `y`, after the vertical step (step 2). -/
def Hub.chromaAt (h : Hub) (n : Nat) (x : HeadX) (c k y : Nat) : Option Nat :=
  let d := h.get (R.rhDepth n)
  let at_ := fun l => x.sample d 1 l (2 * k + c)
  if h.get (R.rhFmt n) = 1 then at_ y
  else
    let j := y / 2
    if !h.flag (R.rhUps n) then at_ j
    else
      let o := if y % 2 = 0 then j - 1 else if j + 1 < h.get (R.rhVact n) / 2 then j + 1 else j
      match at_ j, at_ o with
      | some a, some b => some ((3 * a + b + 2) / 4)
      | _, _ => none

/-- Chroma component `c` of pixel `i` of active line `y`, after the horizontal step. -/
def Hub.chromaPx (h : Hub) (n : Nat) (x : HeadX) (c i y : Nat) : Option Nat :=
  let k := i / 2
  if i % 2 = 0 ∨ !h.flag (R.rhUps n) ∨ h.get (R.rhHact n) / 2 ≤ k + 1 then h.chromaAt n x c k y
  else match h.chromaAt n x c k y, h.chromaAt n x c (k + 1) y with
    | some a, some b => some ((a + b + 1) / 2)
    | _, _ => none

/-- One row of the matrix (step 3). -/
def matrixRow (c0 c1 c2 : Nat) (a b c : Int) : Nat :=
  let s := toSigned 16 c0 * a + toSigned 16 c1 * b + toSigned 16 c2 * c
  (min 4095 (max 0 ((s + 4096) / 8192))).toNat

/-- Output depth (step 4). -/
def toDepth (b v : Nat) : Nat := if b = 12 then v else min (2 ^ b - 1) ((v + 2 ^ (11 - b)) / 2 ^ (12 - b))

/-- A fill component of 8 bits at `b` bits (step 5). -/
def fillTo (b v : Nat) : Nat := if b = 6 then v / 4 else v * 2 ^ (b - 8) + v / 2 ^ (16 - b)

/-- The fill colour at the output depth. -/
def Hub.fillPx (h : Hub) (n : Nat) : Rgb :=
  let b := h.outBits n
  (fillTo b (h.get (R.rhFillR n)), fillTo b (h.get (R.rhFillG n)), fillTo b (h.get (R.rhFillB n)))

/-- One pixel through steps 1 to 4; none where a sample has not arrived. -/
def Hub.pixel (h : Hub) (n : Nat) (x : HeadX) (i y : Nat) : Option Rgb :=
  let d := h.get (R.rhDepth n)
  let ycc := if h.get (R.rhFmt n) = 2 then (x.sample d 0 y i, x.sample d 1 y i, x.sample d 2 y i)
    else (x.sample d 0 y i, h.chromaPx n x 0 i y, h.chromaPx n x 1 i y)
  match ycc with
  | (some a, some b, some c) =>
    let a := (a : Int) + toSigned 13 (h.get (R.rhOffY n))
    let b := (b : Int) + toSigned 13 (h.get (R.rhOffCb n))
    let c := (c : Int) + toSigned 13 (h.get (R.rhOffCr n))
    let q := h.outBits n
    some (toDepth q (matrixRow (h.get (R.rhC00 n)) (h.get (R.rhC01 n)) (h.get (R.rhC02 n)) a b c),
      toDepth q (matrixRow (h.get (R.rhC10 n)) (h.get (R.rhC11 n)) (h.get (R.rhC12 n)) a b c),
      toDepth q (matrixRow (h.get (R.rhC20 n)) (h.get (R.rhC21 n)) (h.get (R.rhC22 n)) a b c))
  | _ => none

/-- Is the whole output of the head fill: no lock yet, blanked, or the rest of a frozen frame (R401, R420, R424)? -/
def Hub.allFill (h : Hub) (n : Nat) : Bool :=
  let x := h.head n
  x.relock || x.fillAll || x.fillRest || h.headBlank n

/-- Is the line in hand fill? What begins within a line applies from the next one (Table 13-4, R424). -/
def Hub.lineFilled (h : Hub) (n : Nat) : Bool := if (h.head n).seg = 0 then h.allFill n else (h.head n).lineFill

/-- First pixel of the line in hand that lacks a sample. -/
def Hub.missingPx (h : Hub) (n : Nat) : Option Nat :=
  let x := h.head n
  (List.range (h.get (R.rhHact n))).find? (fun i => (h.pixel n x i x.scan).isNone)

/-- The head underflows on the line in hand (R414): once a line. -/
def Hub.underflow (h : Hub) (n : Nat) : Hub :=
  let x := h.head n
  if !h.flag (R.rhEn n) || h.lineFilled n || x.under.isSome || decide (h.get (R.rhVact n) ≤ x.scan) then h
  else match h.missingPx n with
    | none => h
    | some i =>
      ((h.modHead n (fun x => { x with under := some i })).inc (R.rhUnderrun n)).raise (srcRasterUnder n) x.scan

/-- Pixels `a` to `a + k - 1` of the line in hand, fill included (step 5). -/
def Hub.linePx (h : Hub) (n a k : Nat) : List Rgb :=
  let x := h.head n
  let fill := h.fillPx n
  let all := h.lineFilled n
  (List.range k).map (fun i =>
    if all || decide (x.under.getD (2 ^ 20) ≤ a + i) then fill else (h.pixel n x (a + i) x.scan).getD fill)

/-- Pixels as a display tunnel carries them (R417). -/
def packPx (b : Nat) (l : List Rgb) : List Byte :=
  l.flatMap (fun p => match b with
    | 8 => [BitVec.ofNat 8 p.1, BitVec.ofNat 8 p.2.1, BitVec.ofNat 8 p.2.2]
    | 10 => leBytes 4 (p.1 * 2 ^ 20 + p.2.1 * 2 ^ 10 + p.2.2)
    | _ => leBytes 2 p.1 ++ leBytes 2 p.2.1 ++ leBytes 2 p.2.2)

/-- Pixels as the band CRCs take them (R418). -/
def crcPx (l : List Rgb) : List Byte := l.flatMap (fun p => leBytes 2 p.1 ++ leBytes 2 p.2.1 ++ leBytes 2 p.2.2)

/-- The line in hand has left: band CRC, line buffer, next line (R411, R418). -/
def Hub.lineEnd (h : Hub) (n : Nat) : Hub :=
  let x := h.head n
  let y := x.scan
  let vact := h.get (R.rhVact n)
  let bandEnd := y % 64 = 63 ∨ y + 1 = vact
  let steps := match h.dpOf n with | some d => (h.dpX d).taken | none => []
  let refs := if bandEnd ∧ h.flag (R.rhWitEn n) then
      x.refs ++ [{ band := y / 64, crc := x.crc ^^^ 0xFFFFFFFF, addrs := h.curAddrs n, last := decide (y + 1 = vact)
                   steps := steps }] else x.refs
  let old (e : Key × List Byte) : Bool := decide (e.1.i < h.lineOf n e.1.id (y + 1))
  h.modHead n (fun x => { x with scan := y + 1, seg := 0, under := none, dropped := false, refs := refs,
                                 crc := if bandEnd then 0xFFFFFFFF else x.crc, got := x.got.filter (fun e => !old e) })

/-- Is a DP output contained, so that it sends the idle pattern (Table 18-1)? -/
def Hub.dpContained (h : Hub) (d : Nat) : Bool := h.contained (srcDpLink d) || h.contained (srcDpTrim d)

/-- RASTER_LINE_SEND: one segment of the line in hand leaves the pipeline (R417). -/
def Hub.lineSend (h : Hub) (n : Nat) : Hub :=
  let x := h.head n
  let vact := h.get (R.rhVact n)
  if !h.flag (R.rhEn n) || decide (vact ≤ x.scan) then h
  else
    let h := h.underflow n
    let fill := h.lineFilled n
    let segs := if h.get (R.rhSink n) = 3 then h.get (R.rhNseg n) + 1 else 1
    let k := h.get (R.rhHact n) / segs
    let px := h.linePx n (x.seg * k) k
    let h := h.modHead n (fun x => { x with crc := (crcPx px).foldl crcByte x.crc, lineFill := fill })
    let h :=
      if h.get (R.rhSink n) = 3 then
        if h.tunnelAlive n then
          let t := h.get (R.rhTunnel n)
          h.ingress { tid := t, gen := x.gen, cls := 2, first := x.scan == 0 && x.seg == 0,
                      last := x.scan + 1 == vact && x.seg + 1 == segs, seq := h.get (R.runIngSeq t),
                      payload := packPx (h.outBits n) px } codeE0
        else (if x.dropped then h else h.inc (R.rhTunDrop n)).modHead n (fun x => { x with dropped := true })
      else match h.dpOf n with
        | some d =>
          if h.dpContained d then h.emit (.words "DP_IDLE" d [])
          else h.emit (.words "DP_LINE" d (px.flatMap (fun p => [p.1, p.2.1, p.2.2])))
        | none => h
    if x.seg + 1 < segs then h.modHead n (fun x => { x with seg := x.seg + 1 }) else h.lineEnd n

/-! Setup (R398, R401). -/

/-- A DP output without its head's picture drives the idle pattern (R401). -/
def Hub.headOff (h : Hub) (n : Nat) : Hub :=
  let h := match h.dpOf n with | some d => h.emit (.words "DP_IDLE" d []) | none => h
  h.modHead n (fun x => { x with relock := false, fillAll := false, got := [], refs := [], scan := 0, seg := 0 })

/-- While safe state is in force an enabled head acts by its SAFE_ACT (R424): 1 freeze, 2 blank. -/
def Hub.headSafe (h : Hub) (n : Nat) : Hub :=
  if h.flag (R.rhEn n) then h.modHead n (fun x => { x with safe := if h.flag (R.rhSafeAct n) then 2 else 1 }) else h

/-- A setup takes effect; `gen` is the generation of its display tunnel. -/
def Hub.applySetup (h : Hub) (n : Nat) (l : List (Fld × Nat)) (relock : Bool) (gen : Nat) : Hub :=
  let h := (h.setAll l).modHead n (fun x => { x with
    setup := none, gen := gen, good := none, got := [], next0 := (0, 0), next1 := (0, 0), next2 := (0, 0) })
  let h := if h.safe then h.headSafe n else h
  if !h.flag (R.rhEn n) then h.headOff n
  else if relock then h.modHead n (fun x => { x with relock := true, fillAll := true }) else h

/-- A setup accepted: at once for a head that is off, otherwise at the next latch point (R401). -/
def Hub.takeSetup (h : Hub) (n : Nat) (l : List (Fld × Nat)) : Hub :=
  let v := h.setAll l
  let relock := (v.get (R.rhPclkKhz n) != h.get (R.rhPclkKhz n)) || (v.flag (R.rhEn n) && !h.flag (R.rhEn n))
  let gen := h.get (R.ttGen (v.get (R.rhTunnel n)))
  if h.flag (R.rhEn n) ∧ ¬ (h.head n).relock then h.modHead n (fun x => { x with setup := some (l, relock, gen) })
  else h.applySetup n l relock gen

/-- The fields that a RASTER.SETUP image gives a head: WIT_EN and WIT_ACT stay (R628). -/
def setupFields (n : Nat) (ws : List Nat) : List (Fld × Nat) :=
  (imagesAt rowsRh (0x3100000 + n * 0x100) ws).filter
    (fun p => p.1.key != (R.rhWitEn n).key && p.1.key != (R.rhWitAct n).key)

/-- Is the setup image free of reserved encodings and bits? The witness bits are ignored. -/
def setupLegal (n : Nat) (ws : List Nat) : Bool :=
  match ws with
  | [] => false
  | w :: l => ws.length == 17 && imageLegal rowsRh (0x3100000 + n * 0x100) (w - bits w 21 19 * 2 ^ 19) &&
    imagesLegal rowsRh (0x3100004 + n * 0x100) l

/-- What RASTER.SETUP would be refused with (R398); `dp` is an output and its MED_DP_CFG image. -/
def Hub.setupStatus (h : Hub) (m n : Nat) (ws : List Nat) (dp : Option (Nat × Nat)) : Nat :=
  let fs := setupFields n ws
  let dfs := match dp with | some (d, w) => imageAt rowsDp (0x3120000 + d * 0x40) w | none => []
  let v := (h.setAll fs).setAll dfs
  -- the other heads as their pending setups will leave them
  let all := (List.range 8).foldl (fun v k => if k = n then v else
    match (h.head k).setup with | some (l, _) => v.setAll l | none => v) v
  let t := v.get (R.rhTunnel n)
  let sink := v.get (R.rhSink n)
  -- the stream of the head that drives the output named, where that is another head
  let dpBad := match dp with
    | some (d, _) => let k := v.get (R.dpSrc d); v.flag (R.dpEn d) && v.get (R.rhSink k) == d + 1 && !v.dpFits k d
    | none => false
  let dpHead := match dp with | some (d, _) => h.holds m (tgtHead (h.get (R.dpSrc d))) 3 | none => true
  let dpLegal := match dp with | some (d, w) => imageLegal rowsDp (0x3120000 + d * 0x40) w | none => true
  if !h.holds m (tgtHead n) 3 || !dpHead then stDenied
  else if !setupLegal n ws || !dpLegal || !v.rasterTiming n then stBadArg
  else if v.get (R.rhWmask n) ≠ h.get (R.rhWmask n) ∧ ¬ h.isOwner m then stNotOwner
  else if sink = 3 ∧ h.tunIs t tOpen ∧ h.get (R.ttOwn t) ≠ m then stNotOwner
  else if sink = 3 ∧ ¬ (h.tunIs t tOpen ∧ h.get (R.ttClass t) = 2 ∧ h.get (R.ttIngr t) = codeE0) then stBadArg
  else if (sink = 1 ∨ sink = 2) ∧ v.flag (R.dpEn (sink - 1)) ∧ v.get (R.dpSrc (sink - 1)) = n ∧ ¬ v.dpFits n (sink - 1) then stBadArg
  else if dpBad then stBadArg
  else if !all.fetchOk || !v.twoLines n then stNoResource
  else stOk

/-- RASTER.SETUP (R398, R628). With DPW it waits for the link to train (R415). -/
def Hub.rasterSetup (h : Hub) (m n : Nat) (ws : List Nat) (dp : Option (Nat × Nat)) : Ans × Hub :=
  let s := h.setupStatus m n ws dp
  if s ≠ stOk then h.refuse s
  else match dp with
    | none => (h.takeSetup n (setupFields n ws)).ok []
    | some (d, w) =>
      if bit w 31 then
        ({ parked := true }, (h.set (R.dpLstate d) 1).emit (.words "DP_TRAIN" d [w]))
      else
        let h := (h.setAll (imageAt rowsDp (0x3120000 + d * 0x40) w)).setAll [(R.dpLstate d, 0)]
        ((h.emit (.words "DP_IDLE" d [])).takeSetup n (setupFields n ws)).ok [h.wordAt rowsDp (0x3120004 + d * 0x40)]

/-- A setup with DPW completes: the link has trained or failed (R415). -/
def Hub.rasterSetupDone (h : Hub) (n : Nat) (ws : List Nat) (d w : Nat) (trained : Bool) : Ans × Hub :=
  if trained then
    let h := (h.setAll (imageAt rowsDp (0x3120000 + d * 0x40) w)).setAll
      [(R.dpLstate d, 2), (R.dpTrimStop d, 0)]
    let h := h.takeSetup n (setupFields n ws)
    h.ok [h.wordAt rowsDp (0x3120004 + d * 0x40)]
  else (h.setAll [(R.dpLstate d, 0), (R.dpEn d, 0)]).refuse stNoResource

/-! Latch points and flips (R403, R409). -/

/-- The cause for which pending addresses fail R403; 0 where they pass (Table 13-6). -/
def Hub.flipError (h : Hub) (n : Nat) : Nat :=
  let l := h.pendAddrs n
  let ps := List.range (h.planes n)
  let span := fun p => h.strideOf n p * h.planeLines n p
  let inWin := fun p w => decide (lp5Base ≤ l.getD p 0) && h.winHas w (l.getD p 0 - lp5Base) (span p)
  if ps.any (fun p => l.getD p 0 == 0) || (h.planes n == 2 && (l.getD 2 0 != 0)) then 1
  else if ps.any (fun p => decide (h.strideOf n p < h.bpl n p)) then 4
  else if !ps.all (fun p => (List.range 16).any (fun w => bit (h.get (R.rhWmask n)) w && inWin p w)) then
    (if ps.all (fun p => (List.range 16).any (fun w => bit (h.get (R.rhWmask n)) w &&
        decide (lp5Base ≤ l.getD p 0) && h.winHas w (l.getD p 0 - lp5Base) 1)) then 4 else 2)
  else if !ps.all (fun p => (List.range 16).any (fun w =>
      bit (h.get (R.rhWmask n)) w && inWin p w && h.winGrants masHead w false)) then 3
  else 0

/-- An armed flip is checked and latched (R409). -/
def Hub.latchFlip (h : Hub) (n : Nat) : Hub :=
  if !h.flag (R.flipArmBit n) then h
  else
    let e := h.flipError n
    if e = 0 then
      (((h.setCur n (h.pendAddrs n)).setAll [(R.flipDoneId n, h.get (R.flipFlipId n)), (R.flipArmBit n, 0)])).incWrap (R.flipCnt n)
    else h.setAll [(R.flipArmBit n, 0), (R.flipErr n, 1), (R.flipEcode n, e)]

/-- The addresses that the new frame is scanned from (R409, R420, R421, R424). -/
def Hub.latchAddrs (h : Hub) (n : Nat) : Hub :=
  let h := if (h.head n).safe ≠ 0 ∧ ¬ h.safe then h.modHead n (fun x => { x with safe := 0 }) else h
  let x := h.head n
  if x.safe ≠ 0 then h
  else if x.react ≠ 0 ∧ x.resume then
    let h := (h.modHead n (fun x => { x with react := 0, resume := false, before := none })).set (R.witReact n) 0
    (h.setCur n (x.before.getD (h.curAddrs n))).latchFlip n
  else if x.react = 1 then
    match x.good with
    | some l => h.setCur n l
    | none => h.modHead n (fun x => { x with react := 2 })
  else if x.react = 2 then h
  else h.latchFlip n

/-- TRIM of a lane. -/
def fTrim (d l : Nat) : Fld :=
  match l with | 0 => R.dpTrim0 d | 1 => R.dpTrim1 d | 2 => R.dpTrim2 d | _ => R.dpTrim3 d

/-- Move a lane's trim. -/
def Hub.trimBy (h : Hub) (d l : Nat) (k : Int) : Hub :=
  h.set (fTrim d l) (ofSigned 5 (toSigned 5 (h.get (fTrim d l)) + k))

/-- The main stream attributes of a frame on a DP output (R406, Table 13-3): the timing and the sync polarities. -/
def Hub.sendMsa (h : Hub) (n : Nat) : Hub :=
  match h.dpOf n with
  | none => h
  | some d => h.emit (.words "DP_MSA" d ([R.rhHact n, R.rhHtotal n, R.rhHfp n, R.rhHsync n, R.rhVact n, R.rhVtotal n, R.rhVfp n,
      R.rhVsync n, R.rhHpol n, R.rhVpol n, R.rhObpc n].map h.get))

/-- Trim steps of the output that a head drives apply (R422). -/
def Hub.latchTrim (h : Hub) (n : Nat) : Hub :=
  match h.dpOf n with
  | none => h
  | some d =>
    let x := h.dpX d
    (h.each x.steps (fun h s => h.trimBy d s.1 s.2)).setDpX d { steps := [], taken := x.steps }

/-- LATCH_POINT (R409): a pending setup and an armed flip apply, and fetch starts for the next frame. -/
def Hub.latchPoint (h : Hub) (n : Nat) : Hub :=
  if !h.flag (R.rhEn n) || (h.head n).relock then h
  else
    let h := (h.obsEvent 3 (8 + n)).modHead n (fun x => { x with fillAll := false, fillRest := false })
    let h := match (h.head n).setup with
      | some (l, r, g) => h.applySetup n l r g
      | none => h
    if !h.flag (R.rhEn n) then h
    else
      let h := ((h.latchAddrs n).latchTrim n).sendMsa n
      let gone (a : Lp5Acc) : Bool := a.client == n
      let h := { h with lp5 := { h.lp5 with queue := h.lp5.queue.filter (fun a => !gone a), reads := h.lp5.reads.filter (fun a => !gone a) } }
      h.modHead n (fun x => { x with latchAt := h.now, scan := 0, seg := 0, under := none, dropped := false, crc := 0xFFFFFFFF,
                                     got := [], next0 := (0, 0), next1 := (0, 0), next2 := (0, 0) })

/-- PIXEL_PLL_LOCK (R401): fill goes on until the next latch point. -/
def Hub.pllLock (h : Hub) (n : Nat) : Hub :=
  if (h.head n).relock then h.modHead n (fun x => { x with relock := false, fillAll := true, scan := 0, seg := 0, latchAt := h.now }) else h

/-- A write of ARM and FLIP_ID (R408). -/
def Hub.flipArm (h : Hub) (n id : Nat) (arm : Bool) : Hub := h.setAll [(R.flipArmBit n, b2n arm), (R.flipFlipId n, id)]

/-- A write to a pending address register clears ARM (R408). -/
def Hub.flipWrite (h : Hub) (f : Fld) (n v : Nat) : Hub := (h.set f v).set (R.flipArmBit n) 0

/-! The witness (R420, R421). -/

/-- The trim steps of a frame with a mismatch are undone (R422), once. -/
def Hub.undoTrim (h : Hub) (n : Nat) (steps : List (Nat × Int)) : Hub :=
  match h.dpOf n with
  | none => h
  | some d =>
    let x := h.dpX d
    let h := (h.each steps (fun h s => h.trimBy d s.1 (-s.2))).setDpX d
      { steps := [], taken := if x.taken = steps then [] else x.taken }
    h.modHead n (fun x => { x with refs := x.refs.map (fun r => if r.steps = steps then { r with steps := [] } else r) })

/-- A reaction of head `n` comes into force: 1 freeze, 2 blank (Table 13-4). -/
def Hub.react (h : Hub) (n k : Nat) : Hub :=
  let before := if (h.head n).react = 0 then some (h.curAddrs n) else (h.head n).before
  (h.modHead n (fun x => { x with react := k, before := before, resume := false })).set (R.witReact n) 1

/-- A mismatch: counted and recorded, and the head reacts (Table 13-4). -/
def Hub.mismatch (h : Hub) (n : Nat) (r : RefBand) (seen : Nat) : Hub :=
  let h := (h.inc (R.witBandsBad n)).setAll [(R.witBand n, r.band), (R.witRefCrc n, r.crc), (R.witWitCrc n, seen)]
  let h := (h.raise (srcWitMism n) r.band).modHead n (fun x => { x with bad := true })
  let h := h.undoTrim n r.steps
  match h.get (R.rhWitAct n), (h.head n).react with
  | 0, _ => h
  | 1, 0 => (h.react n 1).modHead n (fun x => { x with fillRest := true })
  | _, _ => h.react n 2

/-- WITNESS_BAND_COMPARE: the oldest band that has left the pipeline is compared. `seen` is the witness CRC, or none
where the sampler has not seen all pixels in time: the WIT_CRC then recorded is a free value (assumption 224). -/
def Hub.bandCompare (h : Hub) (n : Nat) (seen : Option Nat) : Hub :=
  match (h.head n).refs with
  | [] => h
  | r :: rest =>
    let h := h.modHead n (fun x => { x with refs := rest })
    if !h.flag (R.rhWitEn n) then h
    else
      let h := if seen = some r.crc then h.inc (R.witBandsOk n)
        else
          let (w, h) := match seen with | some w => (w, h) | none => h.draw 32
          (h.mismatch n r w).obsEvent 3 (24 + n)
      if r.last then
        h.modHead n (fun x => { x with bad := false, good := if x.bad then x.good else some r.addrs })
      else h

/-- A reaction is to end at the next latch point: RESUME, or the quench of WIT_MISM (R421). -/
def Hub.resumeHead (h : Hub) (n : Nat) : Hub :=
  if (h.head n).react = 0 then h else h.modHead n (fun x => { x with resume := true })

/-- A containment that blanked head `n` ends: the head resumes at its next latch point (Table 18-1, R421). -/
def Hub.headLeft (h : Hub) (n : Nat) : Hub := h.modHead n (fun x => { x with fillRest := true })

/-- Safe state reaches the heads (R424). -/
def Hub.rasterSafe (h : Hub) : Hub :=
  h.each (List.range 8) (fun h n => h.headSafe n)

/-- RASTER.WITNESS, SET (R419). -/
def Hub.witnessSet (h : Hub) (m n : Nat) (en : Bool) (act : Nat) : Ans × Hub :=
  let sink := h.get (R.rhSink n)
  if !h.holds m (tgtHead n) 3 then h.refuse stDenied
  else if act ≥ 3 ∨
      (en ∧ ¬ (sink = 1 ∨ sink = 2 ∨ (sink = 3 ∧ isLine (h.get (R.ttEgr (h.get (R.rhTunnel n))))))) then
    h.refuse stBadArg
  else ((h.setAll [(R.rhWitEn n, b2n en), (R.rhWitAct n, act)]).modHead n (fun x => if en then x else { x with refs := [] })).ok []

/-- RASTER.WITNESS, RESUME. -/
def Hub.witnessResume (h : Hub) (m n : Nat) : Ans × Hub :=
  if !h.holds m (tgtHead n) 3 then h.refuse stDenied else (h.resumeHead n).ok []

/-- RASTER.WITNESS, QUERY (R622). -/
def Hub.witnessQuery (h : Hub) (m n : Nat) : Ans × Hub :=
  if !h.holds m (tgtHead n) 1 then h.refuse stDenied else h.ok (h.wordsAt rowsWit (0x3110000 + n * 0x40) 4)

/-- STAT of a head: LINE and VBLANK from the time since the latch point (R406, Table 13-7). -/
def Hub.headLine (h : Hub) (n : Nat) : Nat :=
  let vt := h.get (R.rhVtotal n)
  if !h.flag (R.rhEn n) || vt == 0 then 0
  else (h.get (R.rhVact n) + (h.now - (h.head n).latchAt) * h.get (R.rhPclkKhz n) / (1000000 * h.get (R.rhHtotal n))) % vt

/-- LINE and VBLANK are brought up to date before a head is read. -/
def Hub.settleLines (h : Hub) (n : Nat) : Hub :=
  let l := h.headLine n
  h.setAll [(R.rhLine n, l), (R.rhVblank n, b2n (h.flag (R.rhEn n) && decide (h.get (R.rhVact n) ≤ l)))]

/-- RASTER.SETUP, QUERY (R622). -/
def Hub.rasterQuery (h : Hub) (m n d : Nat) : Ans × Hub :=
  if !h.holds m (tgtHead n) 1 then h.refuse stDenied
  else
    let v := h.settleLines n
    let flip := rowsFlip ++ rowsFlipP
    h.ok (v.wordsAt rowsRh (0x3100000 + n * 0x100) 21 ++ v.wordsAt flip (0x300101C + n * 0x100) 2 ++
      v.wordsAt flip (0x3001030 + n * 0x100) 6 ++ v.wordsAt rowsDp (0x3120000 + d * 0x40) 4)

/-! DP outputs (R416, R422, R423). -/

/-- The output is lost: LSTATE and DP_LINK. -/
def Hub.dpLost (h : Hub) (d : Nat) : Hub := (h.set (R.dpLstate d) 3).raise (srcDpLink d) 0

/-- Link training of an output begins, with its MED_DP_CFG (R415, R416). -/
def Hub.dpTrain (h : Hub) (d : Nat) : Hub := h.emit (.words "DP_TRAIN" d [h.wordAt rowsDp (0x3120000 + d * 0x40)])

/-- The Ohmale core trains an output again whose containment has ended, and it succeeds (Table 18-1, R423). -/
def Hub.dpRetrained (h : Hub) (d : Nat) : Hub :=
  if !h.flag (R.dpEn d) || h.dpContained d then h
  else (h.setAll [(R.dpLstate d, 2), (R.dpTrimStop d, 0)]).dpTrain d

/-- IRQ_HPD: the link status is read, and the link retrained where the sink has lost lock (R416). -/
def Hub.irqHpd (h : Hub) (d : Nat) (lockLost retrained : Bool) : Hub :=
  let h := h.inc (R.dpIrqHpd d)
  if !lockLost || h.get (R.dpLstate d) != 2 then h
  else
    let h := (h.inc (R.dpRetrain d)).dpTrain d
    if retrained then h.set (R.dpTrimStop d) 0 else h.dpLost d

/-- HPD_UNPLUG: a low level of more than 2 ms (R416). -/
def Hub.hpdUnplug (h : Hub) (d : Nat) : Hub :=
  let h := h.set (R.dpHpd d) 0
  if h.flag (R.dpEn d) then h.dpLost d else h

/-- May output `d` be trimmed in this tick (R422, R423)? -/
def Hub.mayTrim (h : Hub) (d : Nat) : Bool :=
  let n := h.get (R.dpSrc d)
  h.flag (R.dpEn d) && h.flag (R.dpTrimEn d) && (h.get (R.dpLstate d) == 2) && ((h.head n).react == 0) && !(h.head n).bad

/-- One trim step of a lane whose swing is off by more than 1.5 %: `up` is the direction that lessens the error. -/
def Hub.trimLane (h : Hub) (d l : Nat) (up : Bool) : Hub :=
  let k : Int := if up then 1 else -1
  let v := toSigned 5 (h.get (fTrim d l)) + k
  let x := h.dpX d
  if !h.mayTrim d || bit (h.get (R.dpTrimStop d)) l || x.steps.any (fun s => s.1 == l) then h
  else if (h.get (R.dpTrimMax d) : Int) < v ∨ v < -(h.get (R.dpTrimMax d) : Int) then
    let s := setBit (h.get (R.dpTrimStop d)) l
    (h.set (R.dpTrimStop d) s).raise (srcDpTrim d) s
  else h.setDpX d { x with steps := x.steps ++ [(l, k)] }

/-- Task 9 (R61, Table 13-7): FETCH_KIB and LTOL_MIN of every head. -/
def Hub.fetchAccount (h : Hub) : Hub :=
  h.each (List.range 8) (fun h n =>
    let x := h.head n
    (h.setAll [(R.rhFetchKib n, min 0xFFFF (x.fetched / 1024)), (R.rhLtolMin n, min (h.get (R.rhLtolMin n)) x.low)]).modHead n
      (fun x => { x with fetched := 0, low := 0xFFFF }))

end Sys2Proof.Machine
end

