-- ==== Sys2Proof/Machine/DmaOps.lean ====
section
/-!
DEFINITION. The DMA engine (chapter 14): programs, instructions, request lines, events, completion and errors, and the
return of LP5 reads to their clients.
-/

namespace Sys2Proof.Machine

open Sys2Proof

/-! Channel states (Table 14-8) and error codes (Table 14-7). -/

def dsEmpty : Nat := 0
def dsLoaded : Nat := 1
def dsRunning : Nat := 2
def dsStopping : Nat := 3
def dsDone : Nat := 4
def dsStopped : Nat := 5
def dsError : Nat := 6
def deAccess : Nat := 1
def deAlign : Nat := 2
def deStale : Nat := 3
def deTunnel : Nat := 4
def deTimeout : Nat := 5
def deTarget : Nat := 6
def deStopped : Nat := 7

/-- A channel beside its registers. -/
def Hub.dmaX (h : Hub) (c : Nat) : DmaX := tabGet h.media.dma (k1 c) {}

/-- Change a channel. -/
def Hub.modDma (h : Hub) (c : Nat) (f : DmaX → DmaX) : Hub :=
  { h with media := { h.media with dma := tabSet h.media.dma (k1 c) (f (h.dmaX c)) {} } }

/-- Pending count of a request line (Table 14-12). -/
def fPend (l : Nat) : Fld :=
  match l % 8 with
  | 0 => R.dmaReqPend0 (l / 8) | 1 => R.dmaReqPend1 (l / 8) | 2 => R.dmaReqPend2 (l / 8) | 3 => R.dmaReqPend3 (l / 8)
  | 4 => R.dmaReqPend4 (l / 8) | 5 => R.dmaReqPend5 (l / 8) | 6 => R.dmaReqPend6 (l / 8) | _ => R.dmaReqPend7 (l / 8)

/-- Counter of a software event. -/
def fSem (e : Nat) : Fld :=
  match e % 4 with
  | 0 => R.dmaSemSem0 (e / 4) | 1 => R.dmaSemSem1 (e / 4) | 2 => R.dmaSemSem2 (e / 4) | _ => R.dmaSemSem3 (e / 4)

/-- Iterations left of the loop at depth `d`. -/
def fLoop (c d : Nat) : Fld :=
  match d with | 0 => R.dmaLoop0 c | 1 => R.dmaLoop1 c | 2 => R.dmaLoop2 c | _ => R.dmaLoop3 c

/-- Master ID of a channel's accesses (R444). -/
def dmaMaster (c : Nat) : Nat := 8 + c / 16

/-! Instructions (Tables 14-3 and 14-4). -/

/-- The instruction words. -/
def iw (i : List Nat) (k : Nat) : Nat := i.getD k 0

/-- OP of an instruction. -/
def iOp (i : List Nat) : Nat := bits (iw i 0) 31 28

/-- A MOVE, as Table 14-4 lays it out. -/
structure Move where
  pace : Bool
  req : Nat
  smode : Nat
  dmode : Nat
  sspc : Nat
  dspc : Nat
  sw : Nat
  dw : Nat
  count : Nat
  saddr : Nat
  daddr : Nat
deriving DecidableEq, Repr

/-- Read a MOVE. -/
def moveOf (i : List Nat) : Move :=
  let w := iw i 0
  { pace := bit w 27, req := bits w 26 20, smode := bits w 19 18, dmode := bits w 17 16, sspc := bits w 15 14,
    dspc := bits w 13 12, sw := 2 ^ bits w 11 9, dw := 2 ^ bits w 8 6,
    count := bits w 5 0 * 2 ^ 16 + bits (iw i 3) 15 0,
    saddr := bits (iw i 3) 31 24 * 2 ^ 32 + iw i 1, daddr := bits (iw i 3) 23 16 * 2 ^ 32 + iw i 2 }

/-- May a program name the request line: lines 104 to 127 fail (Table 14-5)? -/
def lineLegal (l : Nat) : Bool := decide (l ≤ 103)

/-- Is a MOVE legal, as far as it can be checked at load (R448, R449, Table 14-4)? -/
def Move.legal (m : Move) : Bool :=
  (if m.pace then lineLegal m.req else m.req == 0) && m.smode != 3 && m.dmode != 3 && decide (m.sspc ≤ 1) && decide (m.dspc ≤ 2) &&
  decide (m.sw ≤ 64) && decide (m.dw ≤ 64) && (m.smode != 1 || m.saddr == 0) && (m.dmode != 1 || m.daddr == 0) &&
  m.count % m.sw == 0 && m.count % m.dw == 0 && (m.smode == 1 || m.saddr % m.sw == 0) &&
  (m.sspc != 1 || decide (m.saddr < 65536)) && (m.dspc != 1 || decide (m.daddr < 65536)) &&
  (if m.dspc = 2 then m.dmode == 0 && m.dw == 1 && decide (m.daddr < 2 ^ 18) else m.dmode == 1 || m.daddr % m.dw == 0)

/-- Is an instruction legal by itself (R446)? -/
def instrLegal (i : List Nat) : Bool :=
  let w := iw i 0
  let rest := iw i 1 == 0 && iw i 2 == 0 && iw i 3 == 0
  match iOp i with
  | 0 => w == 0 && rest
  | 1 => (moveOf i).legal
  | 2 => bits w 27 24 == 0 && rest
  | 3 => bits w 27 0 == 0 && rest
  | 4 => bits w 26 9 == 0 && iw i 2 == 0 && iw i 3 == 0 &&
      (if bit w 27 then decide (bits w 8 0 < 320) else lineLegal (bits w 8 0))
  | 5 => bits w 26 6 == 0 && iw i 2 == 0 && iw i 3 == 0 && (if bit w 27 then bits w 5 0 == 0 else iw i 1 == 0)
  | 6 => w == 6 * 2 ^ 28 && rest
  | _ => false

/-- The first offending instruction of a program: an illegal one, a loop nested too deep or without its match, or a
last one that is not END (R445, R450). `open_` holds the indices of open LOOPs, innermost first. -/
def progBad : List (List Nat) → Nat → List Nat → Option Nat
  | [], _, [] => none
  | [], _, l => l.getLast?
  | i :: rest, k, open_ =>
    if !instrLegal i then some k
    else match iOp i with
      | 2 => if 4 ≤ open_.length then some k else progBad rest (k + 1) (k :: open_)
      | 3 => if open_.isEmpty then some k else progBad rest (k + 1) open_.tail
      | op => if rest.isEmpty && op != 0 then some k else progBad rest (k + 1) open_

/-- The request lines that a program names (R451). -/
def progLines (p : List (List Nat)) : List Nat :=
  p.filterMap (fun i =>
    if iOp i = 1 ∧ (moveOf i).pace then some (moveOf i).req
    else if iOp i = 4 ∧ ¬ bit (iw i 0) 27 then some (bits (iw i 0) 8 0)
    else none)

/-! The program store (R445). -/

/-- Room taken in the store by the other channels: start and length. -/
def Hub.storeUse (h : Hub) (c : Nat) : List (Nat × Nat) :=
  (List.range 64).filterMap (fun k => if k = c ∨ h.get (R.dmaPlen k) = 0 then none else some (h.get (R.dmaPstart k), h.get (R.dmaPlen k)))

/-- The lowest place with room for `n` instructions (assumption 16). -/
def Hub.storePlace (h : Hub) (c n : Nat) : Option Nat :=
  let u := h.storeUse c
  let fits (a : Nat) : Bool := decide (a + n ≤ 4096) && u.all (fun x => decide (a + n ≤ x.1) || decide (x.1 + x.2 ≤ a))
  ((0 :: u.map (fun x => x.1 + x.2)).filter fits).foldl (fun r a => match r with | none => some a | some b => some (min a b)) none

/-- STORE_FREE follows the programs held. -/
def Hub.settleStore (h : Hub) : Hub :=
  h.set R.dmaCntStoreFree (4096 - ((List.range 64).map (fun c => h.get (R.dmaPlen c))).sum)

/-! Records, errors and completion (R453, R454, R456). -/

/-- A DMA record goes to the loader, or is counted in NOTE_LOST (R453, Table 14-6). -/
def Hub.dmaRecord (h : Hub) (c evt ecode value : Nat) : Hub :=
  let m := h.get (R.dmaLoader c)
  if h.canNotify m then
    h.addRecord m ([0x13 * 2 ^ 24 + evt * 2 ^ 20 + ecode * 2 ^ 16 + c, value % 2 ^ 32] ++ twoWords h.now)
  else h.inc R.dmaCntNoteLost

/-- A channel becomes EMPTY and its program is freed. -/
def Hub.dmaEmpty (h : Hub) (c : Nat) : Hub :=
  ((h.setAll [(R.dmaState c, dsEmpty), (R.dmaPlen c, 0), (R.dmaPstart c, 0)]).modDma c (fun _ => {})).settleStore

/-- STOPPING ends when every write response is in (Table 14-8). -/
def Hub.dmaSettle (h : Hub) (c : Nat) : Hub :=
  let x := h.dmaX c
  if !x.outst.isEmpty then h
  else if x.free then h.dmaEmpty c
  else if h.get (R.dmaState c) ≠ dsStopping then h
  else if x.err then
    let h := (h.set (R.dmaState c) dsError).dmaRecord c 3 (h.get (R.dmaEcode c)) (h.get (R.dmaPc c))
    h.raise srcDmaErr c
  else h.set (R.dmaState c) dsStopped

/-- A channel errs, or is stopped: no new access, and what is not yet written is lost (R457). -/
def Hub.dmaStopWith (h : Hub) (c ecode : Nat) : Hub :=
  let h := h.setAll [(R.dmaState c, dsStopping), (R.dmaEcode c, ecode)]
  (h.modDma c (fun x => { x with waiting := none, frame := [], err := ecode != deStopped })).dmaSettle c

/-- A warm reset, or a tunnel-layer reset of the loader (Table 14-8). -/
def Hub.dmaRelease (h : Hub) (c : Nat) : Hub :=
  if h.get (R.dmaState c) = dsEmpty then h
  else
    let h := if h.get (R.dmaState c) = dsRunning then h.set (R.dmaState c) dsStopping else h
    (h.modDma c (fun x => { x with free := true, err := false, waiting := none, frame := [] })).dmaSettle c

/-- Does the channel run? -/
def Hub.dmaRuns (h : Hub) (c : Nat) : Bool := h.get (R.dmaState c) == dsRunning

/-- The instruction at the PC of a running channel, if it has the OP given. -/
def Hub.dmaAt (h : Hub) (c op : Nat) : Option (List Nat) :=
  if !h.dmaRuns c then none
  else match (h.dmaX c).prog[h.get (R.dmaPc c)]? with
    | some i => if iOp i = op then some i else none
    | none => none

/-- The PC moves on. -/
def Hub.dmaNext (h : Hub) (c : Nat) : Hub := h.set (R.dmaPc c) (h.get (R.dmaPc c) + 1)

/-- DMA_END (R454). -/
def Hub.dmaEnd (h : Hub) (c : Nat) : Hub :=
  match h.dmaAt c 0 with
  | none => h
  | some _ =>
    if !(h.dmaX c).outst.isEmpty then h
    else
      let h := h.set (R.dmaState c) dsDone
      if h.flag (R.dmaNoteEnd c) then h.dmaRecord c 2 0 0 else h

/-- A stop (Table 14-8). A channel that stands at END with every write response in has ended (Table 14-9). -/
def Hub.dmaHalt (h : Hub) (c : Nat) : Hub :=
  if !h.dmaRuns c then h
  else if (h.dmaAt c 0).isSome && (h.dmaX c).outst.isEmpty then h.dmaEnd c
  else h.dmaStopWith c deStopped

/-! Start and stop (R451, R456). -/

/-- Is a request line of the channel's program named by another started channel (R451)? -/
def Hub.dmaClash (h : Hub) (c : Nat) : Bool :=
  let mine := progLines (h.dmaX c).prog
  (List.range 64).any (fun k => k != c && (h.get (R.dmaState k) == dsRunning || h.get (R.dmaState k) == dsStopping) &&
    (progLines (h.dmaX k).prog).any (fun l => mine.contains l))

/-- Is the channel kept from starting by the containment of DMA_ERR (Table 18-1)? -/
def Hub.dmaHeldOff (h : Hub) (c : Nat) : Bool := h.contained srcDmaErr && (h.blocksOf srcDmaErr).contains c

/-- May the channel be started from its state? -/
def Hub.dmaStartable (h : Hub) (c : Nat) : Bool :=
  let s := h.get (R.dmaState c)
  s == dsLoaded || s == dsDone || s == dsStopped || s == dsError

/-- Start (Table 14-8). -/
def Hub.dmaStart (h : Hub) (c : Nat) : Hub :=
  let h := h.setAll [(R.dmaState c, dsRunning), (R.dmaPc c, 0), (R.dmaEcode c, 0), (R.dmaDepth c, 0), (R.dmaLoop0 c, 0),
    (R.dmaLoop1 c, 0), (R.dmaLoop2 c, 0), (R.dmaLoop3 c, 0), (R.dmaSptrLo c, 0), (R.dmaSptrHi c, 0), (R.dmaDptrLo c, 0),
    (R.dmaDptrHi c, 0)]
  let h := h.setAll ((progLines (h.dmaX c).prog).map (fun l => (fPend l, 0)))
  h.modDma c (fun x => { x with loops := [], waiting := none, moved := 0, frame := [], err := false })

/-- DMA.START (R444, R456). -/
def Hub.dmaStartCmd (h : Hub) (m c : Nat) : Ans × Hub :=
  if h.get (R.dmaState c) = dsEmpty ∨ h.get (R.dmaLoader c) ≠ m then h.refuse stNotOwner
  else if !h.dmaStartable c then h.ok []
  else if h.dmaClash c || h.dmaHeldOff c then h.refuse stBusy
  else (h.dmaStart c).ok []

/-- DMA.STOP (R444, R628). -/
def Hub.dmaStopCmd (h : Hub) (m c : Nat) (force : Bool) : Ans × Hub :=
  let mine := h.get (R.dmaState c) != dsEmpty && (h.get (R.dmaLoader c) == m)
  if !(mine || (force && h.isOwner m)) then h.refuse stNotOwner
  else (h.dmaHalt c).ok []

/-- DMA.STOP, QUERY (R622). -/
def Hub.dmaQuery (h : Hub) (m c : Nat) : Ans × Hub :=
  if !h.holds m (tgtDma (c / 16)) 1 then h.refuse stDenied
  else h.ok (h.wordsAt rowsDma (0x3300000 + c * 0x40) 10 ++ h.wordsAt rowsDmaCnt 0x3301080 2)

/-- A doorbell write with STOP or START (R456). -/
def Hub.dmaDoorbell (h : Hub) (m c : Nat) (stop : Bool) : Hub :=
  if h.get (R.dmaState c) = dsEmpty ∨ h.get (R.dmaLoader c) ≠ m then h.inc R.dmaCntDbRefuse
  else if stop then h.dmaHalt c
  else if !h.dmaStartable c then h
  else if h.dmaClash c || h.dmaHeldOff c then h.inc R.dmaCntDbRefuse
  else h.dmaStart c

/-! Request lines and events (R451, R452). -/

/-- The channels that wait in a WAIT for which `p` holds. -/
def Hub.dmaWaiters (h : Hub) (p : List Nat → Bool) : List Nat :=
  (List.range 64).filter (fun c => (h.dmaX c).waiting.isSome && (match h.dmaAt c 4 with | some i => p i | none => false))

/-- A WAIT completes. -/
def Hub.dmaWaitOver (h : Hub) (c : Nat) : Hub := (h.modDma c (fun x => { x with waiting := none })).dmaNext c

/-- DMA_REQUEST: a line is asserted. A WAIT on it consumes the request at once. -/
def Hub.dmaReq (h : Hub) (l : Nat) : Hub :=
  if !lineLegal l then h
  else
    let h := if h.get (fPend l) = 15 then h.inc R.dmaCntReqOvf else h.set (fPend l) (h.get (fPend l) + 1)
    match h.dmaWaiters (fun i => !bit (iw i 0) 27 && bits (iw i 0) 8 0 == l) with
    | [] => h
    | c :: _ => (h.set (fPend l) (h.get (fPend l) - 1)).dmaWaitOver c

/-- A pulse of strike channel `ch` reaches the event inputs (R452): every WAIT on it completes. -/
def Hub.dmaPulse (h : Hub) (ch : Nat) : Hub :=
  h.each (h.dmaWaiters (fun i => bit (iw i 0) 27 && bits (iw i 0) 8 0 == ch)) (fun h c => h.dmaWaitOver c)

/-! Instructions. -/

/-- DMA_WAIT (R451, R452): it consumes what it waits for, or waits. -/
def Hub.dmaWait (h : Hub) (c : Nat) : Hub :=
  match h.dmaAt c 4 with
  | none => h
  | some i =>
    let idx := bits (iw i 0) 8 0
    let wait (h : Hub) : Hub := h.modDma c (fun x => { x with waiting := some (x.waiting.getD h.now) })
    let take (h : Hub) (f : Fld) : Hub := if h.get f = 0 then wait h else (h.set f (h.get f - 1)).dmaWaitOver c
    if !bit (iw i 0) 27 then take h (fPend idx)
    else if idx < 256 then wait h
    else take h (fSem (idx - 256))

/-- DMA_WAIT_TIMEOUT (R452). -/
def Hub.dmaTimeout (h : Hub) (c : Nat) : Hub :=
  match h.dmaAt c 4 with
  | none => h
  | some i => if iw i 1 = 0 ∨ (h.dmaX c).waiting.isNone then h else h.dmaStopWith c deTimeout

/-- DMA_SIGNAL (R452, R453). -/
def Hub.dmaSignal (h : Hub) (c : Nat) : Hub :=
  match h.dmaAt c 5 with
  | none => h
  | some i =>
    if bit (iw i 0) 27 then (h.dmaRecord c 1 0 (iw i 1)).dmaNext c
    else (h.inc (fSem (bits (iw i 0) 5 0))).dmaNext c

/-- Index of the ENDLOOP that matches the LOOP at `k`, found from `k + 1` on. -/
def loopEnd : List (List Nat) → Nat → Nat → Nat
  | [], k, _ => k
  | i :: rest, k, depth =>
    match iOp i with
    | 2 => loopEnd rest (k + 1) (depth + 1)
    | 3 => if depth = 0 then k else loopEnd rest (k + 1) (depth - 1)
    | _ => loopEnd rest (k + 1) depth

/-- DMA_LOOP (R450). -/
def Hub.dmaLoop (h : Hub) (c : Nat) : Hub :=
  match h.dmaAt c 2 with
  | none => h
  | some i =>
    let pc := h.get (R.dmaPc c)
    let n := bits (iw i 0) 23 0
    if n = 0 then h.set (R.dmaPc c) (loopEnd ((h.dmaX c).prog.drop (pc + 1)) (pc + 1) 0 + 1)
    else
      let d := h.get (R.dmaDepth c)
      ((h.setAll [(fLoop c d, n), (R.dmaDepth c, d + 1)]).modDma c (fun x => { x with loops := x.loops ++ [pc + 1] })).dmaNext c

/-- DMA_ENDLOOP (R450). -/
def Hub.dmaEndloop (h : Hub) (c : Nat) : Hub :=
  match h.dmaAt c 3 with
  | none => h
  | some _ =>
    let d := h.get (R.dmaDepth c) - 1
    let left := h.get (fLoop c d) - 1
    let h := h.set (fLoop c d) left
    if left ≠ 0 then h.set (R.dmaPc c) ((h.dmaX c).loops.getLastD 0)
    else ((h.set (R.dmaDepth c) d).modDma c (fun x => { x with loops := x.loops.dropLast })).dmaNext c

/-- DMA_FENCE (R454). -/
def Hub.dmaFence (h : Hub) (c : Nat) : Hub :=
  match h.dmaAt c 6 with
  | none => h
  | some _ => if (h.dmaX c).outst.isEmpty then h.dmaNext c else h

/-- Is a frame of tunnel `t` still held before its admission at E1? -/
def Hub.e1Holds (h : Hub) (t : Nat) : Bool :=
  h.hearth.held.any (fun e => e.1.i == codeE1 && e.2.any (fun q => q.f.tid == t))

/-- DMA_WRITE_RESPONSE (R454): the frames admitted since have their responses; a FENCE, END or STOPPING may complete. -/
def Hub.dmaResponse (h : Hub) (c : Nat) : Hub :=
  let h := h.modDma c (fun x => { x with outst := x.outst.filter (fun t => h.e1Holds t) })
  ((h.dmaFence c).dmaEnd c).dmaSettle c

/-! MOVE (R447 to R449). -/

/-- Running pointers. -/
def Hub.dmaSptr (h : Hub) (c : Nat) : Nat := h.get (R.dmaSptrHi c) * 2 ^ 32 + h.get (R.dmaSptrLo c)
def Hub.dmaDptr (h : Hub) (c : Nat) : Nat := h.get (R.dmaDptrHi c) * 2 ^ 32 + h.get (R.dmaDptrLo c)

/-- Set the running pointers. -/
def Hub.setPtrs (h : Hub) (c s d : Nat) : Hub :=
  h.setAll [(R.dmaSptrLo c, s), (R.dmaSptrHi c, s / 2 ^ 32), (R.dmaDptrLo c, d), (R.dmaDptrHi c, d / 2 ^ 32)]

/-- What an access of `n` bytes at `a` in a space meets: 0 allowed, or an error code (Table 14-7). -/
def Hub.dmaAccess (h : Hub) (c spc a n : Nat) (wr : Bool) : Nat :=
  if spc = 0 then
    (match h.lp5Verdict { client := clDma, master := dmaMaster c, wr := wr, addr := a, len := n } with
     | 0 => 0 | 1 => deAccess | _ => deTarget)
  else if a + n ≤ 65536 ∧ h.holds (dmaMaster c) tgtEpMem (if wr then 2 else 1) then 0
  else deAccess

/-- Memory key of an address in a space. -/
def spcKey (spc a : Nat) : Nat := if spc = 0 then a else epBase + a

/-- Address of byte `k` of one side of a MOVE: it advances, or stays within the one element in fixed mode. -/
def sideAddr (mode start w k : Nat) : Nat := if mode = 2 then start + k % w else start + k

/-- Read `n` bytes from byte `k` on, element by element of width `w`; an error code stops the read. -/
def State.dmaRead (s : State) (c : Nat) (m : Move) (start : Nat) : Nat → Nat → Nat × List Byte
  | 0, _ => (0, [])
  | n + 1, k =>
    let a := sideAddr m.smode start m.sw k
    let e := if k % m.sw = 0 then (if a % m.sw = 0 then s.hub.dmaAccess c m.sspc a m.sw false else deAlign) else 0
    if e ≠ 0 then (e, [])
    else
      let r := s.dmaRead c m start n (k + 1)
      (r.1, memByte s.mem (spcKey m.sspc a) :: r.2)

/-- An access in space `spc` ends with code `e`: one that LP5 refuses counts in REFUSED (R435). -/
def State.dmaRefused (s : State) (spc e : Nat) : State :=
  if spc = 0 ∧ e = deAccess then { s with hub := s.hub.inc R.lp5Refused } else s

/-- Write bytes from byte `k` on, element by element of width `w`; an error code stops the write. -/
def State.dmaWrite (s : State) (c : Nat) (m : Move) (start : Nat) : List Byte → Nat → Nat × State
  | [], _ => (0, s)
  | b :: rest, k =>
    let a := sideAddr m.dmode start m.dw k
    let e := if k % m.dw = 0 then (if a % m.dw = 0 then s.hub.dmaAccess c m.dspc a m.dw true else deAlign) else 0
    if e ≠ 0 then (e, s.dmaRefused m.dspc e)
    else ({ s with mem := memSet s.mem (spcKey m.dspc a) b }).dmaWrite c m start rest (k + 1)

/-- Count written bytes in KIB. -/
def Hub.dmaCount (h : Hub) (c n : Nat) : Hub :=
  let t := (h.dmaX c).rem + n
  (h.add (R.dmaXferKib c) (t / 1024)).modDma c (fun x => { x with rem := t % 1024 })

/-- Move the bytes from `k` to `stop`, through the holding register of 128 bytes: the answer is an error code. -/
def State.dmaBlocks (s : State) (c : Nat) (m : Move) (src dst stop : Nat) : Nat → Nat → Nat × State
  | 0, _ => (0, s)
  | fuel + 1, k =>
    if stop ≤ k then (0, s)
    else
      let n := min 128 (stop - k)
      let r := s.dmaRead c m src n k
      if r.1 ≠ 0 then (r.1, s.dmaRefused m.sspc r.1)
      else if m.dspc = 2 then
        ({ s with hub := (s.hub.modDma c (fun x => { x with frame := x.frame ++ r.2 })).dmaCount c n }).dmaBlocks c m src dst stop fuel (k + n)
      else
        let w := s.dmaWrite c m dst r.2 k
        if w.1 ≠ 0 then w
        else ({ w.2 with hub := w.2.hub.dmaCount c n }).dmaBlocks c m src dst stop fuel (k + n)

/-- What is wrong with the tunnel of a MOVE: an error code, or 0. All of R449 is judged when the MOVE begins; later, while its
frame is built, the tunnel must stay open under its generation (Table 14-9). -/
def Hub.dmaTunnel (h : Hub) (c : Nat) (m : Move) : Nat :=
  let t := m.daddr % 4096
  if h.tunIs t tOpen ∧ h.get (R.ttGen t) ≠ m.daddr / 4096 % 16 then deStale
  else if h.tunIs t tOpen ∧ (h.dmaX c).moved ≠ 0 then 0
  else if h.tunIs t tOpen ∧ h.get (R.ttClass t) = 5 ∧ h.get (R.ttIngr t) = codeE1 ∧ h.get (R.ttOwn t) = h.get (R.dmaLoader c) ∧
      m.count ≤ h.get (R.ttMaxlen t) then 0
  else deTunnel

/-- The frame of a MOVE is handed to the hearth; its response is its admission (R449). -/
def Hub.dmaFrame (h : Hub) (c : Nat) (m : Move) : Hub :=
  let t := m.daddr % 4096
  let f : Frame := { tid := t, gen := m.daddr / 4096 % 16, cls := 5, first := bit m.daddr 16, last := bit m.daddr 17,
                     seq := h.get (R.runIngSeq t), payload := (h.dmaX c).frame }
  let h := (h.modDma c (fun x => { x with frame := [] })).ingress f codeE1
  if h.e1Holds t then h.modDma c (fun x => { x with outst := x.outst ++ [t] }) else h

/-- Has the staging area of E1 room for a frame of `n` bytes beside what it holds, and what other channels build there (R262,
R449)? -/
def Hub.e1Room (h : Hub) (c n : Nat) : Bool :=
  let built := ((List.range 64).map (fun k =>
    if k = c ∨ (h.dmaX k).frame.isEmpty then 0 else ceilDiv (16 + (h.dmaX k).frame.length) 256)).sum
  !h.stagingFull codeE1 (built + ceilDiv (16 + n) 256)

/-- DMA_MOVE (R447): the whole of a MOVE, or one burst of a paced one (R451). `ecc` is 0, 1 for a corrected and 2 for an
uncorrectable LP5 read (R432). -/
def State.dmaMove (s : State) (c ecc : Nat) : State :=
  let h := s.hub
  match h.dmaAt c 1 with
  | none => s
  | some i =>
    let m := moveOf i
    let x := h.dmaX c
    let src := if m.smode = 1 then h.dmaSptr c else m.saddr
    let dst := if m.dmode = 1 then h.dmaDptr c else m.daddr
    let lp5 := m.sspc = 0 ∨ m.dspc = 0
    if m.count = 0 then { s with hub := h.dmaNext c }
    else if m.dspc = 2 ∧ h.dmaTunnel c m ≠ 0 then { s with hub := h.dmaStopWith c (h.dmaTunnel c m) }
    else if lp5 ∧ (h.get R.lp5Lpstate ≠ 0 ∨ h.lp5.exiting) then { s with hub := { h with lp5 := { h.lp5 with dmaWait := true } } }
    else if m.dspc = 2 ∧ ¬ h.e1Room c m.count then s
    else if m.pace ∧ h.get (fPend m.req) = 0 then s
    else
      let h := if m.pace then h.set (fPend m.req) (h.get (fPend m.req) - 1) else h
      let stop := if m.pace then min m.count (x.moved + 16 * 2 ^ h.get (R.dmaBurst c)) else m.count
      let h := if lp5 then { h with lp5 := { h.lp5 with dmaWait := false, idleSince := h.now } } else h
      let h := if ecc = 1 then h.inc R.lp5EccCe else h
      let s := { s with hub := h }
      if ecc = 2 ∧ m.sspc = 0 then
        { s with hub := ((h.inc R.lp5EccUe).raise srcLp5Ecc (bits src 11 11)).dmaStopWith c deTarget }
      else
        let r := s.dmaBlocks c m src dst stop (m.count / 128 + 1) x.moved
        let s := r.2
        if r.1 ≠ 0 then { s with hub := s.hub.dmaStopWith c r.1 }
        else if stop < m.count then { s with hub := s.hub.modDma c (fun x => { x with moved := stop }) }
        else
          let h := s.hub.modDma c (fun x => { x with moved := 0 })
          let h := h.setPtrs c (if m.smode = 2 then src else src + m.count) (if m.dmode = 2 then dst else dst + m.count)
          let h := if m.dspc = 2 then h.dmaFrame c m else h
          { s with hub := h.dmaNext c }

/-! Loading (R445). -/

/-- The controller is brought to ACTIVE and serves what waits, because a command of the core reads LP5 (R441). -/
def State.lp5Now (s : State) : State :=
  let s := if s.hub.get R.lp5Lpstate ≠ 0 ∨ s.hub.lp5.exiting then { s with hub := s.hub.lp5Awake } else s
  s.lp5Serve

/-- May master `m` read `n` bytes at `a`, in pieces of 16? -/
def Hub.mayRead (h : Hub) (m a n : Nat) : Bool :=
  (List.range (ceilDiv n 16)).all (fun k =>
    h.lp5Verdict { client := clCore, master := m, wr := false, addr := a + 16 * k, len := min 16 (n - 16 * k) } == 0)

/-- The program at an address, as instructions of four words. -/
def progAt (mem : Memory) (a n : Nat) : List (List Nat) :=
  (List.range n).map (fun k => bytesWords (memRead mem (a + 16 * k) 16))

/-- DMA.LOAD (R444, R445, R628). -/
def State.dmaLoad (s : State) (m c burst : Nat) (prio note : Bool) (addr len : Nat) : Ans × State :=
  let h := s.hub
  let out (st : Nat) : Ans × State := ({ status := st }, s)
  let st := h.get (R.dmaState c)
  if !h.holds m (tgtDma (c / 16)) 3 then out stDenied
  else if addr % 16 ≠ 0 ∨ 4096 < len then out stBadArg
  else if len = 0 then out stZeroLen
  else if st = dsRunning ∨ st = dsStopping then out stBusy
  else if !h.mayRead m addr (16 * len) then
    ({ status := stDenied }, { s with hub := if h.lp5Down then h else h.inc R.lp5Refused })
  else match h.storePlace c len with
    | none => out stNoResource
    | some p =>
      let s := s.lp5Now
      let prog := progAt s.mem addr len
      match progBad prog 0 [] with
      | some k => ({ status := stBadArg, fail := k }, s)
      | none =>
        let h := s.hub.setAll [(R.dmaState c, dsLoaded), (R.dmaLoader c, m), (R.dmaPlen c, len), (R.dmaPstart c, p),
          (R.dmaBurst c, burst), (R.dmaPrio c, b2n prio), (R.dmaNoteEnd c, b2n note), (R.dmaEcode c, 0), (R.dmaPc c, 0),
          (R.dmaDepth c, 0)]
        let h := h.modDma c (fun _ => { prog := prog })
        ({}, { s with hub := h.settleStore })

/-! LP5 reads return (R432, R436). -/

/-- LP5_READ_RETURN: the oldest read of a client returns. `ecc` as in DMA_MOVE. -/
def Hub.lp5Return (h : Hub) (client ecc : Nat) : Hub :=
  match h.lp5.reads.find? (fun a => a.client == client) with
  | none => h
  | some a =>
    let h := { h with lp5 := { h.lp5 with reads := h.lp5.reads.erase a } }
    let h := if ecc = 1 then h.inc R.lp5EccCe
      else if ecc = 2 then (h.inc R.lp5EccUe).raise srcLp5Ecc (bits a.addr 11 11) else h
    let ok := ecc != 2
    if client < 8 then h.headData a ok
    else if client = clBridge then
      (if a.node ≠ 0 then h.nodeData a ok
       else
         let b := h.bridge
         let b : Bridge := { b with
           done := b.done ++ [{ num := a.num, off := a.off, status := if ok then 0 else 2, data := if ok then a.data else [] }] }
         { h with bridge := b })
    else h.emit (.words "LP5_CORE" (if ok then 0 else 2) (a.data.map (fun b => b.toNat)))

/-- LP5_ACCESS of the Ohmale core (master 7). -/
def Hub.coreAccess (h : Hub) (wr : Bool) (addr len : Nat) (data : List Byte) : Hub :=
  h.lp5Issue { client := clCore, master := 7, wr := wr, addr := addr, len := if wr then data.length else len, data := data }

end Sys2Proof.Machine
end

