-- ==== Sys2Proof/Machine/PowerOps.lean ====
section
/-!
DEFINITION. Feeds, stages, the start budget, trips, and converter tempering (chapter 17).
-/

namespace Sys2Proof.Machine

open Sys2Proof

/-! Stage states (Table 17-4) and cause bits (Table 17-7). -/

def sgOff : Nat := 0
def sgWait : Nat := 1
def sgInrush : Nat := 2
def sgOn : Nat := 3
def sgRetry : Nat := 4
def sgLatched : Nat := 5
def sgSink : Nat := 6
def caInrTmo : Nat := 0
def caCurve : Nat := 1
def caItrip : Nat := 2
def caOc : Nat := 3
def caGateFail : Nat := 4
def caOvp : Nat := 5
def caVset : Nat := 6
def caAdc : Nat := 7

/-- A stage beside its registers. -/
def Hub.stage (h : Hub) (n : Nat) : StageX := tabGet h.power.stages (k1 n) {}

/-- Change a stage. -/
def Hub.modStage (h : Hub) (n : Nat) (f : StageX → StageX) : Hub :=
  { h with power := { h.power with stages := tabSet h.power.stages (k1 n) (f (h.stage n)) {} } }

/-- Is stage `n` that of a slot port (R341)? -/
def Hub.isSlot (h : Hub) (n : Nat) : Bool := h.flag (R.lpKind n)

/-- State of a stage. -/
def Hub.stageState (h : Hub) (n : Nat) : Nat := h.get (R.stgSstate n)

/-- Is the stage's state `s`? -/
def Hub.stageIs (h : Hub) (n s : Nat) : Bool := h.stageState n == s

/-- Stages in a state. -/
def Hub.stagesIn (h : Hub) (s : Nat) : List Nat := (List.range 16).filter (fun n => h.stageIs n s)

/-- NINR, PINR and NWAIT (Table 17-9). -/
def Hub.settleBudget (h : Hub) : Hub :=
  let l := h.stagesIn sgInrush
  h.setAll [(R.pwrNinr, l.length), (R.pwrPinr, (l.map (fun n => h.get (R.stgPInr n))).sum), (R.pwrNwait, (h.stagesIn sgWait).length)]

/-- Drive the gate of a stage. -/
def Hub.stageGate (h : Hub) (n : Nat) (on : Bool) : Hub :=
  if h.flag (R.stgGateEn n) = on then h else (h.setFlag (R.stgGateEn n) on).emit (.pin "STG_GATE_EN" n (b2n on))

/-- Drive power-good of a stage. -/
def Hub.stagePg (h : Hub) (n : Nat) (on : Bool) : Hub :=
  if h.flag (R.stgPg n) = on then h else (h.setFlag (R.stgPg n) on).emit (.pin "STG_PG" n (b2n on))

/-- Drive the discharge load of a cable port (R535). -/
def Hub.stageDsch (h : Hub) (n : Nat) (on : Bool) : Hub :=
  if h.isSlot n || (h.stage n).dsch == on then h
  else (h.modStage n (fun x => { x with dsch := on })).emit (.pin "STG_DSCH" n (b2n on))

/-- Gate off, PG low, and the state given. -/
def Hub.stageDown (h : Hub) (n s : Nat) : Hub :=
  let was := h.stageIs n sgInrush || h.stageIs n sgOn || h.stageIs n sgSink
  let h := (h.stagePg n false).stageGate n false
  let h := (h.setAll [(R.stgSstate n, s), (R.stgGateOk n, 0)]).settleBudget
  if was then h.stageDsch n true else h

/-- The breaker timers of path `p` are 0 (Table 17-4); paths 16 and 17 are the feeds. -/
def Hub.curveReset (h : Hub) (p : Nat) : Hub := { h with power := { h.power with curve := tabErase h.power.curve (k1 p) } }

/-- A path that is on, or waits, is turned off without a trip (Table 17-4). -/
def Hub.stageOff (h : Hub) (n : Nat) : Hub :=
  let s := h.stageState n
  if s = sgWait ∨ s = sgInrush ∨ s = sgOn ∨ s = sgSink then h.stageDown n sgOff else h

/-- The stage's sink path closes (Table 17-4, R529). -/
def Hub.sinkClose (h : Hub) (n : Nat) : Hub :=
  let h := h.modStage n (fun x => { x with sink := true })
  if h.stageIs n sgOff then (((h.curveReset n).stageGate n true).set (R.stgSstate n) sgSink).stageDsch n false else h

/-- The stage's sink path opens. -/
def Hub.sinkOpen (h : Hub) (n : Nat) : Hub :=
  let h := h.modStage n (fun x => { x with sink := false })
  if h.stageIs n sgSink then h.stageDown n sgOff else h

/-- Does the start condition of STARTM hold (Table 17-3)? -/
def Hub.startCond (h : Hub) (n : Nat) : Bool :=
  if h.get (R.stgStartm n) = 0 then (h.stage n).source else (h.stage n).cond

/-- Is a feed in use (Table 17-2)? -/
def Hub.feedInUse (h : Hub) : Bool := h.get R.pwrSel == 2 || h.get R.pwrSel == 5

/-- Is the stage held off by containment or safe state (Table 18-1, R537)? -/
def Hub.stageHeld (h : Hub) (n : Nat) : Bool :=
  h.contained (srcStage n) || (h.contained srcStartStall && (h.blocksOf srcStartStall).contains n) ||
  (h.contained srcAdcLost && (h.blocksOf srcAdcLost).any (fun c => c / 2 == n + 2)) || (h.safe && h.flag (R.stgSafeOff n))

/-- Does a stage request a start (R523)? -/
def Hub.startWanted (h : Hub) (n : Nat) : Bool :=
  h.flag (R.stgEn n) && h.feedInUse && h.stageIs n sgOff && h.startCond n && !h.stageHeld n

/-- START_REQUEST: a stage waits for the budget. -/
def Hub.startRequest (h : Hub) (n : Nat) : Hub :=
  if h.startWanted n then (h.set (R.stgSstate n) sgWait).settleBudget else h

/-- Inrush begins: the set-point of a cable port is 5.00 V (R535). -/
def Hub.stageInrush (h : Hub) (n : Nat) : Hub :=
  let h := ((h.stageDsch n false).stageGate n true).setAll [(R.stgSstate n, sgInrush), (R.stgVset n, 0xFA)]
  (h.inc (R.stgStarts n)).settleBudget

/-- The waiting stages in the order of the budget: PRIO, then port number (R525). -/
def Hub.waiting (h : Hub) : List Nat :=
  let w := h.stagesIn sgWait
  (List.range 8).flatMap (fun p => w.filter (fun n => h.get (R.stgPrio n) == p))

/-- Admit waiting stages in order until one does not fit (R525). -/
def Hub.admitStages (h : Hub) : List Nat → Hub
  | [] => h
  | n :: rest =>
    if h.get R.pwrNinr < h.get R.pwrNmax ∧ h.get R.pwrPinr + h.get (R.stgPInr n) ≤ h.get R.pwrPmax then
      (h.stageInrush n).admitStages rest
    else h

/-- The budget is evaluated; starts wait until a feed is in use (Table 17-5). -/
def Hub.budgetAdmit (h : Hub) : Hub := if h.feedInUse then h.admitStages h.waiting else h

/-- INRUSH_END: the gate is then held high, and the curve timers start from 0 (R527, Table 17-4). -/
def Hub.inrushEnd (h : Hub) (n : Nat) : Hub :=
  if h.stageIs n sgInrush then (((h.curveReset n).stageGate n true).setAll [(R.stgSstate n, sgOn), (R.stgGateOk n, 1)]).settleBudget else h

/-- A stage trips (R528, R529): `l` are the causes of this cycle. -/
def Hub.stageTrip (h : Hub) (n : Nat) (l : List Nat) : Hub :=
  let s := h.stageState n
  if s ≠ sgInrush ∧ s ≠ sgOn ∧ s ≠ sgSink then h
  else
    let h := h.set (R.stgCause n) (l.foldl setBit (h.get (R.stgCause n)))
    let h := (h.inc (R.stgTrips n)).raise (srcStage n) (h.get (R.stgCause n))
    if s = sgSink then h.stageDown n sgOff
    else
      let t := min 15 (h.get (R.stgTries n) + 1)
      let max := h.get (R.stgRetryMax n)
      (h.set (R.stgTries n) t).stageDown n (if max < t ∧ max ≠ 15 then sgLatched else sgRetry)

/-- The start condition is lost (R524, R534). -/
def Hub.stageRemove (h : Hub) (n : Nat) : Hub :=
  let h := h.modStage n (fun x => { x with lostAt := some (x.lostAt.getD h.now) })
  if h.stageIs n sgSink then h else h.stageOff n

/-- The start condition holds again from forge time `t` on: after FORGET the board counts as new (R534). -/
def Hub.stageReturn (h : Hub) (n t : Nat) : Hub :=
  let x := h.stage n
  let h := h.modStage n (fun x => { x with lostAt := none })
  match x.lostAt with
  | some l =>
    if h.get (R.stgForget n) * 10000000 ≤ t - l then
      let h := h.set (R.stgTries n) 0
      if h.stageIs n sgRetry || h.stageIs n sgLatched then h.set (R.stgSstate n) sgOff else h
    else h
  | none => h

/-- The PHY orders the source on (Table 17-3). -/
def Hub.sourceOn (h : Hub) (n : Nat) : Hub :=
  if (h.stage n).source then h else ((h.modStage n (fun x => { x with source := true })).sinkOpen n).stageReturn n h.now

/-- The PHY orders the source off. -/
def Hub.sourceOff (h : Hub) (n : Nat) : Hub :=
  if (h.stage n).source then (h.modStage n (fun x => { x with source := false })).stageRemove n else h

/-- A start ordered by a Fast Role Swap is admitted at once (R525). -/
def Hub.frsStart (h : Hub) (n : Nat) : Hub :=
  let h := h.sourceOn n
  if h.flag (R.stgEn n) && h.stageIs n sgOff && !h.stageHeld n then h.stageInrush n else h

/-- SEATING_DEBOUNCE (R523). -/
def Hub.seatingDone (h : Hub) (n : Nat) : Hub :=
  let h := h.set (R.stgSeated n) 1
  if h.get (R.stgStartm n) ≠ 1 then h
  else ((h.modStage n (fun x => { x with cond := true })).stageReturn n (h.now - h.get (R.stgSeatDb n) * 1000000)).startRequest n

/-- INSERTION_DELAY (R523). -/
def Hub.insertionDone (h : Hub) (n : Nat) : Hub :=
  let h := h.set (R.stgPres n) 1
  if h.get (R.stgStartm n) ≠ 2 then h
  else ((h.modStage n (fun x => { x with cond := true })).stageReturn n (h.now - h.get (R.stgInsDly n) * 10000000)).startRequest n

/-- STAGE_REMOVAL (R524): the levels of a slot port after it are given. With STARTM 1 the start condition has ended if the
module is no longer seated (Table 17-3). -/
def Hub.stageRemoval (h : Hub) (n : Nat) (seated pres : Bool) : Hub :=
  let h := h.setAll [(R.stgSeated n, b2n seated), (R.stgPres n, b2n pres)]
  if (h.stage n).cond && (h.get (R.stgStartm n) != 1 || !seated) then
    (h.modStage n (fun x => { x with cond := false })).stageRemove n
  else h

/-- RETRY_EXPIRY. -/
def Hub.retryExpiry (h : Hub) (n : Nat) : Hub :=
  if h.stageIs n sgRetry then (h.set (R.stgSstate n) sgOff).startRequest n else h

/-- TRIES_RESET. -/
def Hub.triesReset (h : Hub) (n : Nat) : Hub :=
  if h.stageIs n sgOn && h.flag (R.stgPg n) then h.set (R.stgTries n) 0 else h

/-- START_STALL (R525). -/
def Hub.startStall (h : Hub) (n : Nat) : Hub := if h.stageIs n sgWait then h.raise srcStartStall n else h

/-- VSET_TIMEOUT (R535). -/
def Hub.vsetTimeout (h : Hub) (n : Nat) : Hub :=
  let h := h.set (R.stgCause n) (setBit (h.get (R.stgCause n)) caVset)
  h.raise (srcStage n) (h.get (R.stgCause n))

/-! Feeds (R518 to R522). SEL is 0 NONE, 3f + 1 INRUSH, 3f + 2 USE, 3f + 3 DEAD. -/

/-- Is feed `f` healthy? -/
def Hub.healthy (h : Hub) (f : Nat) : Bool := h.flag (R.feedHealthy f)

/-- Drive a feed gate. -/
def Hub.feedGate (h : Hub) (f : Nat) (on : Bool) : Hub :=
  if h.flag (R.feedGateEn f) = on then h else (h.setFlag (R.feedGateEn f) on).emit (.pin "FEED_GATE_EN" f (b2n on))

/-- FEEDWARN_N is driven low, with its source (R522). -/
def Hub.warnLow (h : Hub) (f : Nat) : Hub :=
  if h.power.feedWarn then h
  else (({ h with power := { h.power with feedWarn := true } }).emit (.pin "FEEDWARN_N" 0 0)).raise srcFeedWarn f

/-- The selection enters NONE (R522). -/
def Hub.feedNone (h : Hub) (f : Nat) : Hub := (h.set R.pwrSel 0).warnLow f

/-- A feed's gate turns on under fold-back. -/
def Hub.feedStart (h : Hub) (f : Nat) : Hub := (h.feedGate f true).set R.pwrSel (3 * f + 1)

/-- The feed in use, or in inrush, goes off: DEAD of the other if it is healthy, otherwise NONE. -/
def Hub.feedLeave (h : Hub) (f : Nat) : Hub :=
  let g := 1 - f
  let h := h.feedGate f false
  if h.healthy g then h.set R.pwrSel (3 * g + 3) else (h.set (R.feedGateOk f) 0).feedNone f

/-- From NONE: the primary feed if it is healthy, otherwise the other (Table 17-2). While the gate of one feed has failed,
that of the other stays off. -/
def Hub.feedChoose (h : Hub) : Hub :=
  if h.get R.pwrSel ≠ 0 ∨ ¬ h.power.barred.isEmpty then h
  else
    let p := h.get R.pwrPrimary
    if h.healthy p then h.feedStart p else if h.healthy (1 - p) then h.feedStart (1 - p) else h

/-- The feed of SEL, and the phase: 1 INRUSH, 2 USE, 3 DEAD. -/
def Hub.selFeed (h : Hub) : Nat := (h.get R.pwrSel - 1) / 3
def Hub.selPhase (h : Hub) : Nat := if h.get R.pwrSel = 0 then 0 else (h.get R.pwrSel - 1) % 3 + 1

/-- Is a converter channel of feed `f` lost (R536)? -/
def Hub.feedBlind (h : Hub) (f : Nat) : Bool :=
  (tabGet h.power.adc (k1 (2 * f)) {}).lost || (tabGet h.power.adc (k1 (2 * f + 1)) {}).lost

/-- The health of a feed changes (R518): `excess` where it is above OV. A feed in use that is not healthy is left once the
other is. -/
def Hub.feedHealth (h : Hub) (f : Nat) (healthy excess : Bool) : Hub :=
  let ok := healthy && h.flag (R.feedEn f) && !h.flag (R.feedBarred f) && !h.feedBlind f
  let h := h.setFlag (R.feedHealthy f) ok
  if ok then (if h.selPhase = 2 ∧ h.selFeed = 1 - f ∧ ¬ h.healthy (1 - f) then h.feedLeave (1 - f) else h.feedChoose)
  else if h.selFeed ≠ f then h
  else match h.selPhase with
    | 2 => if h.healthy (1 - f) || excess then h.feedLeave f else h
    | 3 => (h.feedNone f).feedChoose
    | _ => h

/-- A feed is barred (R518). -/
def Hub.feedBar (h : Hub) (f : Nat) : Hub := h.setAll [(R.feedBarred f, 1), (R.feedHealthy f, 0)]

/-- A feed trips (Table 17-2). -/
def Hub.feedTrip (h : Hub) (f : Nat) (l : List Nat) : Hub :=
  if h.selFeed = f ∧ (h.selPhase = 1 ∨ h.selPhase = 2) then
    let h := h.set (R.feedCause f) (l.foldl setBit (h.get (R.feedCause f)))
    ((h.feedBar f).raise (srcFeed f) (h.get (R.feedCause f))).feedLeave f
  else h

/-- A path trips: 0 to 15 a stage, 16 and 17 the feeds. -/
def Hub.pathTrip (h : Hub) (p : Nat) (l : List Nat) : Hub := if p < 16 then h.stageTrip p l else h.feedTrip (p - 16) l

/-- FEED_INRUSH_END: the feed is in use, and is left at once where it is not healthy and the other is (Table 17-2). -/
def Hub.feedInrushEnd (h : Hub) (f : Nat) : Hub :=
  if h.selFeed = f ∧ h.selPhase = 1 then
    let h := ((h.curveReset (16 + f)).feedGate f true).setAll [(R.pwrSel, 3 * f + 2), (R.feedGateOk f, 1)]
    h.when (!h.healthy f && h.healthy (1 - f)) (fun h => h.feedLeave f)
  else h

/-- DEAD_TIME_EXPIRY: FEED_GATE_OK of the outgoing feed is low. -/
def Hub.deadOver (h : Hub) : Hub :=
  if h.selPhase = 3 then (h.set (R.feedGateOk (1 - h.selFeed)) 0).feedStart h.selFeed else h

/-- FEED_REVERT. -/
def Hub.feedRevert (h : Hub) : Hub :=
  let f := h.selFeed
  if h.selPhase = 2 ∧ h.get R.pwrPrimary = 1 - f ∧ h.healthy (1 - f) then h.feedLeave f else h

/-- FEED_GATE_FAIL: the outgoing feed's gate stays on (Table 17-2). -/
def Hub.feedGateFail (h : Hub) : Hub :=
  if h.selPhase ≠ 3 then h
  else
    let f := 1 - h.selFeed
    let h := (h.set (R.feedCause f) (setBit (h.get (R.feedCause f)) caGateFail)).feedBar f
    let h := { h with power := { h.power with barred := h.power.barred.filter (fun x => x != f) ++ [f] } }
    (h.raise (srcFeed f) (h.get (R.feedCause f))).feedNone f

/-- FEED_BAR_EXPIRY. -/
def Hub.feedBarOver (h : Hub) (f : Nat) : Hub :=
  if h.power.barred.contains f || h.contained (srcFeed f) then h else h.set (R.feedBarred f) 0

/-- FEED_NONE (R521). -/
def Hub.feedsGone (h : Hub) : Hub :=
  if h.get R.pwrSel ≠ 0 then h else (h.each (List.range 16) (fun h n => h.stageOff n)).raise srcFeedNone 0

/-- Is the gate of a feed on, so that the feed is in use (R519)? -/
def Hub.gateFeed (h : Hub) : Bool := h.selPhase == 1 || h.selPhase == 2

/-- FEED_WARN (R522). -/
def Hub.feedWarning (h : Hub) : Hub :=
  if h.gateFeed ∧ ¬ (h.flag R.pwrFwAlt ∧ h.healthy (1 - h.selFeed)) then h.warnLow h.selFeed else h

/-- FEED_WARN_RELEASE. -/
def Hub.warnRelease (h : Hub) : Hub :=
  if h.power.feedWarn ∧ h.gateFeed then
    (({ h with power := { h.power with feedWarn := false } }).emit (.pin "FEEDWARN_N" 0 1)).fall srcFeedWarn
  else h

/-- Is the path in inrush? -/
def Hub.pathInrush (h : Hub) (p : Nat) : Bool :=
  if p < 16 then h.stageIs p sgInrush else h.selFeed == p - 16 && h.selPhase == 1

/-- Is the path on, or a closed sink path? -/
def Hub.pathOn (h : Hub) (p : Nat) : Bool :=
  if p < 16 then h.stageIs p sgOn || h.stageIs p sgSink else h.selFeed == p - 16 && h.selPhase == 2

/-! Converters (R536). Channels 0 to 3 belong to the feeds, 4 to 35 to the stages, 36 is the die temperature, 37 the
bus. -/

/-- A converter channel. -/
def Hub.adc (h : Hub) (c : Nat) : AdcChan := tabGet h.power.adc (k1 c) {}

/-- Change a converter channel. -/
def Hub.modAdc (h : Hub) (c : Nat) (f : AdcChan → AdcChan) : Hub :=
  { h with power := { h.power with adc := tabSet h.power.adc (k1 c) (f (h.adc c)) {} } }

/-- A sample of a channel; a lost channel keeps its last (R536). -/
def Hub.sample (h : Hub) (c v : Nat) : Hub :=
  if 37 < c ∨ (h.adc c).lost then h
  else { h with power := { h.power with samples := tabSet h.power.samples (k1 c) (v % 2 ^ 12) 0
                                        sampleAt := tabSet h.power.sampleAt (k1 c) h.now 0 } }

/-- Latest code of a channel, and the forge time at which it was taken. -/
def Hub.code (h : Hub) (c : Nat) : Nat := tabGet h.power.samples (k1 c) 0
def Hub.codeAt (h : Hub) (c : Nat) : Nat := tabGet h.power.sampleAt (k1 c) 0

/-! Fold-back (R526). Voltages are in units of 1/256 mV: a code times its KV (R516). -/

/-- Voltage of the bus, of a feed and of a stage's output. -/
def Hub.busVolts (h : Hub) : Nat := h.code 37 * h.get R.pwrBusKv
def Hub.feedVolts (h : Hub) (f : Nat) : Nat := h.code (2 * f) * h.get (R.feedKv f)
def Hub.stageVolts (h : Hub) (n : Nat) : Nat := h.code (4 + 2 * n) * h.get (R.stgKv n)

/-- V_DS of a stage: the bus less its output, or the full feed voltage where the bus channel is lost (R536). -/
def Hub.stageDrop (h : Hub) (n : Nat) : Nat :=
  if (h.adc 37).lost then h.feedVolts h.selFeed else h.busVolts - h.stageVolts n

/-- The comparator (R526): is the current code `c` below I_T = min(I_INR, P_INR / max(V_DS, 0.5 V))? A current is `c` × KI / 256
mA and P_INR has units of 100 mW, so that both sides of the second comparison are microwatts × 65,536. -/
def belowFold (c iInr pInr ki vds : Nat) : Bool :=
  decide (c < iInr) && decide (c * ki * max vds (500 * 256) < pInr * 100000 * 65536)

/-- The comparator of a stage in inrush switches its gate. -/
def Hub.foldStage (h : Hub) (n : Nat) : Hub :=
  h.stageGate n (belowFold (h.code (5 + 2 * n)) (h.get (R.stgIInr n)) (h.get (R.stgPInr n)) (h.get (R.stgKi n)) (h.stageDrop n))

/-- The comparator of a feed in inrush switches its gate. -/
def Hub.foldFeed (h : Hub) (f : Nat) : Hub :=
  h.feedGate f (belowFold (h.code (2 * f + 1)) (h.get (R.feedIInr f)) (h.get (R.feedPInr f)) (h.get (R.feedKi f))
    (h.feedVolts f - h.busVolts))

/-- Every path in inrush is regulated. -/
def Hub.foldBack (h : Hub) : Hub :=
  (h.each (h.stagesIn sgInrush) (fun h n => h.foldStage n)).when (h.selPhase == 1) (fun h => h.foldFeed h.selFeed)

/-! Feed windows and early warning from the samples (R518, R522). -/

/-- A feed beside its registers. -/
def Hub.feedX (h : Hub) (f : Nat) : FeedX := tabGet h.power.feeds (k1 f) {}

/-- A sample of the voltage of feed `f` has come: its history and its runs inside and outside [UV, OV]. A window is in units of
100 mV. -/
def Hub.feedSampled (h : Hub) (f : Nat) : Hub :=
  let v := h.feedVolts f
  let x := h.feedX f
  let inside := decide (h.get (R.feedUv f) * 25600 ≤ v) && decide (v ≤ h.get (R.feedOv f) * 25600)
  let x : FeedX := { volts := (h.code (2 * f) :: x.volts).take 20
                     outRun := if inside then 0 else min 4 (x.outRun + 1)
                     inRun := if inside then min (h.get (R.feedQual f) * 1000) (x.inRun + 1) else 0 }
  { h with power := { h.power with feeds := tabSet h.power.feeds (k1 f) x {} } }

/-- The feed stops being healthy at the fourth sample in a row outside its window, and is healthy after QUAL inside (R518). -/
def Hub.feedJudge (h : Hub) (f : Nat) : Hub :=
  let x := h.feedX f
  if !h.flag (R.feedEn f) then h
  else if x.outRun = 4 then h.feedHealth f false (decide (h.get (R.feedOv f) * 25600 < h.feedVolts f))
  else if x.inRun = h.get (R.feedQual f) * 1000 ∧ ¬ h.healthy f ∧ ¬ h.flag (R.feedBarred f) then h.feedHealth f true false
  else h

/-- Four times V, the mean of four codes from the `k`-th newest on, times KV (R522). -/
def Hub.feedMean (h : Hub) (f k : Nat) : Nat := (((h.feedX f).volts.drop k).take 4).sum * h.get (R.feedKv f)

/-- V < `lim`, in units of 100 mV. -/
def Hub.feedBelow (h : Hub) (f lim : Nat) : Bool :=
  decide (4 ≤ (h.feedX f).volts.length) && decide (h.feedMean f 0 < lim * 102400)

/-- The slope condition: V falls, and V + s × HORIZON is below WARN, with s taken over 16 µs (R522). -/
def Hub.feedFalls (h : Hub) (f : Nat) : Bool :=
  let v := h.feedMean f 0
  let old := h.feedMean f 16
  (h.feedX f).volts.length == 20 && decide (v < old) && (h.get (R.feedHorizon f) != 0) &&
  decide (16 * v < 16 * (h.get (R.feedWarn f) * 102400) + (old - v) * (h.get (R.feedHorizon f) * 10))

/-- FEEDWARN_N follows the samples of the feed in use (R522). -/
def Hub.warnJudge (h : Hub) : Hub :=
  let f := h.selFeed
  if !h.gateFeed then h
  else
    let falls := h.feedFalls f
    let h := { h with power := { h.power with calm := if falls then 0 else min 1000 (h.power.calm + 1)
                                              lowFor := if h.power.feedWarn then min 100 (h.power.lowFor + 1) else 0 } }
    if falls || h.feedBelow f (h.get (R.feedWarn f)) then h.feedWarning
    else if !h.feedBelow f (h.get (R.feedWarn f) + h.get (R.feedWhys f)) && h.power.calm == 1000 && h.power.lowFor == 100 then
      h.warnRelease
    else h

/-! The breaker (R530). -/

/-- Latest current code, and level and limit of point `k` of the curve, of path `p`. -/
def Hub.pathCode (h : Hub) (p : Nat) : Nat := if p < 16 then h.code (5 + 2 * p) else h.code (2 * (p - 16) + 1)
def Hub.ilvl (h : Hub) (p k : Nat) : Nat := if p < 16 then h.get (R.stgCurveIlvl p k) else h.get (R.feedCurveIlvl (p - 16) k)
def Hub.tlim (h : Hub) (p k : Nat) : Nat := if p < 16 then h.get (R.stgCurveTlim p k) else h.get (R.feedCurveTlim (p - 16) k)

/-- Is the current of path `p` at or above the level of a used point? -/
def Hub.over (h : Hub) (p k : Nat) : Bool := (h.ilvl p k != 0) && decide (h.ilvl p k ≤ h.pathCode p)

/-- Timer of point `k`, in µs. -/
def Hub.curveTimer (h : Hub) (p k : Nat) : Nat := (tabGet h.power.curve (k1 p) []).getD k 0

/-- The fault timer, that of point 1, runs. -/
def Hub.faultTimer (h : Hub) (p : Nat) : Bool := h.pathOn p && h.over p 0

/-- One microsecond of the breaker of a path in ON or SINK: the timers count up or down, and one at its limit trips the
path. TLIM has units of 10 µs. -/
def Hub.curveTick (h : Hub) (p : Nat) : Hub :=
  if !h.pathOn p then h
  else
    let ts := (List.range 8).map (fun k => if h.over p k then h.curveTimer p k + 1 else h.curveTimer p k - 1)
    let ts := if ts.all (fun t => t == 0) then [] else ts
    let h := { h with power := { h.power with curve := tabSet h.power.curve (k1 p) ts [] } }
    if (List.range 8).any (fun k => (h.ilvl p k != 0) && decide (h.tlim p k * 10 ≤ h.curveTimer p k)) then h.pathTrip p [caCurve]
    else h

/-- POWER_GOOD (R532, R533): withheld where the fault timer, that of point 1, starts or runs. -/
def Hub.powerGood (h : Hub) (n : Nat) (fault : Bool) : Hub :=
  if h.stageIs n sgOn && h.flag (R.stgGateOk n) && !fault && !h.faultTimer n then h.stagePg n true else h

/-- BUDGET_ADMIT: one microsecond. The samples that came, what they say of the feeds, the breakers, the budget (R525) and the
fold-back of the paths in inrush (R526). -/
def Hub.budgetCycle (h : Hub) (samples : List (Nat × Nat)) : Hub :=
  let h := h.each samples (fun h p => h.sample p.1 p.2)
  let feeds := (List.range 2).filter (fun f => samples.any (fun p => p.1 == 2 * f) && !(h.adc (2 * f)).lost)
  let h := h.each feeds (fun h f => (h.feedSampled f).feedJudge f)
  let h := h.when (feeds.contains h.selFeed) (fun h => h.warnJudge)
  ((h.each (List.range 18) (fun h p => h.curveTick p)).budgetAdmit).foldBack

/-- A channel is lost: its stage trips, or its feed is not healthy. -/
def Hub.adcLost (h : Hub) (c : Nat) : Hub :=
  let h := (h.modAdc c (fun x => { x with lost := true })).raise srcAdcLost c
  if 4 ≤ c ∧ c ≤ 35 then h.stageTrip ((c - 4) / 2) [caAdc]
  else if c ≤ 3 then h.feedHealth (c / 2) false false
  else h

/-- What a visit of the tempering task finds: the measured errors, in codes and steps of 0.05 %, of which at most one step is
corrected; or the channel lost, by no result or a reading more than 64 codes off. -/
def Hub.adcTrim (h : Hub) (offset gain : Int) (lost : Bool) : Hub :=
  let c := h.power.adcNext
  let x := h.adc c
  let h := { h with power := { h.power with adcNext := if c = 37 then 0 else c + 1 } }
  let o := x.offset + max (-1) (min 1 offset)
  let g := x.gain + max (-1) (min 1 gain)
  if x.lost then h
  else if lost || decide (64 < offset.natAbs) then h.adcLost c
  else if x.stopped then h
  else if 16 < o ∨ o < -16 ∨ 40 < g ∨ g < -40 then (h.modAdc c (fun x => { x with stopped := true })).raise srcAdcTrim c
  else h.modAdc c (fun x => { x with offset := o, gain := g })

/-! Commands (R517). -/

/-- Addresses of the words of a stage image: CFG, CFG2, INR, SCALE, WIN, ITRIP. -/
def stageAddrs (n : Nat) : List Nat := [0, 4, 8, 0xC, 0x10, 0x60].map (fun o => 0x4020000 + n * 0x80 + o)

/-- Addresses of the words of a feed image. -/
def feedAddrs (f : Nat) : List Nat := [0, 4, 8, 0xC, 0x10].map (fun o => 0x4010000 + f * 0x80 + o)

/-- Fields of an image whose words have the addresses given. -/
def imageOf (rows : List RegRow) (l : List (Nat × Nat)) : List (Fld × Nat) := l.flatMap (fun p => imageAt rows p.1 p.2)

/-- Legality of such an image. -/
def imageGood (rows : List RegRow) (l : List (Nat × Nat)) : Bool := l.all (fun p => imageLegal rows p.1 p.2)

/-- Curve points as pairs. -/
def Hub.curveOf (h : Hub) (p : Nat) : List (Nat × Nat) :=
  (List.range 8).map (fun k => if p < 16 then (h.get (R.stgCurveIlvl p k), h.get (R.stgCurveTlim p k))
    else (h.get (R.feedCurveIlvl (p - 16) k), h.get (R.feedCurveTlim (p - 16) k)))

/-- The rules of a curve against ITRIP (R530). -/
def curveOk (itrip : Nat) : Option (Nat × Nat) → List (Nat × Nat) → Bool
  | _, [] => true
  | prev, (i, t) :: rest =>
    if i = 0 then rest.all (fun p => p.1 == 0)
    else decide (i < itrip) && decide (1 ≤ t) &&
      (match prev with | none => true | some (pi, pt) => decide (pi < i) && decide (t < pt)) && curveOk itrip (some (i, t)) rest

/-- Are the settings of a path legal as they stand (Tables 17-7 and 17-8, R517, R530)? -/
def Hub.pathLegal (h : Hub) (p : Nat) : Bool :=
  let s := decide (p < 16)
  let n := p
  let f := p - 16
  let g := fun a b => if s then h.get a else h.get b
  let en := g (R.stgEn n) (R.feedEn f) == 1
  let i := g (R.stgIInr n) (R.feedIInr f)
  let pw := g (R.stgPInr n) (R.feedPInr f)
  let it := g (R.stgItrip n) (R.feedItrip f)
  (!en || (i != 0 && pw != 0 && (g (R.stgKv n) (R.feedKv f) != 0) && (g (R.stgKi n) (R.feedKi f) != 0))) &&
  decide (pw ≤ h.get R.pwrPmax) && decide (i < it) && curveOk it none (h.curveOf p) &&
  (if s then h.get (R.stgStartm n) != 2 || decide (h.get (R.stgUvw n) < h.get (R.stgOvw n))
   else !en || decide (h.get (R.feedUv f) < h.get (R.feedOv f)))

/-- PWR.PORT, CONFIG. STARTM of a cable port stays as it is (R523). -/
def Hub.portConfig (h : Hub) (m n : Nat) (ws : List Nat) : Ans × Hub :=
  let img := (stageAddrs n).zip ws
  let fs := (imageOf rowsStg img).filter (fun p => h.isSlot n || p.1.key != (R.stgStartm n).key)
  let v := h.setAll fs
  let sm := v.get (R.stgStartm n)
  if !h.holds m (tgtStage n) 3 then h.refuse stDenied
  else if ws.length ≠ 6 ∨ ¬ imageGood rowsStg img ∨ ¬ v.pathLegal n ∨ (h.isSlot n ∧ (sm = 0 ∨ sm = 3)) then h.refuse stBadArg
  else
    let v := if v.flag (R.stgEn n) then v
      else (v.stageOff n).when (v.stageIs n sgRetry || v.stageIs n sgLatched) (fun v => v.set (R.stgSstate n) sgOff)
    (v.settleBudget).ok []

/-- PWR.PORT, RESTART (Table 17-4). -/
def Hub.portRestart (h : Hub) (m n : Nat) : Ans × Hub :=
  if !h.holds m (tgtStage n) 3 then h.refuse stDenied
  else if h.stageIs n sgRetry then (h.set (R.stgSstate n) sgOff).ok []
  else if h.stageIs n sgLatched then (h.setAll [(R.stgSstate n, sgOff), (R.stgTries n, 0)]).ok []
  else h.ok []

/-- PWR.PORT, OFF: EN is 0 afterwards (R627). -/
def Hub.portOff (h : Hub) (m n : Nat) : Ans × Hub :=
  if !h.holds m (tgtStage n) 3 then h.refuse stDenied
  else
    let h := (h.set (R.stgEn n) 0).stageOff n
    (h.when (h.stageIs n sgRetry || h.stageIs n sgLatched) (fun h => h.set (R.stgSstate n) sgOff)).ok []

/-- PWR.PORT, VSET (R535, R508); a slot port has no set-point (R627). -/
def Hub.portVset (h : Hub) (m n v : Nat) : Ans × Hub :=
  if !h.holds m (tgtStage n) 3 then h.refuse stDenied
  else if h.isSlot n ∨ v < 150 ∨ 2400 < v ∨ (1050 < v ∧ ¬ h.flag (R.ccEpr n)) then h.refuse stBadArg
  else
    let low := decide (v < h.get (R.stgVset n)) && h.stageIs n sgOn
    ((h.set (R.stgVset n) v).when low (fun h => h.stageDsch n true)).ok []

/-- PWR.PORT, QUERY, with the latest converter codes. -/
def Hub.portQuery (h : Hub) (m n : Nat) : Ans × Hub :=
  if !h.holds m (tgtStage n) 1 then h.refuse stDenied
  else
    let b := 0x4020000 + n * 0x80
    h.ok (h.wordsAt rowsStg b 9 ++ h.wordsAt rowsStgCurve (b + 0x40) 8 ++ h.wordsAt rowsStg (b + 0x60) 1 ++
      [h.code (4 + 2 * n) * 2 ^ 16 + h.code (5 + 2 * n)])

/-- PWR.CURVE. -/
def Hub.pwrCurve (h : Hub) (m p : Nat) (ws : List Nat) : Ans × Hub :=
  let rows := if p < 16 then rowsStgCurve else rowsFeedCurve
  let base := if p < 16 then 0x4020040 + p * 0x80 else 0x4010040 + (p - 16) * 0x80
  if p > 17 ∨ ws.length ≠ 8 then h.refuse stBadArg
  else if p < 16 ∧ ¬ h.holds m (tgtStage p) 3 then h.refuse stDenied
  else if 16 ≤ p ∧ ¬ h.isOwner m then h.refuse stNotOwner
  else
    let v := h.setAll (imagesAt rows base ws)
    if v.pathLegal p then v.ok [] else h.refuse stBadArg

/-- PWR.BUDGET: no P_INR may then stand above PMAX (R517); the budget is evaluated (R525). -/
def Hub.pwrBudget (h : Hub) (m w : Nat) : Ans × Hub :=
  if !h.isOwner m then h.refuse stNotOwner
  else if !imageLegal rowsPwr 0x4000100 w then h.refuse stBadArg
  else
    let v := h.setAll (imageAt rowsPwr 0x4000100 w)
    if (List.range 18).all (fun p => v.pathLegal p) then
      let v := v.budgetAdmit
      v.ok [v.wordAt rowsPwr 0x4000104]
    else h.refuse stBadArg

/-- PWR.FEED, CONFIG: enabling a feed ends a bar that a failed gate left. -/
def Hub.feedConfig (h : Hub) (m f : Nat) (ws : List Nat) : Ans × Hub :=
  let img := (feedAddrs f).zip ws
  let v := h.setAll (imageOf rowsFeed img)
  if !h.isOwner m then h.refuse stNotOwner
  else if ws.length ≠ 5 ∨ ¬ imageGood rowsFeed img ∨ ¬ v.pathLegal (16 + f) then h.refuse stBadArg
  else if v.flag (R.feedEn f) then
    let hard := v.power.barred.contains f
    let v := { v with power := { v.power with barred := v.power.barred.filter (fun x => x != f) } }
    ((v.when hard (fun v => v.set (R.feedBarred f) 0)).feedChoose).ok []
  else (v.feedHealth f false false).ok []

/-- PWR.FEED, SELECT: SEL is the hub's own (R612). -/
def Hub.feedSelect (h : Hub) (m w0 w1 : Nat) : Ans × Hub :=
  let w0 := w0 - bits w0 6 4 * 2 ^ 4
  if !h.isOwner m then h.refuse stNotOwner
  else if !imageLegal rowsPwr 0x4010100 w0 || !imageLegal rowsPwr 0x4010104 w1 then h.refuse stBadArg
  else
    let keep := h.get R.pwrSel
    (((h.setAll (imageAt rowsPwr 0x4010100 w0)).setAll (imageAt rowsPwr 0x4010104 w1)).set R.pwrSel keep).ok []

/-- PWR.FEED, QUERY. -/
def Hub.feedQuery (h : Hub) (f : Nat) : Ans × Hub :=
  let b := 0x4010000 + f * 0x80
  h.ok (h.wordsAt rowsFeed b 5 ++ h.wordsAt rowsFeed (b + 0x18) 1 ++ h.wordsAt rowsFeedCurve (b + 0x40) 8 ++
    h.wordsAt rowsPwr 0x4010100 2 ++ h.wordsAt rowsPwr 0x4000100 2 ++
    [h.code (2 * f) * 2 ^ 16 + h.code (2 * f + 1)])

/-- Safe state reaches the stages (R537). -/
def Hub.powerSafe (h : Hub) : Hub :=
  h.each (List.range 16) (fun h n => if h.flag (R.stgSafeOff n) then h.stageOff n else h)

end Sys2Proof.Machine
end

