-- ==== Sys2Proof/Machine/CcOps.lean ====
section
/-!
DEFINITION. The CC/PD PHYs: attach, VCONN, messages, hard reset, role swaps and records (chapter 16).
-/

namespace Sys2Proof.Machine

open Sys2Proof

/-! Attach states (Table 16-8), cause bits, and what a CC wire shows. -/

def asUnattSrc : Nat := 0
def asWaitSrc : Nat := 1
def asSrc : Nat := 2
def asUnattSnk : Nat := 3
def asWaitSnk : Nat := 4
def asSnk : Nat := 5
def asWaitAcc : Nat := 6
def asAcc : Nat := 7
def asErr : Nat := 8
def ccVconnOc : Nat := 0
def ccDetTrans : Nat := 1
def ccFrs : Nat := 2
def ccHrRx : Nat := 3
def ccEprKa : Nat := 4
def ccRxFull : Nat := 5
def wOpen : Nat := 0
def wRa : Nat := 1
def wRd : Nat := 2
def wRp : Nat := 3

/-- A PHY beside its registers. -/
def Hub.cc (h : Hub) (n : Nat) : CcX := tabGet h.power.cc (k1 n) {}

/-- Change a PHY. -/
def Hub.modCc (h : Hub) (n : Nat) (f : CcX → CcX) : Hub :=
  { h with power := { h.power with cc := tabSet h.power.cc (k1 n) (f (h.cc n)) {} } }

/-- Attach state. -/
def Hub.astate (h : Hub) (n : Nat) : Nat := h.get (R.ccAstate n)

/-- Is the port attached to a partner that is no accessory? -/
def Hub.ccAttached (h : Hub) (n : Nat) : Bool := h.astate n == asSrc || h.astate n == asSnk

/-- Is the attach role Sink (R490)? -/
def Hub.strapSnk (h : Hub) (n : Nat) : Bool := h.flag (R.lpSnk n)

/-- The PHY works: a cable port, firmware ready since cold reset (R511, R343). -/
def Hub.ccOn (h : Hub) (n : Nat) : Bool := h.power.phyOn && !h.isSlot n

/-- TRANS and RXN follow the PHY; FRS_ARM is cleared during a transition (R502). -/
def Hub.settleCc (h : Hub) (n : Nat) : Hub :=
  let t := (h.cc n).accept != 0 || h.flag (R.ccSwap n) || h.flag (R.ccHrst n)
  let h := h.setAll [(R.ccTrans n, b2n t), (R.ccRxn n, (h.cc n).rx.length)]
  if t then h.set (R.ccFrsArm n) 0 else h

/-- Set a cause bit: PD_FAULT is raised (R513). -/
def Hub.ccCause (h : Hub) (n b : Nat) : Hub :=
  let h := h.set (R.ccCause n) (setBit (h.get (R.ccCause n)) b)
  h.raise srcPdFault (n * 256 + h.get (R.ccCause n))

/-- A PD record of Table 16-6; LOST is entered at sending. -/
def Hub.pdWords (h : Hub) (n evt info : Nat) : Record :=
  (0x14 * 2 ^ 24 + evt * 2 ^ 20 + (n + 5) * 2 ^ 15 + h.get (R.ccProle n) * 2 ^ 14 + h.get (R.ccDrole n) * 2 ^ 13 +
    h.get (R.ccVconnOn n) * 2 ^ 12 + h.get (R.ccRxn n) * 2 ^ 8 + info) :: h.get (R.ccRecLost n) :: twoWords h.now

/-- Queue a PD record for those that R510 names. -/
def Hub.pdRecord (h : Hub) (n evt info : Nat) : Hub :=
  let all := evt == 1 || evt == 2 || evt == 3 || evt == 12
  let dest := (List.range 4).filter (fun m =>
    h.canNotify m && (if all then h.holds m (tgtStage n) 1 else h.get (R.ccPolicy n) == m))
  let w := h.pdWords n evt info
  if dest.isEmpty then h.inc (R.ccRecLost n) else h.each dest (fun h m => h.addRecord m w)

/-- INFO of an attach or accessory record. -/
def Hub.ccInfo (h : Hub) (n : Nat) : Nat :=
  h.get (R.ccAcc n) * 16 + h.get (R.ccRplvl n) * 4 + h.get (R.ccRa n) * 2 + h.get (R.ccOrient n)

/-- Drive or remove VCONN (R493). -/
def Hub.vconn (h : Hub) (n : Nat) (on : Bool) : Hub :=
  if h.flag (R.ccVconnOn n) = on then h else (h.setFlag (R.ccVconnOn n) on).emit (.pin "VCONN" n (b2n on))

/-- What the combination on the wires asks for (Table 16-2): 0 nothing, 1 a partner, 2 an accessory. -/
def Hub.ccSeen (h : Hub) (n : Nat) (snk : Bool) : Nat :=
  let x := h.cc n
  if snk then
    if !x.vbus then 0
    else if x.w1 = wRp ∧ x.w2 = wRp then 2
    else if x.w1 = wRp ∨ x.w2 = wRp then 1
    else 0
  else if (x.w1 = wRa ∧ x.w2 = wRa) ∨ (x.w1 = wRd ∧ x.w2 = wRd) then 2
  else if (x.w1 = wRd ∧ (x.w2 = wOpen ∨ x.w2 = wRa)) ∨ (x.w2 = wRd ∧ (x.w1 = wOpen ∨ x.w1 = wRa)) then 1
  else 0

/-- In an unattached state the combination is judged. -/
def Hub.ccJudge (h : Hub) (n : Nat) : Hub :=
  let snk := h.astate n == asUnattSnk
  if !h.ccOn n || !(snk || h.astate n == asUnattSrc) then h
  else match h.ccSeen n snk with
    | 1 => h.set (R.ccAstate n) (if snk then asWaitSnk else asWaitSrc)
    | 2 => h.set (R.ccAstate n) asWaitAcc
    | _ => h

/-- The unattached state of the attach role: nothing is latched any more. -/
def Hub.ccUnatt (h : Hub) (n : Nat) : Hub :=
  let h := h.setAll [(R.ccAstate n, if h.strapSnk n then asUnattSnk else asUnattSrc), (R.ccProle n, 0), (R.ccOrient n, 0),
    (R.ccRa n, 0), (R.ccAcc n, 0), (R.ccRplvl n, 0)]
  h.modCc n (fun x => { x with attWait := false, detWait := false })

/-- CC_COMBINATION_CHANGE. -/
def Hub.ccChange (h : Hub) (n w1 w2 : Nat) (vbus : Bool) (rplvl : Nat) : Hub :=
  let x := h.cc n
  let same := x.w1 == w1 && x.w2 == w2 && x.vbus == vbus
  let h := h.modCc n (fun x => { x with w1 := w1, w2 := w2, vbus := vbus })
  let a := h.astate n
  let h := h.when (h.ccOn n && (a == asUnattSnk || a == asWaitSnk || a == asSnk)) (fun h => h.set (R.ccRplvl n) rplvl)
  if !h.ccOn n || same then h
  else if (a = asWaitSrc ∧ ¬ x.attWait) ∨ a = asWaitSnk ∨ a = asWaitAcc then
    (h.set (R.ccAstate n) (if h.strapSnk n then asUnattSnk else asUnattSrc)).ccJudge n
  else h.ccJudge n

/-- MessageID state of the SOP types given is cleared. -/
def Hub.ccClearIds (h : Hub) (n : Nat) (l : List Nat) : Hub :=
  h.modCc n (fun x => { x with rxId := l.foldl (fun t s => tabErase t (k1 s)) x.rxId
                               txId := l.foldl (fun t s => tabErase t (k1 s)) x.txId })

/-- A message being sent ends with a result (R499). -/
def Hub.ccTxEnd (h : Hub) (n res : Nat) : Hub :=
  match (h.cc n).tx with
  | none => h
  | some _ => h.modCc n (fun x => { x with tx := none, txRes := some res })

/-- What every detach ends (R497, R499, R508, R512). -/
def Hub.ccEnd (h : Hub) (n : Nat) : Hub :=
  let h := ((h.ccTxEnd n 4).ccClearIds n (List.range 5)).setAll [(R.ccEpr n, 0), (R.ccFrsArm n, 0), (R.ccSwap n, 0), (R.ccHrst n, 0)]
  let h := h.modCc n (fun x => { x with
    attWait := false, contract := false, accept := 0, prSwap := false, swapToSrc := false, frs := false, frsOn := false, hr := 0 })
  ((h.vconn n false).lineCondOff n).settleCc n

/-- Both paths open. -/
def Hub.ccPathsOff (h : Hub) (n : Nat) : Hub := (h.sourceOff n).sinkOpen n

/-- A partner attaches: roles of R490, record, attach condition (R491), which waits for the cable's active parts where Ra
was seen (R347). -/
def Hub.ccAttach (h : Hub) (n : Nat) (src : Bool) : Hub :=
  let h := h.setAll [(R.ccAstate n, if src then asSrc else asSnk), (R.ccProle n, b2n src), (R.ccDrole n, b2n src)]
  let h := (h.modCc n (fun x => { x with attWait := false })).pdRecord n 1 (h.ccInfo n)
  if h.flag (R.ccRa n) then h else h.lineCondOn n

/-- CC_DEBOUNCE_EXPIRY (R491, R493). -/
def Hub.ccDebounce (h : Hub) (n : Nat) : Hub :=
  let x := h.cc n
  let a := h.astate n
  if a = asWaitSrc then
    if x.attWait then h
    else
      let o := b2n (x.w1 != wRd)
      let ra := (if o = 0 then x.w2 else x.w1) == wRa
      let h := (h.setAll [(R.ccOrient n, o), (R.ccRa n, b2n ra)]).modCc n (fun x => { x with attWait := true })
      (h.vconn n ra).sourceOn n
  else if a = asWaitSnk then
    let o := b2n (x.w1 != wRp)
    let ra := (if o = 0 then x.w2 else x.w1) == wRa
    ((h.setAll [(R.ccOrient n, o), (R.ccRa n, b2n ra)]).sinkClose n).ccAttach n false
  else if a = asWaitAcc then
    let h := h.setAll [(R.ccAcc n, if x.w1 = wRa then 1 else 2), (R.ccAstate n, asAcc)]
    h.pdRecord n 12 (h.ccInfo n)
  else h

/-- A detach outside a transition (Table 16-2). A source waits for VBUS below vSafe0V. -/
def Hub.ccDetach (h : Hub) (n : Nat) : Hub :=
  let a := h.astate n
  if h.flag (R.ccTrans n) || (h.cc n).detWait then h
  else if a = asSrc ∨ (a = asWaitSrc ∧ (h.cc n).attWait) then
    let rec2 := decide (a = asSrc)
    let h := (h.sourceOff n).when rec2 (fun h => h.pdRecord n 2 0)
    (h.ccEnd n).modCc n (fun x => { x with detWait := true })
  else if a = asSnk then ((((h.sinkOpen n).pdRecord n 2 0).ccEnd n).ccUnatt n).ccJudge n
  else if a = asAcc then ((h.pdRecord n 2 0).ccUnatt n).ccJudge n
  else h

/-- The port is left at once: switch open, VBUS discharged, VCONN off, DET_TRANS and its record (R503, R507). -/
def Hub.ccTorn (h : Hub) (n : Nat) : Hub :=
  let h := (h.ccPathsOff n).stageDsch n true
  let h := ((h.vconn n false).ccCause n ccDetTrans).pdRecord n 3 0
  ((h.ccEnd n).ccUnatt n).ccJudge n

/-- DETACH_IN_TRANSITION. -/
def Hub.ccDetachTrans (h : Hub) (n : Nat) : Hub := if h.ccAttached n && h.flag (R.ccTrans n) then h.ccTorn n else h

/-- Error recovery: all off, both wires open (Table 16-2). -/
def Hub.ccRecover (h : Hub) (n : Nat) : Hub :=
  if h.isSlot n then h else (((h.ccPathsOff n).ccEnd n).ccUnatt n).set (R.ccAstate n) asErr

/-- ERROR_RECOVERY_END; a contained PHY stays in error recovery (Table 18-1). -/
def Hub.ccRecovered (h : Hub) (n : Nat) : Hub :=
  if h.astate n = asErr ∧ ¬ (h.contained srcPdFault ∧ (h.blocksOf srcPdFault).contains n) then (h.ccUnatt n).ccJudge n else h

/-- VCONN_OVER_CURRENT (R494, R512). -/
def Hub.vconnOc (h : Hub) (n : Nat) : Hub :=
  if !h.flag (R.ccVconnOn n) then h
  else
    let h := ((h.vconn n false).ccCause n ccVconnOc).pdRecord n 9 0
    match (h.cc n).tx with
    | some t => if 1 ≤ t.sopt ∧ t.sopt ≤ 4 then (h.ccTxEnd n 1).inc (R.ccTxFail n) else h
    | none => h

/-! Messages (R497 to R502). Header fields and message types are those of the USB Power Delivery Specification. -/

/-- Message type, MessageID and number of data objects of a header; extended headers have bit 15. -/
def pdType (hdr : Nat) : Nat := hdr % 32
def pdId (hdr : Nat) : Nat := bits hdr 11 9
def pdNdo (hdr : Nat) : Nat := bits hdr 14 12

/-- Is this the control message with type `t`? -/
def pdCtrl (hdr t : Nat) : Bool := pdType hdr == t && pdNdo hdr == 0 && !bit hdr 15

/-- Is this a BIST message in Test Data mode? -/
def pdBistTest (hdr : Nat) (data : List Byte) : Bool :=
  pdType hdr == 3 && pdNdo hdr != 0 && !bit hdr 15 && ((data.drop 3).headD 0).toNat / 16 == 8

/-- A role swap or a contract ends with PS_RDY, an Accept starts a transition; `sent` by the hub (R502, R505). -/
def Hub.pdEffect (h : Hub) (n hdr : Nat) (sent : Bool) : Hub :=
  let x := h.cc n
  let h :=
    if pdCtrl hdr 3 then h.modCc n (fun x => { x with accept := if x.prSwap then 2 else 1 })
    else if pdCtrl hdr 6 then
      if h.flag (R.ccSwap n) && (x.swapToSrc == sent) then
        let h := h.setAll [(R.ccSwap n, 0), (R.ccProle n, b2n sent), (R.ccAstate n, if sent then asSrc else asSnk)]
        (h.modCc n (fun x => { x with accept := 0, prSwap := false, contract := false, frs := false })).when (!sent)
          (fun h => h.sinkClose n)
      else h.modCc n (fun x => { x with accept := 0, contract := x.contract || x.accept == 1 })
    else h.modCc n (fun x => { x with prSwap := pdCtrl hdr 10 || pdCtrl hdr 19 })
  h.settleCc n

/-- Send a message: what goes on the wire (R499). -/
def Hub.pdSend (h : Hub) (n : Nat) (t : PdTx) : Hub :=
  h.emit (.words "PD_TX" n (t.sopt :: t.hdr :: t.data.map (fun b => b.toNat)))

/-- GoodCRC for a received message (R497). -/
def Hub.pdAck (h : Hub) (n sopt hdr : Nat) : Hub := h.emit (.words "PD_GOODCRC" n [sopt, pdId hdr])

/-- The counter of an SOP type advances after a message has been sent. -/
def Hub.pdIdNext (h : Hub) (n sopt : Nat) : Hub :=
  h.modCc n (fun x => { x with txId := tabPut x.txId (k1 sopt) ((tabGet x.txId (k1 sopt) 0 + 1) % 8) })

/-- GoodCRC arrives for the message being sent. -/
def Hub.pdAcked (h : Hub) (n sopt hdr : Nat) : Hub :=
  match (h.cc n).tx with
  | none => h
  | some t =>
    if t.sopt ≠ sopt ∨ pdId t.hdr ≠ pdId hdr then h
    else
      let h := h.when t.waits (fun h => h.pdSend n t)
      let h := (((h.ccTxEnd n 0).inc (R.ccTxMsg n)).pdIdNext n sopt)
      if sopt = 0 then h.pdEffect n t.hdr true else h

/-- GOODCRC_TIMEOUT. -/
def Hub.pdNoAck (h : Hub) (n : Nat) : Hub :=
  match (h.cc n).tx with
  | none => h
  | some t =>
    let h := h.when t.waits (fun h => h.pdSend n t)
    if t.tries < 2 then
      let t : PdTx := { t with waits := false, tries := t.tries + 1 }
      ((h.modCc n (fun x => { x with tx := some t })).inc (R.ccRetry n)).pdSend n t
    else (((h.ccTxEnd n 1).inc (R.ccTxFail n)).pdIdNext n t.sopt)

/-- A message that is queued (R497, R498). -/
def Hub.pdQueue (h : Hub) (n sopt hdr : Nat) (data : List Byte) : Hub :=
  let first := (h.cc n).rx.isEmpty
  let e : PdMsg := { sopt := sopt, hdr := hdr, data := data, ftime := h.now }
  let h := (h.modCc n (fun x => { x with rx := x.rx ++ [e] })).inc (R.ccRxMsg n)
  let h := (h.pdAck n sopt hdr).settleCc n
  let h := h.when first (fun h => h.pdRecord n 4 0)
  if sopt = 0 then h.pdEffect n hdr false else h

/-- PD_MESSAGE_RECEIVED (R497, R498). -/
def Hub.pdReceive (h : Hub) (n sopt hdr : Nat) (data : List Byte) (crcOk : Bool) : Hub :=
  if !h.ccOn n || !h.ccAttached n then h
  else if sopt = 6 then h.ccClearIds n [1, 2]
  else if 4 < sopt then h
  else if crcOk && pdCtrl hdr 1 then h.pdAcked n sopt hdr
  else
    let h := match (h.cc n).tx with
      | some t => if t.waits then h.ccTxEnd n 2 else h
      | none => h
    if !crcOk then h.inc (R.ccBadCrc n)
    else if 8 ≤ (h.cc n).rx.length then (h.inc (R.ccRxDrop n)).ccCause n ccRxFull
    else
      let h := h.when (pdCtrl hdr 13) (fun h => h.ccClearIds n [sopt])
      let dup := tabFind (h.cc n).rxId (k1 sopt) == some (some (pdId hdr))
      let h := h.modCc n (fun x => { x with rxId := tabPut x.rxId (k1 sopt) (some (pdId hdr)) })
      if dup then (h.pdAck n sopt hdr).inc (R.ccDup n)
      else if pdBistTest hdr data then (h.pdAck n sopt hdr).inc (R.ccRxMsg n)
      else h.pdQueue n sopt hdr data

/-! Hard reset (R504). -/

/-- A Hard Reset signal, `sent` or received. -/
def Hub.hardReset (h : Hub) (n : Nat) (sent : Bool) : Hub :=
  if !h.ccOn n || !h.ccAttached n || (h.cc n).detWait then h
  else
    let snk := h.strapSnk n
    let wasSrc := h.flag (R.ccProle n)
    let h := h.when sent (fun h => h.emit (.words "PD_HARD_RESET" n []))
    let h := ((h.ccTxEnd n 4).ccClearIds n (List.range 5)).setAll [(R.ccEpr n, 0), (R.ccFrsArm n, 0), (R.ccSwap n, 0), (R.ccHrst n, 1)]
    let h := h.modCc n (fun x => { x with
      rx := [], contract := false, accept := 0, prSwap := false, swapToSrc := false, frs := false, frsOn := false
      hr := if wasSrc then 1 else if snk then 4 else 2 })
    let h := h.when (!wasSrc) (fun h =>
      let h := (h.vconn n false).when (!snk || !(h.cc n).safe5) (fun h => h.ccPathsOff n)
      h.setAll [(R.ccAstate n, if snk then asSnk else asSrc), (R.ccProle n, b2n (!snk)), (R.ccDrole n, b2n (!snk))])
    let h := h.settleCc n
    if sent then h else (h.ccCause n ccHrRx).pdRecord n 5 0

/-- HARD_RESET_SOURCE_OFF: tPSHardReset has passed. -/
def Hub.hardResetOff (h : Hub) (n : Nat) : Hub :=
  if (h.cc n).hr ≠ 1 then h
  else
    let snk := h.strapSnk n
    let h := ((h.ccPathsOff n).vconn n false).modCc n (fun x => { x with hr := if snk then 4 else 2 })
    h.setAll [(R.ccAstate n, if snk then asSnk else asSrc), (R.ccProle n, b2n (!snk)), (R.ccDrole n, b2n (!snk))]

/-- HARD_RESET_RECOVER: tSrcRecover has passed. -/
def Hub.hardResetRecover (h : Hub) (n : Nat) : Hub :=
  if (h.cc n).hr ≠ 2 then h
  else ((h.vconn n (h.flag (R.ccRa n))).sourceOn n).modCc n (fun x => { x with hr := 3 })

/-- The sequence ends with VBUS within vSafe5V. -/
def Hub.hardResetDone (h : Hub) (n : Nat) : Hub :=
  let h := h.when ((h.cc n).hr == 4) (fun h => h.sinkClose n)
  (((h.set (R.ccHrst n) 0).modCc n (fun x => { x with hr := 0 })).settleCc n).pdRecord n 6 0

/-- HARD_RESET_SINK_TIMEOUT. -/
def Hub.hardResetLost (h : Hub) (n : Nat) : Hub :=
  if (h.cc n).hr = 4 then ((((h.sinkOpen n).pdRecord n 2 0).ccEnd n).ccUnatt n).ccJudge n else h

/-- VBUS_LEVEL_REACHED: 0 within vSafe5V, 1 below vSafe0V, 2 neither, 3 within 5 % of the set-point, where the discharge
after a lowered set-point ends (R535). -/
def Hub.vbusLevel (h : Hub) (n lvl : Nat) : Hub :=
  let x := h.cc n
  let h := h.when (h.stageIs n sgOn && (lvl == 3 || (lvl == 0 && h.get (R.stgVset n) == 250))) (fun h => h.stageDsch n false)
  let h := h.modCc n (fun x => { x with safe5 := lvl == 0 })
  if lvl = 0 then
    if x.attWait then h.ccAttach n true
    else if x.hr = 3 ∨ x.hr = 4 then h.hardResetDone n
    else if x.frsOn then (h.modCc n (fun x => { x with frsOn := false })).pdRecord n 8 0
    else h
  else
    let h := h.when (x.hr == 4) (fun h => h.sinkOpen n)
    if lvl = 1 then
      let h := h.stageDsch n false
      if x.detWait then (h.ccUnatt n).ccJudge n else h
    else h

/-- SINK_VBUS_LOSS: VBUS below 3.67 V. -/
def Hub.sinkVbusLoss (h : Hub) (n : Nat) : Hub :=
  let h := h.modCc n (fun x => { x with vbus := false, safe5 := false })
  if h.astate n = asWaitSnk ∨ (h.astate n = asWaitAcc ∧ h.strapSnk n) then h.set (R.ccAstate n) asUnattSnk
  else if h.astate n = asSnk then h.ccDetach n
  else h

/-! Fast role swap and extended power range (R506 to R508). -/

/-- FAST_ROLE_SWAP_SIGNAL. -/
def Hub.frsSignal (h : Hub) (n : Nat) : Hub :=
  if !h.flag (R.ccFrsArm n) || h.flag (R.ccHrst n) then h
  else
    let h := (h.set (R.ccSwap n) 1).modCc n (fun x => { x with frs := true, swapToSrc := true })
    ((h.settleCc n).ccCause n ccFrs).pdRecord n 7 0

/-- FRS_SOURCE_ON: VBUS falls below 4.75 V. -/
def Hub.frsSource (h : Hub) (n : Nat) : Hub :=
  if (h.cc n).frs ∧ ¬ (h.cc n).frsOn then
    (h.sinkOpen n |>.frsStart n).modCc n (fun x => { x with frsOn := true, safe5 := false })
  else h

/-- FRS_TIMEOUT: the hub sends a Hard Reset itself. -/
def Hub.frsTimeout (h : Hub) (n : Nat) : Hub := if (h.cc n).frs ∧ h.flag (R.ccSwap n) then h.hardReset n true else h

/-- FRS_PARTNER_GONE (R507). -/
def Hub.frsGone (h : Hub) (n : Nat) : Hub := if (h.cc n).frs then h.ccTorn n else h

/-- EPR_KEEPALIVE_TIMEOUT (R508). -/
def Hub.eprLost (h : Hub) (n : Nat) : Hub :=
  if h.flag (R.ccEpr n) && h.flag (R.ccProle n) then
    ((((h.set (R.ccEpr n) 0).ccCause n ccEprKa).pdRecord n 10 0).hardReset n true)
  else h

/-- POLICY_TIMER_EXPIRY (R509). -/
def Hub.policyExpiry (h : Hub) (n t : Nat) : Hub :=
  match tabFind (h.cc n).timers (k1 t) with
  | none => h
  | some _ => (h.modCc n (fun x => { x with timers := tabErase x.timers (k1 t) })).pdRecord n 11 t

/-- Claims of a master end (R495). -/
def Hub.ccClaimsEnd (h : Hub) (m : Nat) : Hub :=
  h.each (List.range 16) (fun h n => if h.get (R.ccPolicy n) = m then h.set (R.ccPolicy n) 15 else h)

/-- What a warm reset does to the PHYs (R511). -/
def Hub.ccWarm (h : Hub) : Hub :=
  h.each (List.range 16) (fun h n =>
    (((h.set (R.ccPolicy n) 15).modCc n (fun x => { x with rx := [], timers := [] })).settleCc n))

/-- The PHYs present their terminations once the firmware is ready (R511). -/
def Hub.ccStart (h : Hub) : Hub :=
  let h := { h with power := { h.power with phyOn := true } }
  h.each (List.range 16) (fun h n => h.ccJudge n)

/-! Commands (R495, R627). -/

/-- The refusal of a command that only the policy master may give, or none. -/
def Hub.policyRefusal (h : Hub) (m n : Nat) : Option Nat :=
  if !h.holds m (tgtStage n) 3 && (h.get (R.ccPolicy n) != m) then some stDenied
  else if h.isSlot n then some stBadArg
  else if h.get (R.ccPolicy n) ≠ m then some stBusy
  else none

/-- The response of PD.ROLE. -/
def Hub.roleOk (h : Hub) (n : Nat) : Ans × Hub := h.ok [h.wordAt rowsCc (0x4030004 + n * 0x40)]

/-- A PD.ROLE action of the policy master: `f` where `legal` holds. -/
def Hub.role (h : Hub) (m n : Nat) (bad : Option Nat) (f : Hub → Hub) : Ans × Hub :=
  match h.policyRefusal m n with
  | some s => h.refuse s
  | none => match bad with
    | some s => h.refuse s
    | none => ((f h).settleCc n).roleOk n

/-- BAD_ARG where a condition fails. -/
def badUnless (c : Bool) : Option Nat := if c then none else some stBadArg

/-- PD.ROLE CLAIM. -/
def Hub.roleClaim (h : Hub) (m n : Nat) : Ans × Hub :=
  let p := h.get (R.ccPolicy n)
  if !h.holds m (tgtStage n) 3 then h.refuse stDenied
  else if h.isSlot n then h.refuse stBadArg
  else if p ≠ 15 ∧ p ≠ m then h.refuse stBusy
  else (h.set (R.ccPolicy n) m).roleOk n

/-- PD.ROLE RELEASE. -/
def Hub.roleRelease (h : Hub) (m n : Nat) : Ans × Hub := h.role m n none (fun h => h.set (R.ccPolicy n) 15)

/-- PD.ROLE RP: level 3 is reserved. -/
def Hub.roleRp (h : Hub) (m n v : Nat) : Ans × Hub := h.role m n (badUnless (decide (v < 3))) (fun h => h.set (R.ccRplvlSet n) v)

/-- PD.ROLE DROLE. -/
def Hub.roleDrole (h : Hub) (m n v : Nat) : Ans × Hub := h.role m n (badUnless (decide (v < 2))) (fun h => h.set (R.ccDrole n) v)

/-- PD.ROLE VCONN_ON and VCONN_OFF. -/
def Hub.roleVconn (h : Hub) (m n : Nat) (on : Bool) : Ans × Hub := h.role m n none (fun h => h.vconn n on)

/-- Is another transition in progress, so that a swap action is refused (R505, R512)? -/
def Hub.swapBusy (h : Hub) (n : Nat) (toSrc : Bool) : Bool :=
  (h.cc n).accept == 1 || h.flag (R.ccHrst n) || (h.flag (R.ccSwap n) && !(toSrc && (h.cc n).frs))

/-- PD.ROLE SWAP_TO_SINK. -/
def Hub.roleToSink (h : Hub) (m n : Nat) : Ans × Hub :=
  h.role m n (if h.swapBusy n false then some stBusy else badUnless (h.astate n == asSrc)) (fun h =>
    ((h.set (R.ccSwap n) 1).modCc n (fun x => { x with swapToSrc := false })).sourceOff n)

/-- PD.ROLE SWAP_TO_SOURCE. -/
def Hub.roleToSource (h : Hub) (m n : Nat) : Ans × Hub :=
  h.role m n (if h.strapSnk n then some stBadArg else if h.swapBusy n true then some stBusy
      else badUnless (h.astate n == asSnk)) (fun h =>
    ((h.set (R.ccSwap n) 1).modCc n (fun x => { x with swapToSrc := true })).sourceOn n)

/-- PD.ROLE FRS_ARM (R506). -/
def Hub.roleFrsArm (h : Hub) (m n v : Nat) : Ans × Hub :=
  let ok := !h.strapSnk n && h.astate n == asSnk && (h.cc n).contract && (h.cc n).safe5 && !h.flag (R.ccTrans n)
  h.role m n (badUnless (v == 0 || (v == 1 && ok))) (fun h => h.set (R.ccFrsArm n) v)

/-- PD.ROLE EPR. -/
def Hub.roleEpr (h : Hub) (m n v : Nat) : Ans × Hub := h.role m n (badUnless (decide (v < 2))) (fun h => h.set (R.ccEpr n) v)

/-- PD.ROLE ERROR_RECOVERY. -/
def Hub.roleRecover (h : Hub) (m n : Nat) : Ans × Hub := h.role m n none (fun h => h.ccRecover n)

/-- PD.ROLE VCONN_ILIM (R494). -/
def Hub.roleIlim (h : Hub) (m n v : Nat) : Ans × Hub :=
  h.role m n (badUnless (decide (10 ≤ v) && decide (v ≤ 30))) (fun h => h.set (R.ccVconnIlim n) v)

/-- PD.TIMER SET: the image of PWR_CC_TMR_n within the windows of Table 16-5. -/
def Hub.timerSet (h : Hub) (m n w : Nat) : Ans × Hub :=
  let v := h.setAll (imageAt rowsCc (0x4030008 + n * 0x40) w)
  let inside := fun (f : Fld) (lo hi : Nat) => decide (lo ≤ v.get f) && decide (v.get f ≤ hi)
  match h.policyRefusal m n with
  | some s => h.refuse s
  | none =>
    if imageLegal rowsCc (0x4030008 + n * 0x40) w && inside (R.ccCcdb n) 100 200 && inside (R.ccPddb n) 10 20 &&
        inside (R.ccPshr n) 25 35 && inside (R.ccSrcrec n) 660 1000 then v.ok []
    else h.refuse stBadArg

/-- PD.TIMER START. -/
def Hub.timerStart (h : Hub) (m n t ms : Nat) : Ans × Hub :=
  match h.policyRefusal m n with
  | some s => h.refuse s
  | none =>
    if t < 4 ∧ 1 ≤ ms ∧ ms ≤ 65535 then (h.modCc n (fun x => { x with timers := tabPut x.timers (k1 t) ms })).ok []
    else h.refuse stBadArg

/-- PD.TIMER CANCEL. -/
def Hub.timerCancel (h : Hub) (m n t : Nat) : Ans × Hub :=
  match h.policyRefusal m n with
  | some s => h.refuse s
  | none =>
    if t < 4 then (h.modCc n (fun x => { x with timers := tabErase x.timers (k1 t) })).ok [] else h.refuse stBadArg

/-- The ten words of a message entry (Table 16-4). -/
def PdMsg.words (e : PdMsg) : List Nat :=
  let d := e.data ++ List.replicate (28 - e.data.length) 0
  (e.sopt * 2 ^ 29 + e.data.length * 2 ^ 22 + e.hdr) :: (bytesWords d ++ twoWords e.ftime)

/-- PD.RX: up to `max` entries, and with `state` the registers; `clr` clears the counters (R613). -/
def Hub.pdRx (h : Hub) (m n : Nat) (state : Bool) (max : Nat) (clr : Bool) : Ans × Hub :=
  if !h.holds m (tgtStage n) (if clr then 3 else 1) then h.refuse stDenied
  else if h.isSlot n ∨ 8 < max then h.refuse stBadArg
  else
    let out := (h.cc n).rx.take max
    let h := (h.modCc n (fun x => { x with rx := x.rx.drop max })).settleCc n
    let b := 0x4030000 + n * 0x40
    let st := if state then [0, 4, 8, 0x10, 0x14, 0x18, 0x1C, 0x20].map (fun o => h.wordAt rowsCc (b + o)) else []
    let h := h.when clr (fun h => h.setAll ([R.ccRxMsg n, R.ccTxMsg n, R.ccTxFail n, R.ccRetry n, R.ccDup n, R.ccRxDrop n,
      R.ccRecLost n, R.ccBadCrc n].map (fun f => (f, 0))))
    h.ok (out.length :: (out.flatMap PdMsg.words ++ st))

/-- The header as the hub completes it (R499). -/
def Hub.pdHeader (h : Hub) (n sopt hdr : Nat) : Nat :=
  let id := tabGet (h.cc n).txId (k1 sopt) 0
  let b := hdr - bits hdr 11 9 * 2 ^ 9 - bits hdr 8 8 * 2 ^ 8
  let b := b + id * 2 ^ 9
  if sopt = 0 then b - bits hdr 5 5 * 2 ^ 5 + h.get (R.ccProle n) * 2 ^ 8 + h.get (R.ccDrole n) * 2 ^ 5 else b

/-- Are the reserved bits, FTIME and the bytes past LEN of a message entry to be sent 0 (Table 16-4, R10)? -/
def txEntryOk (ws : List Nat) (len : Nat) : Bool :=
  (bits (ws.headD 0) 21 16 == 0) && (ws.getD 8 0 == 0) && (ws.getD 9 0 == 0) &&
  (((ws.drop 1).take 7).flatMap (leBytes 4) |>.drop len).all (fun b => b == 0)

/-- PD.TX with the words of a message entry (R499, R500). -/
def Hub.pdTx (h : Hub) (m n : Nat) (ws : List Nat) : Ans × Hub :=
  let w0 := ws.headD 0
  let sopt := bits w0 31 29
  let ams := bit w0 28
  let len := bits w0 27 22
  let data := ((ws.drop 1).take 7).flatMap (leBytes 4) |>.take len
  match h.policyRefusal m n with
  | some s => h.refuse s
  | none =>
    if ws.length ≠ 10 ∨ 28 < len ∨ (5 ≤ sopt ∧ len ≠ 0) ∨ ¬ txEntryOk ws len then h.refuse stBadArg
    else if (sopt = 1 ∨ sopt = 2) ∧ ¬ h.flag (R.ccVconnOn n) then h.refuse stBadArg
    else if h.flag (R.ccHrst n) || (h.cc n).tx.isSome then h.refuse stBusy
    else if sopt = 5 then (h.hardReset n true).ok [0]
    else if sopt = 6 then ((h.emit (.words "PD_CABLE_RESET" n [])).ccClearIds n [1, 2]).ok [0]
    else if sopt = 7 then (h.emit (.words "PD_BIST_CARRIER" n [])).ok [0]
    else
      let src := h.flag (R.ccProle n)
      let t : PdTx := { sopt := sopt, hdr := h.pdHeader n sopt (w0 % 2 ^ 16), data := data, waits := ams && src, tries := 0 }
      if ams && !src && h.get (R.ccRplvl n) == 1 then h.ok [3]
      else
        let h := h.when (ams && src) (fun h => h.set (R.ccRplvlSet n) 1)
        let h := h.when (!(ams && src)) (fun h => h.pdSend n t)
        ({ parked := true }, h.modCc n (fun x => { x with tx := some t, txRes := none }))

/-- The completion of a PD.TX that waited. -/
def Hub.pdTxDone (h : Hub) (n : Nat) : Option Ans × Hub :=
  match (h.cc n).txRes with
  | none => (none, h)
  | some r => (some { resp := [r] }, h.modCc n (fun x => { x with txRes := none }))

end Sys2Proof.Machine
end

