-- ==== Sys2Proof/Machine/ResetOps.lean ====
section
/-!
DEFINITION. Completion of Twiop commands in their mailboxes (R607, R616, R618), and the host tunnel-layer reset (R91).
-/

namespace Sys2Proof.Machine

open Sys2Proof

/-! Mailbox states (Table 21-2). -/

def mbIdle : Nat := 0
def mbQueued : Nat := 1
def mbServing : Nat := 2
def mbWaiting : Nat := 3
def mbDone : Nat := 4

/-- State of mailbox `m`. -/
def Hub.mbState (h : Hub) (m : Nat) : Nat := h.get (R.mbxState m)

/-- A device of the USB hub beside its registers: 0 the hub, 1 the embedded device, 2 the service device. -/
def Hub.usbDev (h : Hub) (d : Nat) : UsbDevX := tabGet h.usb.devs (k1 d) {}

/-- Change a USB device. -/
def Hub.modUsbDev (h : Hub) (d : Nat) (f : UsbDevX → UsbDevX) : Hub :=
  { h with usb := { h.usb with devs := tabSet h.usb.devs (k1 d) (f (h.usbDev d)) {} } }

/-- A reason bit of the embedded or service device (R469). -/
def Hub.usbReason (h : Hub) (d b : Nat) : Hub := h.modUsbDev d (fun x => { x with reason := setBit x.reason b })

/-- The two words of a completion record that depend on the command (Table 21-5), and its queueing. -/
def Hub.completionRecord (h : Hub) (m opcode status gens : Nat) : Hub :=
  h.addRecord m [0x17 * 2 ^ 24 + m * 2 ^ 16 + status * 2 ^ 8, h.get (R.mbxSeq m) * 2 ^ 16 + opcode,
    h.get (R.mbxCmdWord m 1), gens]

/-- What a fence knows the command of mailbox `m` by, once its doorbell has been accepted (R618, R152). -/
def bellKey (m : Nat) : Nat := 131072 + m

/-- A command of mailbox `m` completes (R607): `always` where its record is sent whatever NOTE says, with the generations
`gens` in its last word. A master without a mailbox sees the answer on its own path. -/
def Hub.completeWith (h : Hub) (m opcode : Nat) (a : Ans) (always : Bool) (gens : Nat) : Hub :=
  if 8 ≤ m then h.emit (.words "ANSWER" m (a.status :: a.fail :: a.resp))
  else
    let h := h.fenceDone (m + 1) (bellKey m)
    let resp := a.resp.take 256
    let h := h.setAll ((List.range resp.length).map (fun k => (R.mbxRspWord m k, resp.getD k 0)))
    let h := h.setAll [(R.mbxOpcode m, opcode), (R.mbxRlen m, 4 * resp.length), (R.mbxFail m, a.fail),
      (R.mbxDtick m, h.tickNum), (R.mbxCtag m, h.get (R.mbxCmdWord m 1)), (R.mbxState m, mbDone), (R.mbxStatus m, a.status),
      (R.mbxDoneSeq m, h.get (R.mbxSeq m))]
    let h := h.inc (R.mbxDoneCnt m)
    let h := h.when (m == 4 || m == 5) (fun h => h.usbReason (m - 3) 0)
    let h := { h with ctl := { h.ctl with order := h.ctl.order.filter (fun x => x != m)
                                          parked := tabErase h.ctl.parked (k1 m)
                                          ended := tabErase h.ctl.ended (k1 m) } }
    h.when (always || bit (h.get (R.mbxCmdWord m 0)) 15) (fun h => h.completionRecord m opcode a.status gens)

/-- A command completes. -/
def Hub.complete (h : Hub) (m opcode : Nat) (a : Ans) : Hub := h.completeWith m opcode a false 0

/-- A command goes on to WAITING (R616). -/
def Hub.park (h : Hub) (m opcode : Nat) (p : Parked) : Hub :=
  let h := if 8 ≤ m then h else h.set (R.mbxState m) mbWaiting
  { h with ctl := { h.ctl with order := h.ctl.order.filter (fun x => x != m)
                               parked := tabSet h.ctl.parked (k1 m) (some (opcode, p)) none } }

/-- The end of a command that either completes or is parked. -/
def Hub.finish (h : Hub) (m opcode : Nat) (p : Parked) (a : Ans) : Hub :=
  if a.parked then h.park m opcode p else h.complete m opcode a

/-- The parked action that mailbox `m` waits for. -/
def Hub.parkedOf (h : Hub) (m : Nat) : Option (Nat × Parked) := tabGet h.ctl.parked (k1 m) none

/-- Does a waiting command name the object of `p` (R616)? -/
def Parked.same : Parked → Parked → Bool
  | .pd a, .pd b => a == b
  | .raster a .., .raster b .. => a == b
  | .spare a b, .spare c d => a == c && b == d
  | .advance a, .advance b => a == b
  | .patch a .., .patch b .. => a == b
  | .enter, .enter => true
  | _, _ => false

/-- Is the object of `p` in the hands of a waiting command? -/
def Hub.objectBusy (h : Hub) (p : Parked) : Bool :=
  h.ctl.parked.any (fun e => match e.2 with | some (_, q) => q.same p | none => false)

/-! Host tunnel-layer reset (R91, Table 20-7). -/

/-- The master of a waiting TUNNEL command. -/
def TunCmd.master : TunCmd → Nat
  | .opening _ _ m => m
  | .modify _ _ m => m
  | .closing _ _ m => m
  | .altEgr _ _ m => m

/-- Waiting TUNNEL commands of a master are abandoned and their reservations released (R91). -/
def Hub.dropTunCmds (h : Hub) (m : Nat) : Hub :=
  let mine := h.tun.cmds.filter (fun c => c.master == m)
  let h := { h with tun := { h.tun with cmds := h.tun.cmds.filter (fun c => c.master != m) } }
  h.each mine (fun h c => match c with
    | .opening t _ _ => h.modTunX t (fun x => { x with reserved := false })
    | _ => h)

/-- User tunnels of master `m` that are OPEN or DRAINING go to QUARANTINE (Table 3-11). -/
def Hub.closeTunnelsOf (h : Hub) (m : Nat) : Hub :=
  h.each (h.liveIds.filter (fun t => isUser t && h.get (R.ttOwn t) == m && (h.tunIs t tOpen || h.tunIs t tDraining)))
    (fun h t => h.quarantine t)

/-- A system tunnel is closed and opened again at once with a new generation, if its condition holds (R91). -/
def Hub.reopen (h : Hub) (t : Nat) : Hub :=
  let h := h.when (h.tunIs t tOpen) (fun h => h.quarantine t)
  if h.sysCond t then h.openTunnel t (h.sysDesc t) 0 else h

/-- What a host tunnel-layer reset of master `m` drops: tunnels, waiting commands, plan slot, DMA channels, claims, a
queued command, and requests that wait behind a fence. -/
def Hub.hostDrop (h : Hub) (m : Nat) : Hub :=
  let h := (((h.closeTunnelsOf m).dropTunCmds m).planReset m).ccClaimsEnd m
  let h := h.each (List.range 64) (fun h c =>
    if h.get (R.dmaState c) ≠ dsEmpty ∧ h.get (R.dmaLoader c) = m then h.dmaRelease c else h)
  let h := h.each (h.attachedOn m) (fun h c => h.setFence c {})
  if h.mbState m = mbQueued then h.complete m (h.get (R.mbxCmdWord m 0) / 2 ^ 16) { status := stStale } else h

/-- A host tunnel-layer reset of master `m` (R91): its control and notification tunnels reopen. -/
def Hub.hostReset (h : Hub) (m : Nat) : Hub :=
  let h := h.hostDrop m
  if m < 4 then (h.reopen (1 + m)).reopen (10 + m) else h.reopen 5

end Sys2Proof.Machine
end

