-- ==== Sys2Proof/Machine/UsbOps.lean ====
section
/-!
DEFINITION. The USB hub, its embedded functions, endpoint buffers and the service device (chapter 15).
Devices are 0 the hub, 1 the embedded device, 2 the service device; ports are 0 to 15 for hub ports 1 to 16, and 16 for
the internal port 17. The two buses are 0 upstream and 1 service.
-/

namespace Sys2Proof.Machine

open Sys2Proof

/-! What the descriptors report (R462): a compound, self-powered device with individual power switching and over-current
protection, 17 ports of which port 17 alone cannot be removed, and a translator for each port. -/

def usbVendor : Nat := 0x3A57
/-- idProduct of the hub, the embedded device and the service device. -/
def usbProduct (d : Nat) : Nat := 0x5120 + d

/-- bNbrPorts, wHubCharacteristics (individual power switching, compound, individual over-current protection, TT think time of 8
full-speed bit times, no port indicators), bPwrOn2PwrGood and DeviceRemovable of the hub descriptor. -/
def hubPorts : Nat := 17
def hubCharacteristics : Nat := 0x000D
def hubPwrOn2PwrGood : Nat := 10
def hubRemovable : Nat := 2 ^ 17

/-- The serial string of all three devices: the HUBID in 16 uppercase hexadecimal digits. -/
def Hub.usbSerial (h : Hub) : List Char :=
  (List.range 16).map (fun i => "0123456789ABCDEF".toList.getD (h.sec.hubId / 16 ^ (15 - i) % 16) '0')

/-- A downstream port beside its registers. -/
def Hub.usbPort (h : Hub) (p : Nat) : UsbPortX := tabGet h.usb.ports (k1 p) {}

/-- Change a downstream port. -/
def Hub.modUsbPort (h : Hub) (p : Nat) (f : UsbPortX → UsbPortX) : Hub :=
  { h with usb := { h.usb with ports := tabSet h.usb.ports (k1 p) (f (h.usbPort p)) {} } }

/-- Set a change bit of a port: 0 connection, 2 suspend, 3 over-current, 4 reset. -/
def Hub.portChange (h : Hub) (p b : Nat) : Hub := h.modUsbPort p (fun x => { x with change := setBit x.change b })

/-- Master of the embedded and of the service device (R474). -/
def usbMaster (d : Nat) : Nat := if d = 2 then 5 else 4

/-- Gate target of an interface of a device (Table 19-4). -/
def usbTarget (d itf : Nat) : Nat := if d = 2 then 0x56 + itf else 0x52 + itf

/-- Is the device configured? -/
def Hub.usbCfg (h : Hub) (d : Nat) : Bool :=
  match d with | 0 => (h.usbDev 0).cfg | 1 => h.flag R.usbUpCfg | _ => h.flag R.usbSvcCfg

/-- Is the device's bus suspended? -/
def Hub.usbSusp (h : Hub) (d : Nat) : Bool := if d = 2 then h.flag R.usbSvcSusp else h.flag R.usbUpSusp

/-- Does an interface answer and move data (R474)? -/
def Hub.itfOpen (h : Hub) (d itf : Nat) : Bool := h.usbCfg d && h.holds (usbMaster d) (usbTarget d itf) 1

/-- The buffer bound to an endpoint: `dev` is 0 for the embedded and 1 for the service device. -/
def Hub.bufferOf (h : Hub) (dev epnum dir : Nat) : Option Nat :=
  (List.range 32).find? (fun b => h.flag (R.usbBufEn b) && h.get (R.usbBufDev b) == dev && h.get (R.usbBufEpnum b) == epnum &&
    h.get (R.usbBufDir b) == dir)

/-- Has an endpoint of device `d` a buffer? One without answers STALL (R476). -/
def Hub.epBound (h : Hub) (d epnum dir : Nat) : Bool := (h.bufferOf (if d = 2 then 1 else 0) epnum dir).isSome

/-! Reports on endpoint 0x82 (R469, R484, R485). -/

/-- Send the report of a device whose reason set is not empty, once it is configured and awake. -/
def Hub.usbReport (h : Hub) (d : Nat) : Hub :=
  let x := h.usbDev d
  if x.reason = 0 ∨ ¬ h.itfOpen d 0 ∨ ¬ h.epBound d 2 1 ∨ h.usbSusp d ∨ x.resume then h
  else
    let w := [0x20 * 2 ^ 24 + x.reason * 2 ^ 16 + h.get (R.mbxSeq (d + 3)), h.summary] ++ twoWords h.now
    (h.emit (.words "USB_REPORT" d w)).modUsbDev d (fun x => { x with reason := 0 })

/-- CTL_FC_SUMMARY has changed, or a report is due (R469). -/
def Hub.settleReports (h : Hub) : Hub :=
  let s := h.summary
  let h := if s = h.usb.summary then h
    else (({ h with usb := { h.usb with summary := s } }).usbReason 1 1).usbReason 2 1
  (h.usbReport 1).usbReport 2

/-- A wake reason of the hub arises: a connect, a disconnect or an over-current on a port (R484). -/
def Hub.hubWake (h : Hub) : Hub := if h.usbSusp 0 then h.modUsbDev 0 (fun x => { x with wake := true }) else h

/-! Deconfiguration and the end of a session. -/

/-- The embedded device leaves its configuration (R470): settleSys quarantines tunnel 0x005. -/
def Hub.usbDeconf (h : Hub) : Hub :=
  let h := h.modUsbDev 1 (fun x => { x with alt := 0 })
  if h.flag R.usbUpCfg then (h.set R.usbUpCfg 0).hostDrop 4 else h

/-- A device beside its registers returns to its default state. -/
def UsbDevX.dflt (x : UsbDevX) : UsbDevX :=
  { x with addr := 0, cfg := false, rwe := false, resume := false, driving := false, wake := false }

/-- The embedded device returns to its default state: a reset of its bus, or a detach (R470). -/
def Hub.funcDefault (h : Hub) : Hub := (h.usbDeconf.set R.usbUpRwe 0).modUsbDev 1 UsbDevX.dflt

/-- The upstream device returns to its default state: bus reset, or the pull-up is removed. -/
def Hub.usbDefault (h : Hub) : Hub := (h.funcDefault.setAll [(R.usbUpAddr, 0), (R.usbUpSusp, 0)]).modUsbDev 0 UsbDevX.dflt

/-- The service device returns to its default state. -/
def Hub.svcDefault (h : Hub) : Hub :=
  (h.setAll [(R.usbSvcAddr, 0), (R.usbSvcCfg, 0), (R.usbSvcSusp, 0)]).modUsbDev 2
    (fun x => { x with rwe := false, resume := false, driving := false, wake := false })

/-- A service session ends (R480). -/
def Hub.sessionEnd (h : Hub) : Hub :=
  let h := { h with usb := { h.usb with sesDur := none, sesEnd := none } }
  ((h.setAll [(R.usbSvcConn, 0), (R.usbMinLeft, 0)]).svcDefault)

/-- Is a session open? -/
def Hub.sessionOpen (h : Hub) : Bool := h.usb.sesDur.isSome || h.usb.sesEnd.isSome

/-! Downstream ports (R461, R464 to R466). -/

/-- Flags of a port, 0 to 16. -/
def Hub.portConn (h : Hub) (p : Nat) : Bool := if p = 16 then (h.usbPort 16).conn else h.flag (R.usbPortConn p)
def Hub.portEn (h : Hub) (p : Nat) : Bool := if p = 16 then (h.usbPort 16).en else h.flag (R.usbPortEn p)
def Hub.portSusp (h : Hub) (p : Nat) : Bool := if p = 16 then (h.usbPort 16).susp else h.flag (R.usbPortSusp p)

/-- Write the flags of a port. -/
def Hub.setPort (h : Hub) (p : Nat) (conn en susp : Bool) : Hub :=
  if p = 16 then h.modUsbPort 16 (fun x => { x with conn := conn, en := en, susp := susp })
  else h.setAll [(R.usbPortConn p, b2n conn), (R.usbPortEn p, b2n en), (R.usbPortSusp p, b2n susp)]

/-- A port is disabled: what is being driven on it ends. -/
def Hub.portDisable (h : Hub) (p : Nat) : Hub :=
  (h.setPort p (h.portConn p) false false).modUsbPort p (fun x => { x with reset := false, resume := false })

/-- A device leaves: the port is disabled and C_PORT_CONNECTION is set. -/
def Hub.portLeave (h : Hub) (p : Nat) : Hub :=
  let h := h.when (p == 16) (fun h => h.funcDefault)
  if h.portConn p then (((h.portDisable p).setPort p false false false).portChange p 0).hubWake else h.portDisable p

/-- Does the power region report VBUS of a port valid (R465)? -/
def Hub.vbusGood (h : Hub) (p : Nat) : Bool := !h.isSlot p && ((h.stageIs p sgOn && h.flag (R.stgPg p)) || h.stageIs p sgSink)

/-- Is the stage tripped by its breaker or its fast over-current comparator (R466)? -/
def Hub.stageOc (h : Hub) (p : Nat) : Bool :=
  (h.stageIs p sgRetry || h.stageIs p sgLatched) &&
  (bit (h.get (R.stgCause p)) caCurve || bit (h.get (R.stgCause p)) caItrip || bit (h.get (R.stgCause p)) caOc)

/-- VBUS of a port stops being valid (R465). -/
def Hub.vbusLoss (h : Hub) (p : Nat) : Hub :=
  if h.flag (R.usbPortVbusok p) then (h.setAll [(R.usbPortVbusok p, 0), (R.usbPortPwr p, 0)]).portLeave p else h

/-- VBUSOK, PWR, OC and connection follow the power region and the data role (R465, R466, R490). -/
def Hub.settlePort (h : Hub) (p : Nat) : Hub :=
  let v := h.vbusGood p
  let was := (h.usbPort p).was
  let h := if v = was then h else h.modUsbPort p (fun x => { x with was := v })
  let h := if v && !was then h.set (R.usbPortVbusok p) 1 else if !v && was then h.vbusLoss p else h
  let h := h.set (R.usbPortPwr p) (b2n ((h.usbPort p).power && h.flag (R.usbPortVbusok p)))
  let h := if h.flag (R.usbPortOc p) && !h.stageOc p then h.set (R.usbPortOc p) 0 else h
  if h.flag (R.usbPortConn p) && (!h.flag (R.ccDrole p) || !h.flag (R.usbPortPwr p)) then h.portLeave p else h

/-- Port 17 connects once its power feature is set and the firmware is ready (R486). -/
def Hub.innerConnect (h : Hub) : Hub :=
  if (h.usbPort 16).power && (h.flag R.psFwrdy || h.flag R.psStfail) && !h.portConn 16 then
    ((h.setPort 16 true false false).portChange 16 0).hubWake
  else h

/-- DOWNSTREAM_CONNECT (R464). -/
def Hub.portConnect (h : Hub) (p : Nat) : Hub :=
  if h.isSlot p || !h.flag (R.usbPortPwr p) || !h.flag (R.ccDrole p) || h.portConn p then h
  else ((h.setPort p true false false).portChange p 0).hubWake

/-- SetPortFeature and ClearPortFeature of PORT_POWER (R465). -/
def Hub.portPower (h : Hub) (p : Nat) (on : Bool) : Hub :=
  let h := h.modUsbPort p (fun x => { x with power := on })
  let h := if on then h else ((h.when (p == 16) (fun h => h.funcDefault)).portDisable p).setPort p false false false
  if p = 16 then h.innerConnect else h.settlePort p

/-- SetPortFeature(PORT_RESET) (R464, R482). -/
def Hub.portReset (h : Hub) (p : Nat) : Hub :=
  if h.portConn p then
    let h := h.when (p == 16) (fun h => h.funcDefault)
    ((h.setPort p true false false).modUsbPort p (fun x => { x with reset := true, resume := false })).emit (.words "USB_SE0" p [])
  else h

/-- PORT_RESET_COMPLETE at the speed negotiated: 0 full, 1 low, 2 high (R463, R464). -/
def Hub.portResetDone (h : Hub) (p speed : Nat) : Hub :=
  if !(h.usbPort p).reset then h
  else
    let h := (h.modUsbPort p (fun x => { x with reset := false })).setPort p true true false
    let s := if speed = 2 ∧ h.get R.usbUpSpeed = 0 then 0 else speed
    (h.when (p != 16) (fun h => h.set (R.usbPortSpeed p) s)).portChange p 4

/-- SetPortFeature(PORT_SUSPEND) (R483). -/
def Hub.portSuspend (h : Hub) (p : Nat) : Hub := if h.portEn p then h.setPort p true true true else h

/-- ClearPortFeature(PORT_SUSPEND): 20 ms of resume (R485). -/
def Hub.portResume (h : Hub) (p : Nat) : Hub :=
  if h.portSusp p then (h.modUsbPort p (fun x => { x with resume := true })).emit (.words "USB_RESUME" p []) else h

/-- DOWNSTREAM_RESUME_END (R485). -/
def Hub.portResumeEnd (h : Hub) (p : Nat) : Hub :=
  if (h.usbPort p).resume then
    ((h.modUsbPort p (fun x => { x with resume := false })).setPort p true true false).portChange p 2
  else h

/-- DOWNSTREAM_REMOTE_WAKE: the hub drives the resume on, or marks WAKE_PEND (R485). -/
def Hub.portWake (h : Hub) (p : Nat) : Hub :=
  if !h.portSusp p then h
  else if (h.usbPort p).resume then h.when (p != 16) (fun h => h.set (R.usbPortWakePend p) 1)
  else h.portResume p

/-- USB_OVER_CURRENT (R466). -/
def Hub.portOc (h : Hub) (p : Nat) : Hub :=
  if h.stageOc p && !h.flag (R.usbPortOc p) then
    let h := (((h.set (R.usbPortOc p) 1).inc (R.usbPortOcCnt p)).portDisable p).portChange p 3
    (h.modUsbPort p (fun x => { x with change := clrBit x.change 4 })).hubWake
  else h

/-- ClearPortFeature of a change bit. -/
def Hub.portClearChange (h : Hub) (p b : Nat) : Hub := h.modUsbPort p (fun x => { x with change := clrBit x.change b })

/-! Pull-ups and sessions (R478, R486). -/

/-- Are the pull-ups allowed in the power state? -/
def Hub.usbAwake (h : Hub) : Bool := decide (h.get R.psState < 2) || h.get R.psState == 4

/-- Minutes left of a session: it runs from connection (R478). -/
def Hub.settleSession (h : Hub) : Hub :=
  let h := if h.flag R.usbSvcConn then
      (match h.usb.sesDur with
       | some m => { h with usb := { h.usb with sesDur := none, sesEnd := some (h.now + m * 60000000000) } }
       | none => h)
    else h
  match h.usb.sesDur, h.usb.sesEnd with
  | some m, _ => h.set R.usbMinLeft m
  | none, some e => h.set R.usbMinLeft ((e - h.now + 59999999999) / 60000000000)
  | none, none => h.set R.usbMinLeft 0

/-- The pull-ups follow their conditions; a warm reset keeps the upstream connection (R486). -/
def Hub.settleConn (h : Hub) : Hub :=
  let up := h.flag R.usbUpConn
  let h := if up && !(h.usb.upVbus && h.usbAwake) then (h.set R.usbUpConn 0).usbDefault
    else if !up && (h.flag R.psFwrdy || h.flag R.psStfail) && h.usb.upVbus && h.usbAwake then h.set R.usbUpConn 1 else h
  let svc := h.flag R.usbSvcConn
  let on := h.flag R.psFwrdy && h.usb.svcVbus && h.sessionOpen && h.usbAwake
  let h := if svc && !on then (h.set R.usbSvcConn 0).svcDefault else if !svc && on then h.set R.usbSvcConn 1 else h
  h.settleSession

/-- Everything about USB that follows the rest of the hub. -/
def Hub.settleUsb (h : Hub) : Hub := ((h.each (List.range 16) (fun h p => h.settlePort p)).settleConn).settleReports

/-- UPSTREAM_VBUS_VALID: UP_VBUS (bus 0) or SVC_VBUS (bus 1). -/
def Hub.busVbus (h : Hub) (bus : Nat) (ok : Bool) : Hub :=
  if bus = 0 then { h with usb := { h.usb with upVbus := ok } } else { h with usb := { h.usb with svcVbus := ok } }

/-! Bus events and standard requests (R464, R481 to R485). -/

/-- USB_BUS_RESET: `during` a control transfer; `hs` where the chirp exchange ends in high speed. A reset of the upstream
bus disables every downstream port. -/
def Hub.busReset (h : Hub) (bus : Nat) (during hs : Bool) : Hub :=
  let h := h.when during (fun h => h.inc R.usbCtlAbandon)
  if bus = 0 then
    let h := h.usbDefault.set R.usbUpSpeed (2 * b2n hs)
    h.each (List.range 17) (fun h p => h.portDisable p)
  else h.svcDefault.set R.usbSvcSpeed (b2n hs)

/-- Devices on a bus. -/
def busDevs (bus : Nat) : List Nat := if bus = 0 then [0, 1] else [2]

/-- USB_SUSPEND. -/
def Hub.busSuspend (h : Hub) (bus : Nat) : Hub := if bus = 0 then h.set R.usbUpSusp 1 else h.set R.usbSvcSusp 1

/-- USB_HOST_RESUME: the resume begins, or has ended (`done`); reasons that stayed pending are then reported. -/
def Hub.busResume (h : Hub) (bus : Nat) (done : Bool) : Hub :=
  let susp := if bus = 0 then h.flag R.usbUpSusp else h.flag R.usbSvcSusp
  if !susp then h
  else if !done then h.each (busDevs bus) (fun h d => h.modUsbDev d (fun x => { x with resume := true }))
  else
    let h := if bus = 0 then h.set R.usbUpSusp 0 else h.set R.usbSvcSusp 0
    let w := (h.usbDev 0).wake
    let h := h.each (busDevs bus) (fun h d => h.modUsbDev d (fun x => { x with resume := false, driving := false, wake := false }))
    h.when (bus == 0 && w) (fun h => h.emit (.words "USB_STATUS_CHANGE" 0 []))

/-- Has device `d` a wake reason? -/
def Hub.wakeWanted (h : Hub) (d : Nat) : Bool := if d = 0 then (h.usbDev 0).wake else (h.usbDev d).reason != 0

/-- USB_REMOTE_WAKE: `seenK` where the sample of the bus finds a K (R484). -/
def Hub.remoteWake (h : Hub) (d : Nat) (seenK : Bool) : Hub :=
  let x := h.usbDev d
  if !h.usbSusp d || !x.rwe || !h.wakeWanted d || x.driving then h
  else if seenK || x.resume then (if d = 0 then h else h.usbReason d 2)
  else (h.modUsbDev d (fun x => { x with driving := true })).emit (.words "USB_WAKE_K" d [])

/-- SET_ADDRESS, its status stage complete. -/
def Hub.setAddress (h : Hub) (d a : Nat) : Hub :=
  match d with
  | 0 => h.set R.usbUpAddr a
  | 1 => h.modUsbDev 1 (fun x => { x with addr := a % 128 })
  | _ => h.set R.usbSvcAddr a

/-- SET_CONFIGURATION: values above 1 are answered with STALL. -/
def Hub.setConfiguration (h : Hub) (d v : Nat) : Hub :=
  if 1 < v then h
  else match d with
    | 0 => h.modUsbDev 0 (fun x => { x with cfg := v == 1 })
    | 1 => if v = 1 then h.set R.usbUpCfg 1 else h.usbDeconf
    | _ => h.set R.usbSvcCfg v

/-- SET_INTERFACE: only the telemetry interface has a second setting (Table 15-3, R474). -/
def Hub.setInterface (h : Hub) (d itf alt : Nat) : Hub :=
  if d = 1 ∧ itf = 1 ∧ alt < 2 ∧ h.itfOpen 1 1 then h.modUsbDev 1 (fun x => { x with alt := alt }) else h

/-- SET_FEATURE(DEVICE_REMOTE_WAKEUP), feature 1; RWE shows the embedded device's. -/
def Hub.usbSetFeature (h : Hub) (d feature : Nat) : Hub :=
  if feature ≠ 1 then h
  else (h.modUsbDev d (fun x => { x with rwe := true })).when (d == 1) (fun h => h.set R.usbUpRwe 1)

/-- GET_TUNNEL_GEN. -/
def Hub.tunnelGen (h : Hub) : Hub := h.emit (.words "USB_TUNNEL_GEN" 0 [h.get (R.ttGen 5) + h.get (R.ttState 5) * 16])

/-! Log store (R473). -/

/-- Entries of the fault log held, oldest first. -/
def Hub.faultLog (h : Hub) : List LogEntry :=
  let n := h.get R.fcolCount
  let next := h.get R.fcolNext
  (List.range n).filterMap (fun k => tabFind h.col.log (k1 ((next + 256 - n + k) % 256)))

/-- Entries of late-error log `g`, oldest first. -/
def Hub.lateLog (h : Hub) (g : Nat) : List Record :=
  let n := h.get (R.blogCount g)
  let next := h.get (R.blogNext g)
  (List.range n).map (fun k => h.blogEntry g ((next + 32 - n + k) % 32))

/-- LOG_SELECT: the endpoint returns the records held, oldest first. -/
def Hub.logSelect (h : Hub) (d v : Nat) : Hub :=
  if 17 < v then h
  else
    let h := h.modUsbDev d (fun x => { x with log := v })
    if !h.itfOpen d (if d = 2 then 1 else 2) || !h.epBound d (if d = 2 then 3 else 4) 1 then h
    else
      let ws := if v = 17 then h.faultLog.flatMap (fun e => e.words 0) else (h.lateLog v).flatMap id
      h.emit (.words "USB_LOG" d ws)

/-! Management and telemetry functions (R468, R471, R472). -/

/-- USB_MANAGEMENT_TRANSFER: a frame, or none where the transfer is malformed. -/
def Hub.management (h : Hub) (d : Nat) (f : Option Frame) : Hub :=
  if !h.itfOpen d 0 || !h.epBound d 1 0 || (d == 1 && !h.tunIs 5 tOpen) then h
  else match f with
    | none => h.inc R.usbFrmDrop
    | some f =>
      if d = 1 then (if f.tid = 5 ∧ formatOk f then h.ingress f 0 else h.inc R.usbFrmDrop)
      else if f.tid ≠ 0 ∨ f.gen ≠ 0 ∨ f.cls ≠ 0 ∨ ¬ formatOk f then h.inc R.usbFrmDrop
      else h.emit (.frame codeE3 f)

/-- Item words of a report: each item is the converter channel of its number, with its latest code. -/
def Hub.itemWords (h : Hub) (l : List Nat) : List Nat := l.map (fun i => i * 2 ^ 24 + h.code i)

/-- The forge time of the newest sample among the items of a report (R471). -/
def Hub.newestSample (h : Hub) (l : List Nat) : Nat := (l.map h.codeAt).foldl max 0

/-- ISOCHRONOUS_REPORT: whether the firmware has built a new report, and the bytes that a DMA-fed buffer holds. -/
def Hub.isoReport (h : Hub) (rebuilt : Bool) (held : Nat) : Hub :=
  if !h.itfOpen 1 1 || (h.usbDev 1).alt != 1 then h
  else match h.bufferOf 0 3 1 with
    | none => h
    | some b =>
      if h.flag (R.usbBufFeed b) then h.emit (.words "USB_ISO_FEED" 0 [min held 256])
      else if rebuilt then
        let l := (List.range 37).filter (fun i => bit h.usb.items i)
        let seq := (h.usb.rseq + 1) % 2 ^ 16
        let r := (2 ^ 24 + l.length * 2 ^ 16 + seq) :: (twoWords (h.newestSample l) ++ h.itemWords l)
        ({ h with usb := { h.usb with rseq := seq, report := r } }).emit (.words "USB_ISO" 0 r)
      else (h.inc R.usbIsoRepeat).emit (.words "USB_ISO" 0 h.usb.report)

/-! Commands. -/

/-- wMaxPacketSize at high speed of an endpoint of Table 15-3; 0 where there is none. -/
def packetSize (dev epnum dir : Nat) : Nat :=
  match dev, epnum, dir with
  | _, 1, _ => 512
  | _, 2, 1 => 16
  | 0, 3, 1 => 256
  | _, 3, 1 => 512
  | _, 4, 1 => 512
  | 0, 5, 1 => 512
  | _, _, _ => 0

/-- Is buffer `b` legal as it stands (R476)? -/
def Hub.bufferLegal (h : Hub) (b : Nat) : Bool :=
  let dev := h.get (R.usbBufDev b)
  let ep := h.get (R.usbBufEpnum b)
  let dir := h.get (R.usbBufDir b)
  let size := h.get (R.usbBufSize b)
  let p := packetSize dev ep dir
  if !h.flag (R.usbBufEn b) then size == 0
  else p != 0 && decide (2 * p ≤ size * 64) && decide (size ≤ 1024) && decide (h.get (R.usbBufOffset b) + size ≤ 1024) &&
    (!h.flag (R.usbBufFeed b) || (dev == 0 && ep == 3 && dir == 1))

/-- Do two buffers collide: one binding, or overlapping bytes? -/
def Hub.buffersClash (h : Hub) (a b : Nat) : Bool :=
  let oa := h.get (R.usbBufOffset a)
  let ob := h.get (R.usbBufOffset b)
  h.flag (R.usbBufEn a) && h.flag (R.usbBufEn b) &&
  ((h.get (R.usbBufDev a) == h.get (R.usbBufDev b) && h.get (R.usbBufEpnum a) == h.get (R.usbBufEpnum b) &&
    h.get (R.usbBufDir a) == h.get (R.usbBufDir b)) ||
   (decide (oa < ob + h.get (R.usbBufSize b)) && decide (ob < oa + h.get (R.usbBufSize a))))

/-- Is the endpoint to which buffer `b` is bound in use (R476)? -/
def Hub.bufferBusy (h : Hub) (b : Nat) : Bool :=
  h.flag (R.usbBufEn b) &&
  (if h.flag (R.usbBufDev b) then h.flag R.usbSvcCfg
   else if h.get (R.usbBufEpnum b) = 3 then (h.usbDev 1).alt != 0 else h.flag R.usbUpCfg)

/-- USB.CARVE: pairs of a buffer and its image. -/
def Hub.usbCarve (h : Hub) (m : Nat) (l : List (Nat × Nat)) : Ans × Hub :=
  let addr := fun b => 0x7040080 + b * 4
  let v := h.each l (fun h p => h.setAll (imageAt rowsUsbBuf (addr p.1) p.2))
  let changed := (l.map Prod.fst).filter (fun b => h.wordAt rowsUsbBuf (addr b) != v.wordAt rowsUsbBuf (addr b))
  if !h.holds m tgtEpMem 3 then h.refuse stDenied
  else if l.isEmpty then h.refuse stZeroLen
  else if 32 < l.length ∨ l.any (fun p => decide (31 < p.1) || !imageLegal rowsUsbBuf (addr p.1) p.2) ∨
      ¬ (List.range 32).all (fun b => v.bufferLegal b) ∨
      (List.range 32).any (fun a => (List.range a).any (fun b => v.buffersClash a b)) then h.refuse stBadArg
  else if changed.any (fun b => h.bufferBusy b || v.bufferBusy b) then h.refuse stBusy
  else v.ok []

/-- USB.FUNC ITEMS: target 0x53. -/
def Hub.usbItems (h : Hub) (m t lo hi : Nat) : Ans × Hub :=
  if t < 0x52 ∨ 0x58 < t then h.refuse stBadArg
  else if !h.holds m t 3 then h.refuse stDenied
  else if t ≠ 0x53 ∨ 2 ^ 32 ≤ lo ∨ 32 ≤ hi then h.refuse stBadArg
  else ({ h with usb := { h.usb with items := hi * 2 ^ 32 + lo } }).ok []

/-- USB.FUNC VERBOSITY: targets 0x55 and 0x58. -/
def Hub.usbVerbosity (h : Hub) (m t v : Nat) : Ans × Hub :=
  if t < 0x52 ∨ 0x58 < t then h.refuse stBadArg
  else if !h.holds m t 3 then h.refuse stDenied
  else if (t ≠ 0x55 ∧ t ≠ 0x58) ∨ 3 < v then h.refuse stBadArg
  else (h.modUsbDev (if t = 0x55 then 1 else 2) (fun x => { x with verb := v })).ok []

/-- USB.FUNC QUERY. -/
def Hub.usbQuery (h : Hub) (m t : Nat) : Ans × Hub :=
  if t < 0x52 ∨ 0x58 < t then h.refuse stBadArg
  else if !h.holds m t 1 then h.refuse stDenied
  else h.ok (h.wordsAt rowsUsb 0x7040000 3 ++ h.wordsAt rowsUsbPort 0x7040010 16 ++ h.wordsAt rowsUsbBuf 0x7040080 32 ++
    h.wordsAt rowsUsb 0x7040100 2)

/-- USB.CONNECT CHALLENGE (R478, R479): a contained SVC_AUTH refuses it too (Table 18-1). -/
def Hub.connectChallenge (h : Hub) (m : Nat) : Ans × Hub :=
  if !h.holds m tgtService 3 then h.refuse stDenied
  else if h.now < h.usb.holdUntil || h.contained srcSvcAuth then h.refuse stBusy
  else
    let (n, h) := h.nonce
    ({ h with usb := { h.usb with chal := some { nonce := n, at_ := h.now } } }).ok (bytesWords n)

/-- What PS must be: AES-256-CMAC(K_svc, "SVC" ‖ Nh ‖ HUBID ‖ DUR), if K_svc is valid and the challenge is fresh. -/
def Hub.sessionProof (h : Hub) (dur : Nat) : Option (List Byte) :=
  match h.usb.chal, h.svcKey with
  | some c, some s =>
    if h.now < c.at_ + 60000000000 then
      some (cmacBytes (h.keyMat s) (labelBytes "SVC" ++ c.nonce ++ le64 h.sec.hubId ++ le32 dur))
    else none
  | _, _ => none

/-- USB.CONNECT PROVE. -/
def Hub.connectProve (h : Hub) (m dur : Nat) (ps : List Nat) : Ans × Hub :=
  if !h.holds m tgtService 3 then h.refuse stDenied
  else if dur = 0 ∨ 1440 < dur ∨ ps.length ≠ 4 then h.refuse stBadArg
  else
    let good := h.sessionProof dur == some (wordBytes ps)
    let h := { h with usb := { h.usb with chal := none } }
    if good then
      let run := h.flag R.usbSvcConn
      let h := { h with usb := { h.usb with
        sesDur := if run then none else some dur, sesEnd := if run then some (h.now + dur * 60000000000) else none } }
      let h := (h.set R.usbSvcHoldn 0).settleConn
      h.ok [h.get R.usbMinLeft]
    else
      let k := min 127 (h.get R.usbSvcHoldn + 1)
      let h := (h.set R.usbSvcHoldn k).inc R.usbBadProof
      let h := { h with usb := { h.usb with holdUntil := h.now + holdOff k } }
      (h.raise srcSvcAuth k).refuse stDenied

/-- USB.CONNECT DISCONNECT. -/
def Hub.connectEnd (h : Hub) (m : Nat) : Ans × Hub :=
  if !h.holds m tgtService 3 then h.refuse stDenied else h.sessionEnd.ok []

end Sys2Proof.Machine
end

