-- ==== Sys2Proof/Machine/PsOps.lean ====
section
/-!
DEFINITION. Start-up, resets and power states (chapter 20): cold and warm reset, firmware ready, the entry handshake,
the point of no return, and the return order.
-/

namespace Sys2Proof.Machine

open Sys2Proof

/-! Power states and causes (Table 20-9). -/

def psLit : Nat := 0
def psIdle : Nat := 1
def psBanked : Nat := 2
def psEmber : Nat := 3
def psEntering : Nat := 4
def psReturning : Nat := 5

/-- Is the chip in power state `s`? -/
def Hub.psIs (h : Hub) (s : Nat) : Bool := h.get R.psState == s

/-- Is the chip powered for its links: lit, idle or entering? -/
def Hub.linksPowered (h : Hub) : Bool := h.psIs psLit || h.psIs psIdle || h.psIs psEntering

/-- Is the chip outside banked, ember and a return, so that every domain but the always-on one works (Table 20-1)? -/
def Hub.domainsOn (h : Hub) : Bool := !(h.psIs psBanked || h.psIs psEmber || h.psIs psReturning)

/-- Change what the Control region keeps beside its registers. -/
def Hub.modCtl (h : Hub) (f : Ctl → Ctl) : Hub := { h with ctl := f h.ctl }

/-- Drop every register field whose key satisfies `p`: those fields read their reset values again. -/
def Hub.dropRegs (h : Hub) (p : Key → Bool) : Hub := { h with regs := h.regs.filter (fun e => !p e.1) }

/-! Cold reset (R596, Table 20-7). -/

/-- The registers of the tunnel table, ports and stages that a cold reset sets by rule or by strap: ALT_EGR of the
summary tunnels (R72), the line port straps (R341, R638) and what follows from them, and the ordering grade (R2, R300). -/
def coldFields (g : Grade) (lkind lsnk : Nat) (hbcompat : Bool) : List (Fld × Nat) :=
  [(R.ttAltEgr 6, 2), (R.ttAltEgr 7, 3), (R.ttAltEgr 8, 4), (R.ttAltEgr 9, 1)] ++
  (List.range 16).flatMap (fun n =>
    let slot := bit lkind n
    [(R.lpKind n, b2n slot), (R.lpSnk n, b2n (bit lsnk n)), (R.lpEn n, b2n slot),
     (R.stgStartm n, if slot then (if hbcompat then 2 else 1) else 0),
     (R.ccAstate n, if !slot && bit lsnk n then 3 else 0)]) ++
  (if g == .s then (List.range 4).flatMap (fun n => [(R.laneMaxrate n, 1), (R.admCap n, 8 * 4096 + 2250)]) else [])

/-- The hub after a cold reset: fuses, grade and the model's own fields stay; everything else is lost (Table 20-7). -/
def Hub.cold (h : Hub) (cause lkind lsnk : Nat) (hbcompat : Bool) (smbadr : Nat) : Hub :=
  let sec : Security := { hubId := h.sec.hubId, pkh := h.sec.pkh, step := h.sec.step, dbgLock := h.sec.dbgLock,
                          fuseV := h.sec.fuseV, draws := h.sec.draws }
  let n : Hub := { regs := [], grade := h.grade, sec := sec, out := h.out, drawn := h.drawn,
                   ctl := { hbcompat := hbcompat, smbadr := smbadr % 4 } }
  (n.setAll (coldFields h.grade lkind lsnk hbcompat)).set R.psRstcause cause

/-! Warm reset (R599, Table 20-7). -/

/-- Every ID that can be open goes to QUARANTINE for 8 boundaries; generations stay (Table 3-11, R90). Cut-through frames that
still arrive are abandoned (R250). -/
def Hub.quarantineAll (h : Hub) : Hub :=
  let h := h.each h.ctArriving (fun h p => h.ctAbort p.2)
  let ids := List.range 4096
  let fill (l : Tab Nat) (f : Nat → Fld) (v : Nat) : Tab Nat :=
    let k := (f 0).key.id
    l.filter (fun e => decide (e.1.id < k)) ++ ids.map (fun t => ((f t).key, v)) ++ l.filter (fun e => decide (k < e.1.id))
  let h := { h with regs := fill (fill h.regs R.ttState tQuar) R.runQleft 8 }
  let h := h.dropRegs (fun k => k.id == (R.runDrained 0).key.id || k.id == (R.runRsv 0).key.id || k.id == (R.ttFailed 0).key.id)
  { h with hearth := { h.hearth with
             queues := [], held := []
             egress := h.hearth.egress.map (fun e => (e.1, { e.2 with summary := [], behind := [], b2 := [] })) }
           tun := { x := h.tun.x.map (fun e => (e.1, ({ lastOwn := e.2.lastOwn } : TunX))) } }

/-- Register fields that a warm reset gives their reset values: mailboxes, gates, egress and buffer settings, admission
capacities, ownership and the feature lock (R619, R575, Table 9-5, R573, R666). -/
def warmIds : List Nat :=
  [R.mbxSeq 0, R.mbxState 0, R.mbxStatus 0, R.mbxDoneSeq 0, R.mbxOpcode 0, R.mbxRlen 0, R.mbxFail 0, R.mbxDtick 0,
   R.mbxCtag 0, R.mbxDbIgnored 0, R.mbxDoneCnt 0, R.mbxCmdWord 0 0, R.mbxRspWord 0 0, R.gateWord 0, R.schOvhEnc 0,
   R.schGuard 0, R.schBl0 0, R.schBl1 0, R.schBl3 0, R.bufYelFree, R.bufRedFree, R.bufCtWait, R.bufCtEn, R.bufHoldMax,
   R.hcapCap 0, R.admCap 0, R.secOwned, R.secOwner, R.secDeputy, R.featlockFeat].map (fun f => f.key.id)

/-- Plans at a warm reset (Table 9-5). -/
def Hub.plansWarm (h : Hub) : Hub :=
  let h := h.each (List.range 5) (fun h m => (h.planReset m).set (R.planCfgId m) 0)
  let h := h.each (List.range 256) (fun h p => if p = 0 then h else h.set (R.profValid p) 0)
  h.each (List.range 5) (fun h m => h.each (List.range 20) (fun h c =>
    if bit (h.get (R.shareW1 m c)) 31 then h.set (R.shareW1 m c) (clrBit (h.get (R.shareW1 m c)) 31) else h))

/-- Links at a warm reset: session keys go, the link layers run on (Table 4-13, Table 11-5). -/
def Hub.linksWarm (h : Hub) : Hub :=
  let h := h.each (List.range 4) (fun h n => h.trunkUnattach n)
  h.each (List.range 16) (fun h n => h.lineUnattach n false)

/-- An entry that has not reached the point of no return is abandoned for a reset (R601): it counts as abandoned, and no block
has refused it. -/
def Hub.entryDrop (h : Hub) : Hub :=
  match h.ctl.entry with
  | some e => if e.past.isNone then ((h.set R.psState e.before).inc R.psRefusedCnt).modCtl (fun c => { c with entry := none }) else h
  | none => h

/-- A warm reset begins (R599, R619): firmware ready is awaited. -/
def Hub.warmBegin (h : Hub) (cause : Nat) : Hub :=
  let h := (h.entryDrop.sessionEnd).usbDeconf
  let h := (h.linksWarm).plansWarm
  let h := h.each (List.range 64) (fun h c => h.dmaRelease c)
  let old := h
  let h := (h.dropRegs (fun k => warmIds.contains k.id)).quarantineAll
  let h := if h.grade == .s then h.setAll ((List.range 4).map (fun n => (R.admCap n, 8 * 4096 + 2250))) else h
  let h := h.settleLimiters old
  let h := (h.bridgeWarm.ccWarm).portLeave 16
  let h := { h with sec := { h.sec with chal := [], bad := [], holdUntil := [], lostFor := 0 }
                    fence := []
                    fo := []
                    col := { h.col with notes := [], lost := [] }
                    tick := { h.tick with reqs := [], asked := [], changed := none, unjudged := true } }
  let h := h.modCtl (fun c => { c with order := [], parked := [], ended := [], entryEnd := none, resetAsk := false, resetDue := none,
                                       resetWake := false, boot := 2, smbPtr := 0 })
  let h := h.setAll ((List.range 4).map (fun n => (R.foState n, 0)))
  h.setAll [(R.psRstcause, cause), (R.psFwrdy, 0)]

/-! Firmware ready (R596 to R598). -/

/-- Outcome of LP5 training (R431): data rate code, second rank and density code, or none. -/
abbrev Lp5Train := Option (Nat × Bool × Nat)

/-- Capacity in MiB of four device channels of a density (R430, Table 14-11). -/
def capMibOf (rank2 : Bool) (dens : Nat) : Nat :=
  (match dens with | 0 => 2048 | 1 => 3072 | 2 => 4096 | 3 => 6144 | _ => 8192) * (if rank2 then 2 else 1)

/-- LP5 training ends (R431). Whether the devices report link ECC is a free value (R430). -/
def Hub.lp5Trained (h : Hub) (r : Lp5Train) : Hub :=
  match r with
  | none => (({ h with lp5 := { h.lp5 with failed := true } }).set R.lp5CapMib 0).raise srcLp5Train 0
  | some (rate, rank2, dens) =>
    let h := { h with lp5 := { h.lp5 with failed := false, idleSince := h.now } }
    let (ecc, h) := h.draw 1
    let h := h.setAll [(R.lp5Rate, rate), (R.lp5Rank2, b2n rank2), (R.lp5Dens, dens), (R.lp5Lecc, ecc),
      (R.lp5CapMib, capMibOf rank2 dens), (R.lp5Lpstate, 0), (R.lp5Exit, lp5ExitNs 0 / 10)]
    if rate = 0 then h else h.raise srcLp5Degrade rate

/-- Fuses are loaded and the key store is filled (R560, R562). -/
def Hub.keysLoad (h : Hub) : Hub :=
  let h := { h with sec := { h.sec with fv := h.sec.fuseV } }
  if h.sec.testDue then h.testRoot else h.loadRoot (if h.flag R.secTestroot then .test else .hub)

/-- Step 7 of Table 20-6: mailboxes are served, trunk ports enabled, HELLO owed to nodes sent. With a self-test failure
the firmware serves mailboxes 4 to 6 alone and enables no trunk port (R597). -/
def Hub.firmwareUp (h : Hub) : Hub :=
  let h := h.modCtl (fun c => { c with boot := 0 })
  if h.flag R.psStfail then h.innerConnect
  else
    let h := h.set R.psFwrdy 1
    let h := h.each [1, 2, 3, 4] (fun h c => h.modPort c (fun p => { p with enabled := true }))
    let h := if h.power.phyOn then h else h.ccStart
    let h := h.each (List.range 16) (fun h n =>
      if (h.line n).helloDue && h.lineState n == lLinkup then
        (h.modLine n (fun x => { x with helloDue := false })).sendHello n else h)
    h.innerConnect

/-- FIRMWARE_READY: after a cold start with the self-test's failing regions and the outcome of LP5 training, or after a
warm reset, which runs neither (R597, R598). -/
def Hub.firmwareReady (h : Hub) (fails : Nat) (lp5 : Lp5Train) : Hub :=
  if h.ctl.boot = 0 ∨ h.ctl.resetLow ∨ h.ctl.jtag.held ∨ 2 ≤ h.get R.psState then h
  else
    let h := h.keysLoad
    let h := if h.ctl.boot = 1 then
        (h.lp5Trained lp5).setAll [(R.psStfail, b2n (fails % 256 != 0)), (R.psStfReg, fails)] else h
    h.firmwareUp

/-! The entry handshake (R583, R584, Table 20-2). -/

/-- An answer of a block: accept, delay, or refuse with a status; with the block's instance. -/
inductive Answer where
  | accept
  | delay (inst : Nat)
  | refuse (status inst : Nat)
deriving DecidableEq, Repr

/-- The answer where one of a list of instances meets its condition. -/
def anyInst (l : List Nat) (p : Nat → Bool) (f : Nat → Answer) : Answer :=
  match l.find? p with
  | some i => f i
  | none => .accept

/-- Does a port hold unacknowledged link units, or frames queued for it? -/
def Hub.portBusy (h : Hub) (c : Nat) : Bool :=
  [0, 1, 2, 3].any (fun k => !(h.txc c k).unacked.isEmpty) || !(h.egress c).summary.isEmpty ||
  !(h.link c).wait.isEmpty || !(h.link c).msgs.isEmpty || !(h.egress c).b2.isEmpty ||
  (h.queuesAt c).any (fun k => !(h.queue (k / 2) (k % 2)).frames.isEmpty) || !(h.nbWaiting c).isEmpty

/-- The answer that a block of Table 20-2 gives now. `wake` tells whether an enabled wake source is active. -/
def Hub.blockAnswer (h : Hub) (code target : Nat) (force wake : Bool) : Answer :=
  match code with
  | 1 => if h.flag R.tickPend then .refuse stInPlan 0
         else anyInst (List.range 5) (fun m => decide (3 ≤ h.planState m)) (.refuse stInPlan)
  | 2 => if h.safe then .refuse stBusy 0 else .accept
  | 3 => anyInst (List.range 4) (fun n => h.get (R.foState n) != 0) (fun n => .refuse stBusy (n + 1))
  | 4 => anyInst (List.range 8) (fun n => !h.noDemand n) (.refuse stBusy)
  | 5 => anyInst (List.range 21) (fun c => isLink c && h.portBusy c) .delay
  | 6 => anyInst (List.range 64) (fun c => h.dmaRuns c) .delay
  | 7 => if h.bridge.txs.any (fun t => decide (0 < t.out) || !t.todo.isEmpty) || !h.bridge.holds.isEmpty then .delay 0
         else .accept
  | 8 => anyInst (List.range 16) (fun n => h.stageIs n sgWait || h.stageIs n sgInrush) .delay
  | 9 => if target = 3 ∧ ¬ force ∧ (List.range 16).any (fun n => h.flag (R.ccProle n) && h.stageIs n sgOn) then
           anyInst (List.range 16) (fun n => h.flag (R.ccProle n) && h.stageIs n sgOn) (.refuse stBusy)
         else anyInst (List.range 16) (fun n => h.flag (R.ccTrans n)) .delay
  | 10 => anyInst (List.range 8) (fun m => h.mbState m == mbServing) .delay
  | 11 => if wake then .refuse stBusy 0 else .accept
  | _ => .accept

/-- Region of the block with a code of Table 20-2 (R6 region numbers); ports are told apart by their code. -/
def blockRegion (code inst : Nat) : Nat :=
  match code with
  | 1 => 2
  | 2 => 7
  | 3 => 2
  | 4 => 3
  | 5 => if inst ≤ 4 then 0 else 1
  | 6 => 3
  | 7 => 5
  | 8 => 4
  | 9 => 4
  | _ => 7

/-- With FORCE the hub ends the conditions that Table 20-2 names: heads blanked, channels stopped, hold entries freed. -/
def Hub.forceBlock (h : Hub) (code : Nat) : Hub :=
  match code with
  | 4 => h.each (List.range 8) (fun h n => if h.noDemand n then h else h.react n 2)
  | 6 => h.each (List.range 64) (fun h c => h.dmaHalt c)
  | 7 => let k := h.bridge.holds.length
         (h.add R.brgHoldLost k).dropHolds (fun _ => true)
  | _ => h

/-- The entry is abandoned: the block is recorded, the command will be answered with the status (R584). -/
def Hub.entryAbandon (h : Hub) (e : PsEntry) (code inst answer status : Nat) : Hub :=
  let h := h.setAll [(R.psState, e.before), (R.psRefRegion, blockRegion code inst), (R.psRefCode, code), (R.psRefInst, inst),
    (R.psRefAnswer, answer)]
  (h.inc R.psRefusedCnt).modCtl (fun c => { c with entry := none, entryEnd := some status })

/-- A record straight to a host's notification tunnel. -/
def Hub.notify (h : Hub) (m : Nat) (r : Record) : Hub :=
  if h.canNotify m then h.e3Send (h.sysFrame (10 + m) 0 (wordBytes r)) (h.routeTo m) else h

/-- The point of no return: the state record goes out (R585). -/
def Hub.pointOfNoReturn (h : Hub) (e : PsEntry) : Hub :=
  let r : Record := [0x16 * 2 ^ 24 + e.target * 2 ^ 20, 0] ++ twoWords h.now
  let h := h.each [0, 1, 2, 3] (fun h m => h.notify m r)
  h.modCtl (fun c => { c with entry := some { e with past := some h.now }, entryEnd := some stOk })

/-- Every block has accepted: each is asked once more, and the first that does not accept now decides (R584). -/
def Hub.askAll (h : Hub) (e : PsEntry) (wake : Bool) : List Nat → Hub
  | [] => h.pointOfNoReturn e
  | code :: l =>
    let h := if e.force then h.forceBlock code else h
    match h.blockAnswer code e.target e.force wake with
    | .accept => h.askAll e wake l
    | .delay _ => h.modCtl (fun c => { c with entry := some { e with
        accepted := e.accepted.filter (fun x => x != code), delaying := e.delaying ++ [code] } })
    | .refuse status inst => h.entryAbandon e code inst 1 status

/-- HANDSHAKE_ANSWER: the block with this code answers (R584). -/
def Hub.handshake (h : Hub) (code : Nat) (wake : Bool) : Hub :=
  match h.ctl.entry with
  | none => h
  | some e =>
    if e.past.isSome ∨ code = 0 ∨ 11 < code then h
    else
      let h := if e.force then h.forceBlock code else h
      let drop (l : List Nat) : List Nat := l.filter (fun x => x != code)
      match h.blockAnswer code e.target e.force wake with
      | .refuse status inst => h.entryAbandon e code inst 1 status
      | .delay _ => h.modCtl (fun c => { c with entry := some { e with accepted := drop e.accepted, delaying := drop e.delaying ++ [code] } })
      | .accept =>
        let e := { e with accepted := drop e.accepted ++ [code], delaying := drop e.delaying }
        let h := h.modCtl (fun c => { c with entry := some e })
        if e.accepted.length = 11 then h.askAll e wake [1, 2, 3, 4, 5, 6, 7, 8, 9, 10, 11] else h

/-- ENTRY_MAX passes with a delay standing (R584). -/
def Hub.entryMax (h : Hub) : Hub :=
  match h.ctl.entry with
  | some e =>
    match e.past, e.delaying with
    | none, code :: _ =>
      let inst := match h.blockAnswer code e.target e.force false with | .delay i => i | _ => 0
      h.entryAbandon e code inst 2 stBusy
    | _, _ => h
  | none => h

/-- STATE.ENTER (R583): lit and idle at once; banked and ember begin the handshake. -/
def Hub.stateEnter (h : Hub) (m target : Nat) (force : Bool) : Ans × Hub :=
  if !h.isOwner m && (h.flag R.secOwned || (m != 4 && m != 6)) then h.refuse stNotOwner
  else if h.ctl.entry.isSome then h.refuse stBusy
  else if target ≤ 1 then ({ status := stOk }, h.set R.psState target)
  else
    let e : PsEntry := { target := target, force := force, before := h.get R.psState }
    ({ status := stOk, parked := true }, (h.set R.psState psEntering).modCtl (fun c => { c with entry := some e, entryEnd := none }))

/-- STATE.ENTER CONFIG: images of CTL_PS_CFG and CTL_PS_WAKE_EN (R622). -/
def Hub.stateConfig (h : Hub) (m w1 w2 : Nat) : Ans × Hub :=
  if !h.isOwner m && (h.flag R.secOwned || (m != 4 && m != 6)) then h.refuse stNotOwner
  else if !(imageLegal rowsPs 0x7030000 w1 && imageLegal rowsPs 0x7030004 w2) then h.refuse stBadArg
  else ({ status := stOk }, h.setAll (imageAt rowsPs 0x7030000 w1 ++ imageAt rowsPs 0x7030004 w2))

/-- STATE.ENTER QUERY. -/
def Hub.stateQuery (h : Hub) : Ans × Hub := h.ok (h.wordsAt rowsPs 0x7030000 6)

/-! The entry sequence (R585). -/

/-- Each link sends an EIDLE row and passes to DOWN; no source rises and no switch is made. -/
def Hub.linksDown (h : Hub) : Hub :=
  let h := h.each (List.range 4) (fun h n =>
    if h.get (R.linkState n) = 0 then h
    else
      let c := n + 1
      let h := (h.emit (.ctrl c eidleBlock)).strikeLinkDown c
      let h := ((h.set (R.linkState n) 0).lanesOff c).dropSession c
      h.modLink c (fun l => { l with tx := [], rx := [], wait := [], area := [], probes := [] }))
  h.each (List.range 16) (fun h n =>
    if h.lineState n = lDown then h else (h.emit (.ctrl (n + 5) eidleBlock)).lineDown n)

/-- USB at the entry (R585 step 3, R486): the ports' features are lost, for the hub connects anew on the return. -/
def Hub.usbDown (h : Hub) : Hub :=
  let h := (h.sessionEnd.usbDefault).set R.usbUpConn 0
  h.each (List.range 17) (fun h p => (h.portDisable p).modUsbPort p (fun x => { was := x.was }))

/-- Feeds off and FEEDWARN_N released (R537, ember). -/
def Hub.feedsOff (h : Hub) : Hub :=
  let h := (h.each [0, 1] (fun h f => h.feedGate f false)).set R.pwrSel 0
  if h.power.feedWarn then ({ h with power := { h.power with feedWarn := false } }).emit (.pin "FEEDWARN_N" 0 1) else h

/-- Banked: retention (R585 step 4, R537, R443). -/
def Hub.enterBanked (h : Hub) : Hub :=
  let h := h.each (List.range 16) (fun h n => if h.flag (R.stgKeepBanked n) then h else h.stageOff n)
  let h := { h with lp5 := { h.lp5 with exiting := false } }
  (h.when (h.get R.lp5Lpstate != 4) (fun h => h.lp5Enter 4)).set R.psState psBanked

/-- What ember keeps of the registers: the always-on registers, the LP5 settings and the straps (Table 20-1, R585, R595). -/
def emberFields : List Fld :=
  [R.psWakenEn, R.psSmbEn, R.psFaultEn, R.psLsdEn, R.psTsdEn, R.psAttEn, R.psRstcause, R.psStfail, R.psStfReg, R.psWakeFail,
   R.psWsHi, R.psWsRstn, R.psWsLo, R.psBankedCnt, R.psEmberCnt, R.psRefusedCnt, R.psWakefailCnt,
   R.lp5Rate, R.lp5Rank2, R.lp5Dens, R.lp5Lecc, R.lp5CapMib]

/-- Ember: every domain but the always-on one loses its state (R585 step 5). -/
def Hub.enterEmber (h : Hub) : Hub :=
  let h := h.each (List.range 16) (fun h n => (h.stagePg n false).stageGate n false)
  let h := h.feedsOff
  let straps := (List.range 16).foldl (fun (p : Nat × Nat) n =>
    (if h.isSlot n then setBit p.1 n else p.1, if h.flag (R.lpSnk n) then setBit p.2 n else p.2)) (0, 0)
  let n := h.cold (h.get R.psRstcause) straps.1 straps.2 h.ctl.hbcompat h.ctl.smbadr
  let n := n.setAll (emberFields.map (fun f => (f, h.get f)))
  let n := { n with tick := { num := h.tick.num, now := h.tick.now, cyc := h.tick.cyc, last := h.tick.last }
                    lp5 := { failed := h.lp5.failed }
                    ctl := { n.ctl with boot := 0, fromEmber := true } }
  n.setAll [(R.lp5Lpstate, 3), (R.lp5Exit, lp5ExitNs 3 / 10), (R.psState, psEmber)]

/-- The most that the hub draws from VAUX in ember, µA: the rows of Table 20-4 whose wake sources are enabled (R590). -/
def Hub.emberLimit (h : Hub) : Nat :=
  let att (n : Nat) : Bool := bit (h.get R.psAttEn) n
  1200 + 100 + 20 + (if h.flag R.psWakenEn || h.flag R.psSmbEn then 50 else 0) +
  150 * ((List.range 4).filter (fun n => bit (h.get R.psTsdEn) n)).length +
  (if (List.range 16).any (fun n => att n && !h.isSlot n) then 60 else 0) +
  5 * ((List.range 16).filter (fun n => att n && h.isSlot n && (h.stage n).cond)).length

/-! Wake and return (R587, R593 to R595). -/

/-- The sources that may end the present state, of those given (Table 20-3): the image of CTL_PS_WAKESRC [31:28], [23:4]. -/
def Hub.wakeMask (h : Hub) (hi lo : Nat) : Nat × Nat :=
  let en (f : Fld) (b : Nat) : Nat := if h.flag f && bit hi b then 2 ^ b else 0
  if h.psIs psIdle then (en R.psWakenEn 3, 0)
  else
    let tsd := (lo / 2 ^ 16 % 16) &&& h.get R.psTsdEn
    let att := (lo % 2 ^ 16) &&& h.get R.psAttEn
    let banked := !h.psIs psEmber
    (en R.psWakenEn 3 + en R.psSmbEn 2 + (if banked then en R.psFaultEn 1 + en R.psLsdEn 0 else 0), tsd * 2 ^ 16 + att)

/-- The return order begins (R593). -/
def Hub.returnBegin (h : Hub) (hi lo : Nat) (rstn : Bool) : Hub :=
  let banked := h.psIs psBanked
  let h := h.setAll [(R.psWsHi, hi), (R.psWsLo, lo), (R.psWsRstn, b2n rstn), (R.psState, psReturning), (R.psStage, 1)]
  h.modCtl (fun c => { c with fromEmber := !banked, resetWake := rstn && banked, resetLow := rstn || c.resetLow,
                              smbHeld := c.smbHeld || bit hi 2, lp5Lost := false })

/-- WAKE (R587, R601, R621): in idle WAKE_N makes the chip lit; in banked and ember the return begins; before the point of no
return the wake logic refuses; after it the wake waits for the end of the entry. -/
def Hub.wake (h : Hub) (hi lo : Nat) (rstn : Bool) : Hub :=
  let (hi, lo) := h.wakeMask hi lo
  if hi = 0 ∧ lo = 0 ∧ ¬ rstn then h
  else if h.psIs psIdle then
    if hi = 0 then h
    else (h.setAll [(R.psWsHi, hi), (R.psWsLo, 0), (R.psWsRstn, 0), (R.psState, psLit)]).modCtl (fun c => { c with smbPtr := 0 })
  else if h.psIs psBanked || h.psIs psEmber then h.returnBegin hi lo rstn
  else if h.psIs psEntering then
    match h.ctl.entry with
    | some e =>
      if e.past.isNone then h.entryAbandon e 11 0 1 stBusy
      else h.modCtl (fun c => { c with entry := some { e with wake := some (match e.wake with
        | some (a, b, r) => (a ||| hi, b ||| lo, r || rstn)
        | none => (hi, lo, rstn)) } })
    | none => h
  else h

/-- ENTRY_SEQUENCE: from the point of no return the entry runs to its end (R585). -/
def Hub.entrySequence (h : Hub) : Hub :=
  match h.ctl.entry with
  | none => h
  | some e =>
    if e.past.isNone then h
    else
      let h := (h.linksDown.usbDown).modCtl (fun c => { c with entry := none })
      let h := if e.target = 2 then h.enterBanked.inc R.psBankedCnt else h.enterEmber.inc R.psEmberCnt
      match e.wake with
      | some (hi, lo, rstn) => h.wake hi lo rstn
      | none => h

/-- The tick number advances by the whole periods elapsed, and the next boundary falls on that grid (Table 2-1); SYNCED
is 0 until the next exchange (R59), with the reference in host mode. The periods are those of the code in force at the
return: 50 after ember, whose cold start has reset the code (DESIGN CHOICE, assumption 206). -/
def Hub.tickReturn (h : Hub) : Hub :=
  let k := (h.now - h.tick.last) / max 1 h.tickPeriod
  let h := { h with tick := { h.tick with num := (h.tick.num + k) % 2 ^ 48, last := h.tick.last + k * h.tickPeriod,
                                          returned := true, repTick := none, bounds := [], unjudged := true } }
  h.set R.tickSynced 0

/-- The return completes: the chip is lit (R595). `dp` has a bit for each DP output whose training succeeds. -/
def Hub.returnEnd (h : Hub) (dp : Nat) : Hub :=
  let h := h.tickReturn.setAll [(R.psState, psLit), (R.psStage, 0)]
  let h := h.modCtl (fun c => { c with smbHeld := false, smbPtr := 0 })
  if h.ctl.fromEmber then
    let h := (h.keysLoad.set R.psRstcause 5).modCtl (fun c => { c with fromEmber := false, lp5Lost := false, seen := [] })
    h.firmwareUp
  else
    let h := h.each (List.range 16) (fun h n => if h.flag (R.stgKeepBanked n) then h else h.startRequest n)
    let h := h.each (List.range 8) (fun h n =>
      if h.flag (R.rhEn n) then h.modHead n (fun x => { x with relock := true, fillAll := true }) else h)
    let h := h.each [0, 1] (fun h d =>
      if !h.flag (R.dpEn d) then h else if bit dp d then h.set (R.dpLstate d) 2 else h.dpLost d)
    let h := h.each (List.range 16) (fun h n => h.lineTryTrain n)
    if h.ctl.resetWake then h.warmBegin 2 else h

/-- The LP5 devices did not answer: their contents are lost and the firmware trains them (R594). -/
def Hub.lp5Gone (h : Hub) (r : Lp5Train) : Hub := (h.modCtl (fun c => { c with lp5Lost := true })).lp5Trained r

/-- RETURN_STAGE_READY: the ready signal of the stage in progress rises (R593). At stage 3 `lost` tells that the LP5
devices did not answer a return from ember, with the outcome of the training that follows. -/
def Hub.returnStage (h : Hub) (lost : Option Lp5Train) (dp : Nat) : Hub :=
  if !h.psIs psReturning then h
  else
    match h.get R.psStage with
    | 1 => h.set R.psStage 2
    | 2 => h.set R.psStage 3
    | 3 =>
      let h := h.set R.psStage 4
      match lost with
      | some r => if h.ctl.fromEmber then h.lp5Gone r else h.lp5Awake
      | none => h.lp5Awake
    | 4 => h.returnEnd dp
    | _ => h

/-- RETURN_STAGE_TIMEOUT: the chip enters ember with WAKE_FAIL (R594). -/
def Hub.returnTimeout (h : Hub) : Hub :=
  if !h.psIs psReturning then h else (h.enterEmber.set R.psWakeFail 1).inc R.psWakefailCnt

/-- CC_POLL_WINDOW: in ember a cable port presents Rp, or with LSNK at 1 presents Rd; a partner that it recognises is an
attach of Table 20-3 (R589). -/
def Hub.ccPoll (h : Hub) (n : Nat) (seen : Bool) : Hub :=
  if !h.psIs psEmber || h.isSlot n || decide (16 ≤ n) then h
  else
    let h := h.emit (.words "CC_POLL" n [b2n (h.flag (R.lpSnk n))])
    if seen then (h.modCtl (fun c => { c with seen := n :: c.seen.filter (fun x => x != n) })).wake 0 (2 ^ n) false else h

/-! RESET_N (R598, R601). -/

/-- RESET_N is low: a wake in banked and ember, a warm reset otherwise. -/
def Hub.resetLow (h : Hub) : Hub :=
  let past := match h.ctl.entry with | some e => e.past.isSome | none => false
  if h.psIs psBanked || h.psIs psEmber || past then h.wake 0 0 true
  else if h.psIs psReturning then h.modCtl (fun c => { c with resetLow := true, resetWake := c.resetWake || !c.fromEmber })
  else (h.warmBegin 2).modCtl (fun c => { c with resetLow := true })

/-- RESET_N rises: the start-up goes on to firmware ready (R598). -/
def Hub.resetRelease (h : Hub) : Hub := h.modCtl (fun c => { c with resetLow := false })

/-! Whole-machine forms: memory changes too. -/

/-- A cold reset loses the memory as well. -/
def State.cold (s : State) (cause lkind lsnk : Nat) (hbcompat : Bool) (smbadr : Nat) : State :=
  { s with hub := s.hub.cold cause lkind lsnk hbcompat smbadr, mem := [] }

/-- Memory as ember leaves it: LP5 contents stay, endpoint memory is lost. -/
def memEmber (m : Memory) : Memory := m.filter (fun c => !isEp c.1)

end Sys2Proof.Machine
end

