-- ==== Sys2Proof/Machine/AttachOps.lean ====
section
/-!
DEFINITION. Host attach on a trunk (R162 to R168): IDENT, CHALLENGE, PROOF, ATTACHED and REFUSED.
-/

namespace Sys2Proof.Machine

open Sys2Proof

/-- An attach message from the hub on tunnel 0x001 + h (Table 4-14). -/
def Hub.sendAttach (h : Hub) (n host amsg : Nat) (body : List Byte) : Hub :=
  let t := 1 + host
  let f : Frame := { tid := t, gen := h.get (R.ttGen t), cls := 0, op := 8, payload := le32 (amsg * 2 ^ 24 + 2 ^ 16) ++ body }
  h.sendMsg (n + 1) f (qkey t 1)

/-- REFUSED with its reason, counted in AUTH_REFUSE (Table 4-14, Table 4-17). -/
def Hub.refuseAttach (h : Hub) (n host reason : Nat) : Hub :=
  (h.inc (R.linkAuthRefuse n)).sendAttach n host 5 (le32 reason)

/-- Is host index `host` attached on another trunk with a different HOSTID (R165)? -/
def Hub.otherHost (h : Hub) (n host id : Nat) : Bool :=
  (h.attachedOn host).any (fun c => c != n + 1 && (h.link c).peerId != id)

/-- IDENT in LINKUP: CHALLENGE or REFUSED (Table 4-13, R165, R166). The control tunnel of the host opens first (Table 3-1). -/
def Hub.ident (h : Hub) (n host : Nat) (payload : List Byte) : Hub :=
  let c := n + 1
  if h.get (R.linkState n) ≠ 2 then h
  else if payload.length ≠ 28 ∨ leWord (payload.take 4) ≠ 2 ^ 24 + 2 ^ 16 ∨ 3 < host then h.refuseAttach n host 5
  else
    let id := leWord ((payload.drop 4).take 8)
    let nt := payload.drop 12
    match h.hostKey host with
    | none => h.refuseAttach n host 1
    | some s =>
      if h.now < (h.link c).holdUntil ∨ h.contained (srcAuthFail n) then h.refuseAttach n host 4
      else if h.otherHost n host id then h.refuseAttach n host 3
      else
        let (nh, h) := h.nonce
        let h := h.modLink c (fun l => { l with idx := host, peerId := id, nPeer := nt, nHub := nh })
        let h := (h.set (R.linkState n) 3).settleSys
        h.sendAttach n host 2 (le64 h.sec.hubId ++ nh ++ h.hubProof (h.keyMat s) nt nh id c ++
          le32 (h.get R.secTestroot * 2 ^ 8 + c))

/-- The generation that a system tunnel has once it is open: its own, or the next (R91). -/
def Hub.nextGen (h : Hub) (t : Nat) : Nat :=
  if h.tunIs t tOpen then h.get (R.ttGen t) else (h.get (R.ttGen t) + 1) % 16

/-- A valid PROOF: ATTACHED goes out in the clear, then the session keys are in force (R162, R168). -/
def Hub.attach (h : Hub) (n host slot : Nat) : Hub :=
  let c := n + 1
  let k := h.get (R.keyKint slot)
  let w1 := k * 2 ^ 8 + h.nextGen (10 + host) * 16 + h.nextGen (1 + host)
  let h := h.sendAttach n host 4 (le32 w1 ++ leBytes 8 (h.firstSwitch k % 2 ^ 48) ++ le32 (h.get R.secOwned))
  let h := (h.dropSession c).modLink c (fun l => { l with sess := some (h.keyMat slot, slot), idx := host })
  h.setAll [(R.linkState n, 4), (R.linkHost n, host), (R.linkKint n, k), (R.linkHoldn n, 0), (R.linkEpoch n, 0), (R.linkTxep n, 0)]

/-- The slot whose key a PROOF is right for; none where it is invalid. -/
def Hub.proofSlot (h : Hub) (n : Nat) (payload : List Byte) : Option Nat :=
  let l := h.link (n + 1)
  (h.hostKey l.idx).filter (fun s => payload.drop 4 == h.peerProof (h.keyMat s) "HST" l.nPeer l.nHub l.peerId (n + 1))

/-- PROOF in ATTACHING (Table 4-13, R166). A malformed one is refused with reason 5 and leaves the state: Table 4-13 has no
transition for it (DESIGN CHOICE, assumption 222). -/
def Hub.proof (h : Hub) (n : Nat) (payload : List Byte) : Hub :=
  let c := n + 1
  let l := h.link c
  if h.get (R.linkState n) ≠ 3 then h
  else if payload.length ≠ 20 ∨ leWord (payload.take 4) ≠ 3 * 2 ^ 24 + 2 ^ 16 then h.refuseAttach n l.idx 5
  else match h.proofSlot n payload with
    | some s => h.attach n l.idx s
    | none =>
      let k := min 127 (h.get (R.linkHoldn n) + 1)
      let h := (h.set (R.linkHoldn n) k).modLink c (fun l => { l with holdUntil := h.now + holdOff k })
      ((h.refuseAttach n l.idx 2).set (R.linkState n) 2).raise (srcAuthFail n) k

/-- No PROOF within 10 ms of CHALLENGE (Table 4-13). -/
def Hub.proofTimeout (h : Hub) (n : Nat) : Hub :=
  if h.get (R.linkState n) = 3 then (h.refuseAttach n (h.link (n + 1)).idx 6).set (R.linkState n) 2 else h

end Sys2Proof.Machine
end

