-- ==== Sys2Proof/Machine/TunCmdOps.lean ====
section
/-!
DEFINITION. The TUNNEL commands (R81 to R85, Table 21-8) and what a boundary does with them (R83).
-/

namespace Sys2Proof.Machine

open Sys2Proof

/-- Is tunnel `t` named in any plan slot (Table 9-4)? -/
def Hub.inAnySlot (h : Hub) (t : Nat) : Bool := [0, 1, 2, 3, 4].any (fun s => h.slotHas s t)

/-- Is it named in an armed plan, or inside a reversal window (R84)? -/
def Hub.inArmedPlan (h : Hub) (t : Nat) : Bool :=
  (h.tunX t).window.isSome || [0, 1, 2, 3, 4].any (fun s => h.planState s == pArmed && h.slotHas s t)

/-- A plan record with the descriptor words of a TUNNEL command: kind 1 adds, kind 2 changes (R304, R306). -/
def tunRecord (kind t gen : Nat) (ws : List Nat) : List Nat := (kind * 2 ^ 28 + gen * 2 ^ 20 + t) :: (ws ++ [0])

/-- A TUNNEL command waits for the next boundary. -/
def Hub.addTunCmd (h : Hub) (c : TunCmd) : Hub := { h with tun := { h.tun with cmds := h.tun.cmds ++ [c] } }

/-- The named generation is not current: STALE, counted in the STALE_CNT of the ID (R82, R98). -/
def Hub.refuseGen (h : Hub) (t : Nat) : Ans × Hub := (h.inc (R.runStaleCnt t)).refuse stStale

/-- TUNNEL.OPEN (R79, R83, R85, Table 3-10). -/
def Hub.tunnelOpen (h : Hub) (m t : Nat) (ws : List Nat) : Ans × Hub :=
  let r := tunRecord 1 t 0 ws
  let d := recDesc r
  if !h.holds m (tgtTunnel t) 3 then h.refuse stDenied
  else if d.own ≠ m then h.refuse stNotOwner
  else if !h.recForm r then h.refuse stBadArg
  else if !h.tunIs t tFree || (h.tunX t).reserved then h.refuse stBusy
  else if h.inAnySlot t then h.refuse stInPlan
  else
    let c := h.admitOne m r
    if c ≠ stOk then h.refuse c
    else
      let h := (h.modTunX t (fun x => { x with reserved := true })).addTunCmd (.opening t d m)
      h.ok (((h.get (R.ttGen t) + 1) % 16) :: twoWords h.nextBoundary)

/-- TUNNEL.MODIFY of ALT_EGR of a summary tunnel (R72, R82). -/
def Hub.summaryAlt (h : Hub) (m t gen : Nat) (ws : List Nat) : Ans × Hub :=
  let r := tunRecord 2 t gen ws
  let d := recDesc r
  let l := h.desc t
  if !h.holds m (tgtTunnel t) 3 then h.refuse stDenied
  else if !h.isOwner m then h.refuse stNotOwner
  else if h.get (R.ttGen t) ≠ gen then h.refuseGen t
  else if !(descWordsLegal (rw r 1) (rw r 2) (rw r 3) (rw r 4) (rw r 5) (rw r 6) (rw r 7) (rw r 8)) ∨
      d ≠ { l with altEgr := d.altEgr } ∨ 4 < d.altEgr ∨ d.altEgr = t - 5 then h.refuse stBadArg
  else (h.addTunCmd (.altEgr t d.altEgr m)).ok (twoWords h.nextBoundary)

/-- TUNNEL.MODIFY (R82, R83, R100, R102, Table 3-10). -/
def Hub.tunnelModify (h : Hub) (m t gen : Nat) (ws : List Nat) : Ans × Hub :=
  if 6 ≤ t ∧ t ≤ 9 then h.summaryAlt m t gen ws
  else
    let r := tunRecord 2 t gen ws
    let d := recDesc r
    if !h.holds m (tgtTunnel t) 3 then h.refuse stDenied
    else if !isUser t then h.refuse stBadArg
    else if h.get (R.ttGen t) ≠ gen then h.refuseGen t
    else if h.tunIs t tFree ∨ h.tunIs t tQuar then h.refuse stStale
    else if h.get (R.ttOwn t) ≠ m then h.refuse stNotOwner
    else if !h.recForm r then h.refuse stBadArg
    else if h.inAnySlot t || (h.tunX t).window.isSome then h.refuse stInPlan
    else if h.tunIs t tDraining || (h.flag (R.ttFailed t) && h.altsDiffer t d) then h.refuse stBusy
    else
      let c := h.admitOne m r
      if c ≠ stOk then h.refuse c
      else (h.addTunCmd (.modify t d m)).ok (twoWords h.nextBoundary)

/-- The record of a forced close (Table 21-5). -/
def Hub.forcedClose (h : Hub) (t : Nat) : Hub :=
  h.addRecord (h.get (R.ttOwn t)) ([0x1A * 2 ^ 24 + h.get (R.ttGen t) * 2 ^ 12 + t, h.get (R.ttCookie t) * 2 ^ 16] ++
    twoWords h.nextBoundary)

/-- TUNNEL.CLOSE (R82 to R84, Table 3-10). -/
def Hub.tunnelClose (h : Hub) (m t gen : Nat) (abort force : Bool) : Ans × Hub :=
  if !h.holds m (tgtTunnel t) 3 then h.refuse stDenied
  else if !isUser t then h.refuse stBadArg
  else if h.get (R.ttGen t) ≠ gen then h.refuseGen t
  else if h.tunIs t tFree ∨ h.tunIs t tQuar then h.refuse stStale
  else if (if force then !h.isOwner m else h.get (R.ttOwn t) != m) then h.refuse stNotOwner
  else if (if force then h.inArmedPlan t else h.inAnySlot t || (h.tunX t).window.isSome) &&
      !(h.tunIs t tDraining && !abort && !force) then h.refuse stInPlan
  else
    let h := if force then h.forcedClose t else h
    (h.addTunCmd (.closing t (abort || force) m)).ok (twoWords h.nextBoundary)

/-- TUNNEL.QUERY (R82, R104): `named` where a generation is named; CLEAR resets the run-time counters. -/
def Hub.tunnelQuery (h : Hub) (m t gen : Nat) (named clear : Bool) : Ans × Hub :=
  if !h.holds m (tgtTunnel t) (if clear then 3 else 1) then h.refuse stDenied
  else if named && h.get (R.ttGen t) != gen then h.refuseGen t
  else
    let q := h.queue t 1
    let ws := h.descWords t ++ h.wordsAt rowsRun (0x2220000 + t * 0x10) 4 ++ [q.seqIn * 2 ^ 16 + q.seqOut] ++
      h.wordsAt rowsPolCnt (0x2320000 + t * 0x10) 4
    (if clear then h.setAll ((runCounters t).map (fun f => (f, 0))) else h).ok ws

/-- The TUNNEL commands that have completed take effect (R83), in the order in which they were served. -/
def Hub.applyTunCmds (h : Hub) : Hub :=
  let was := h
  let l := h.tun.cmds
  let h := { h with tun := { h.tun with cmds := [] } }
  let h := h.each l (fun h c => match c with
    | .opening t d _ => if h.tunIs t tFree then (h.openTunnel t d 0).installFailed t
        else h.modTunX t (fun x => { x with reserved := false })
    | .modify t d _ =>
      if h.tunIs t tOpen then ((h.retune t (h.heldAlts t d)).installFailed t).set (R.ttPlanId t) 0 else h
    | .closing t abort _ =>
      if abort then (if h.tunIs t tOpen || h.tunIs t tDraining then h.quarantine t else h) else h.drainTunnel t
    | .altEgr t c _ => h.setAll [(R.ttAltEgr t, c), (R.ttPlanId t, 0)])
  h.settleLimiters was

/-- Does a frame of tunnel `t` wait in band 2 of some egress (R88)? -/
def Hub.inBand2 (h : Hub) (t : Nat) : Bool :=
  h.hearth.egress.any (fun e => e.2.b2.any (fun p => p.2.any (fun x => x.key / 2 == t)))

/-- A DRAINING tunnel both of whose queues are empty, and of which no frame waits in band 2 (R88), goes to QUARANTINE,
outside a reversal window (Table 3-11). -/
def Hub.drainComplete (h : Hub) (t : Nat) : Hub :=
  if h.tunIs t tDraining ∧ (h.queue t 0).frames.isEmpty ∧ (h.queue t 1).frames.isEmpty ∧ ¬ h.inBand2 t ∧
      (h.tunX t).window.isNone then
    h.quarantine t
  else h

/-- A tunnel that has been DRAINING for 64 boundaries (Table 3-11). -/
def Hub.drainTimeout (h : Hub) (t : Nat) : Hub :=
  if h.tunIs t tDraining ∧ 64 ≤ h.get (R.runDrained t) then h.quarantine t else h

/-- The 8th boundary after entry has passed (Table 3-11). -/
def Hub.quarantineEnd (h : Hub) (t : Nat) : Hub :=
  if h.tunIs t tQuar ∧ h.get (R.runQleft t) = 0 then h.freeTunnel t else h

/-- Boundaries counted by tunnels that drain, and by those in quarantine once the firmware is ready (R86, Table 3-11). -/
def Hub.countTunnels (h : Hub) : Hub :=
  h.each h.liveIds (fun h t =>
    if h.tunIs t tDraining then h.inc (R.runDrained t)
    else if h.tunIs t tQuar && h.flag R.psFwrdy then h.set (R.runQleft t) (h.get (R.runQleft t) - 1)
    else h)

end Sys2Proof.Machine
end

