-- ==== Sys2Proof/Machine/TickOps.lean ====
section
/-!
DEFINITION. The forge tick and forge time (chapter 2): boundary actions, the tasks of the tick sequence, time exchange,
TICK.SET and TIME.SYNC.
-/

namespace Sys2Proof.Machine

open Sys2Proof

/-! Forge time and SYNCED (R51, R56 to R59). -/

/-- SYNCED as R59 gives it. -/
def Hub.settleSynced (h : Hub) : Hub :=
  let t := h.tick
  let ok := if h.flag R.tickRefMode then
      (match t.repTick with
       | some k => decide (h.tickNum - k < 64) && decide (t.repTheta.natAbs < 1000)
       | none => false)
    else !t.returned
  h.setFlag R.tickSynced ok

/-- A time frame discarded and counted for its host (R55, R57). The counter has 16 bits and saturates (DESIGN CHOICE,
assumption 208: R55 gives it no width). -/
def Hub.timeDiscard (h : Hub) (m : Nat) : Hub :=
  { h with tick := { h.tick with discard := tabSet h.tick.discard (k1 m) (min 65535 (tabGet h.tick.discard (k1 m) 0 + 1)) 0 } }

/-- A request of a host: one per tick is accepted for service (R55). -/
def Hub.timeRequest (h : Hub) (m : Nat) (ws : List Nat) : Hub :=
  if h.tick.asked.contains m then h.timeDiscard m
  else
    let r : TimeReq := { host := m, xseq := bits (ws.getD 0 0) 31 16, t1 := ws.getD 1 0 + ws.getD 2 0 * 2 ^ 32, t2 := h.now }
    { h with tick := { h.tick with reqs := h.tick.reqs ++ [r], asked := h.tick.asked ++ [m] } }

/-- A report: in host mode one from REF_HOST within 10 ms slews forge time by the negative of its offset (R57). One
rejected above 10 ms was not applied, so that SYNCED falls (R59). -/
def Hub.timeReport (h : Hub) (m : Nat) (ws : List Nat) : Hub :=
  let theta := toSigned 64 (ws.getD 1 0 + ws.getD 2 0 * 2 ^ 32)
  if !h.flag R.tickRefMode || h.get R.tickRefHost != m then h.timeDiscard m
  else if 10000000 < theta.natAbs then
    ((({ h with tick := { h.tick with repTick := none } } : Hub).settleSynced).timeDiscard m).raise srcTimeRej m
  else ({ h with tick := { h.tick with slew := -theta, slewAcc := 0, repTick := some h.tickNum, repTheta := theta } }).settleSynced

/-- A time frame from host `m` on tunnel 0x00E (R53, R55, R57). -/
def Hub.timeFrame (h : Hub) (m : Nat) (payload : List Byte) : Hub :=
  let ws := bytesWords payload
  if !h.tunIs 14 tOpen then h
  else if payload.length ≠ 48 then h.timeDiscard m
  else match ws.getD 0 0 % 256 with
    | 1 => h.timeRequest m ws
    | 3 => h.timeReport m ws
    | _ => h.timeDiscard m

/-- The response to a request is queued (R54); the words that tell of T3 are written when its first block is placed
(Hub.timeStamp). The exchange counts as completed, for R59, when the response is queued (DESIGN CHOICE, assumption 209). -/
def Hub.timeRespond (h : Hub) (r : TimeReq) : Hub :=
  let ws := [r.xseq * 2 ^ 16 + 2] ++ twoWords r.t1 ++ twoWords r.t2 ++ List.replicate 7 0
  let h := h.e3Send (h.sysFrame 14 0 (wordBytes ws)) (h.routeTo r.host)
  ({ h with tick := { h.tick with returned := false } }).settleSynced

/-- Table of plan states that refuse a period change or a step. -/
def Hub.planIn (h : Hub) (l : List Nat) : Bool := [0, 1, 2, 3, 4].any (fun m => l.contains (h.planState m))

/-- TICK.SET (R49, R626). -/
def Hub.tickSet (h : Hub) (m code n : Nat) : Ans × Hub :=
  if !h.isOwner m then h.refuse stNotOwner
  else if code < 25 ∨ 200 < code ∨ 2 ^ 48 ≤ n then h.refuse stBadArg
  else if h.planIn [pArmed, pWindow, pReverting] then h.refuse stInPlan
  else if n < h.tickNum + 2 then h.refuse stTooLate
  else
    let h := h.setAll [(R.tickPend, 1), (R.tickNext, code)]
    ({ h with tick := { h.tick with pendAt := n } }).ok (twoWords n)

/-- The word CTL_TICK_CFG. -/
def Hub.tickCfg (h : Hub) : Nat := h.wordAt rowsTick 0x7000100

/-- Reference mode and host as TIME.SYNC gives them: in free mode no slewing goes on, and a report of a former reference
host counts for none (R56, R59). -/
def Hub.setReference (h : Hub) (mode ref : Nat) : Hub :=
  let same := h.get R.tickRefHost == ref
  let h := h.setAll [(R.tickRefMode, mode), (R.tickRefHost, ref)]
  { h with tick := { h.tick with slew := if mode = 0 then 0 else h.tick.slew
                                 repTick := if same then h.tick.repTick else none } }

/-- TIME.SYNC: reference mode and host, and with STEP a forward move of forge time (R56, R58, R626). A step past the
largest 64-bit time is refused, since forge time never decreases; the boundaries that a step passes over still come, one
by one, each a period after the one before it (DESIGN CHOICE, assumption 210: R58 does not say). -/
def Hub.timeSync (h : Hub) (m mode ref : Nat) (step : Option Int) : Ans × Hub :=
  let openUser := (h.liveIds.filter isUser).any (fun t => h.tunIs t tOpen)
  if !h.isOwner m then h.refuse stNotOwner
  else match step with
    | some d =>
      if d < 0 ∨ timeMax < h.now + d.toNat then h.refuse stBadArg
      else if h.planIn [pArmed] then h.refuse stInPlan
      else if openUser then h.refuse stBusy
      else
        let h := h.setReference mode ref
        let h := ({ h with tick := { h.tick with now := h.tick.now + d.toNat } }).settleSynced
        h.ok (h.tickCfg :: twoWords h.now)
    | none =>
      let h := (h.setReference mode ref).settleSynced
      h.ok (h.tickCfg :: twoWords h.now)

/-! The boundary (R61, R69). -/

/-- A pending period change takes effect at its boundary (R49, R50). -/
def Hub.periodChange (h : Hub) : Hub :=
  if h.flag R.tickPend && h.tick.pendAt == h.tickNum then
    let code := h.get R.tickNext
    let h := h.setAll [(R.tickPeriod, code), (R.tickPend, 0), (R.tickNext, 0)]
    { h with tick := { h.tick with changed := some (code, h.tickNum) } }
  else h

/-- Ports whose session keys rotate, with their interval: ATTACHED trunks and encrypted lines (R160). -/
def Hub.rotating (h : Hub) : List (Nat × Nat) :=
  (List.range 21).filterMap (fun c =>
    match (h.link c).sess with
    | some (_, slot) => if isTrunk c then (if h.get (R.linkState (c - 1)) = 4 then some (c, h.get (R.linkKint (c - 1))) else none)
        else if isLine c && h.lineState (c - 5) == lUp then some (c, h.get (R.keyKint slot)) else none
    | none => none)

/-- The link key switch (R160): transmit and receive epochs advance where the tick number is a multiple of 2^KINT. -/
def Hub.keySwitch (h : Hub) : Hub :=
  h.each h.rotating (fun h p =>
    if h.tickNum % 2 ^ p.2 = 0 then
      let c := p.1
      let h := (h.obsEvent 6 0).incWrap (fEpoch c)
      let h := if isTrunk c then h.set (R.linkTxep (c - 1)) (h.get (fEpoch c) % 4) else h
      h.modLink c (fun l => { l with rxEpoch := l.rxEpoch + 1, keysReady := false, fcnt := [] })
    else h)

/-- Task 10: the next keys are derived in the tick before a switch (R160). -/
def Hub.keyPrepare (h : Hub) : Hub :=
  h.each h.rotating (fun h p =>
    if (h.tickNum + 1) % 2 ^ p.2 = 0 then h.modLink p.1 (fun l => { l with keysReady := true }) else h)

/-- Accepted patches take effect (R631). -/
def Hub.patchApply (h : Hub) : Hub :=
  let l := h.sec.patchNew
  let h := { h with sec := { h.sec with patchNew := [] } }
  h.each l (fun h p => { h with sec := { h.sec with patches := tabSet h.sec.patches (k1 p.1) (some p.2) none } })

/-- What each port does at a boundary: suspended tempering runs out, tag failures and replica mismatches are counted afresh, and
a PROBE goes out, but none in electrical idle (R183). -/
def Hub.portsBoundary (h : Hub) : Hub :=
  h.each ((List.range 21).filter isLink) (fun h c =>
    let h := h.modPort c (fun p => { p with suspend := p.suspend - 1, tempered := false, mismTick := 0 })
    let h := h.modLink c (fun l => { l with tagFails := 0 })
    if h.linkFlows c && !h.flag (fEidleTx c) then h.sendProbe c else h)

/-- What each trunk's failover state counts: boundaries ATTACHED; a return that PORT.TRAIN has asked for begins (R337). -/
def Hub.attachedCount (h : Hub) : Hub :=
  h.each (List.range 4) (fun h n =>
    let up := h.get (R.linkState n) == 4
    let h := if (h.failover (n + 1)).retAsked && up && h.get (R.foState n) == 1 then h.set (R.foState n) 2 else h
    h.modFailover (n + 1) (fun f => { f with attached := if up then f.attached + 1 else 0, retAsked := false }))

/-- What each scheduler counts: ticks in a row in which its guard acted (R289). -/
def Hub.guardCount (h : Hub) : Hub :=
  { h with hearth := { h.hearth with egress := h.hearth.egress.map (fun e =>
      (e.1, { e.2 with guardTicks := if e.2.guardActed then e.2.guardTicks + 1 else 0, guardActed := false })) } }

/-- BUF_PRESSURE: the shared part's free cells stayed below YEL_FREE for the whole tick (Table 7-5). -/
def Hub.pressure (h : Hub) : Hub :=
  let h := if h.hearth.lowAllTick then h.raise srcBufPressure 0 else h
  { h with hearth := { h.hearth with lowAllTick := decide (h.get R.bufSfree < h.get R.bufYelFree * 16) } }

/-- Boundaries for which the owner has been lost (R335). -/
def Hub.ownerLost (h : Hub) : Bool := h.flag R.secOwned && decide (h.owner < 4) && (h.attachedOn h.owner).isEmpty

/-- A DEPUTY_TAKEOVER is due: OWNER_LOST has stood for DEP_HOLD boundaries and the deputy is attached (R335). -/
def Hub.takeoverDue (h : Hub) : Bool :=
  h.ownerLost && decide (h.get R.secDeputy < 4) && decide (h.get R.secDepHold ≤ h.sec.lostFor) &&
  !(h.attachedOn (h.get R.secDeputy)).isEmpty

/-- The record of a change of ownership to every attached host (Table 21-5). -/
def Hub.ownerRecord (h : Hub) (evt new old : Nat) : Hub :=
  h.each [0, 1, 2, 3] (fun h m =>
    h.addRecord m ([0x19 * 2 ^ 24 + evt * 2 ^ 20 + new * 16 + old, 0] ++ twoWords h.now))

/-- The deputy becomes owner (R335, R336). -/
def Hub.takeover (h : Hub) : Hub :=
  if h.takeoverDue then
    let old := h.owner
    let new := h.get R.secDeputy
    let h := (h.planTakeover old).setAll [(R.secOwner, new), (R.secDeputy, 15)]
    ({ h with sec := { h.sec with lostFor := 0 } }).ownerRecord 3 new old
  else h

/-- SEQ_HWM at the end of a sequence, in units of 10 ns (Table 2-7). -/
def Hub.seqEnd (h : Hub) : Hub :=
  let n := min 65535 ((h.now - h.tick.last) / 10)
  let h := h.set R.tickSeqHwm (max (h.get R.tickSeqHwm) n)
  { h with tick := { h.tick with task := 11, slotEnded := true } }

/-- The service slot ends (R62). -/
def Hub.slotEnd (h : Hub) : Hub := if h.tick.slotEnded then h else h.seqEnd

/-- A tick overrun (R67, R68): samples not taken are invalid for the tick, and the rest of the sequence is abandoned. -/
def Hub.overrun (h : Hub) : Hub :=
  let h := if h.tick.task < 5 then
      let h := h.each h.liveIds (fun h t => h.setAll [(R.qcValidF t, 0), (R.qcValidR t, 0)])
      { h with tick := { h.tick with sampled := (h.tick.sampled.1, false) } }
    else h
  (((if h.tick.slotEnded then h else h.seqEnd).obsEvent 7 2).inc R.tickOvrCount).raise srcTickOvr 0

/-- The boundary actions (R61 task 1, R69), and what is counted at a boundary. -/
def Hub.tickBoundary (h : Hub) : Hub :=
  if !h.domainsOn then h
  else
    let ended := h.tickNum
    let at_ := h.tick.last + h.tickPeriod
    let h := (h.timeTo at_).refreshAll
    let h := h.when (!h.tick.slotEnded && !h.tick.unjudged) Hub.overrun
    let h := { h with tick := { h.tick with num := (h.tick.num + 1) % 2 ^ 48, last := at_, task := 1, asked := [],
                                            slotEnded := false, unjudged := !h.flag R.psFwrdy, late := false } }
    let h := { h with tick := { h.tick with bounds := ((h.tickNum, at_) :: h.tick.bounds).take 16 } }
    let h := h.obsEvent 2 0
    let h := h.countTunnels
    let h := h.periodChange.strikeTurn ended
    let h := h.applyRoutes.applyTunCmds
    let h := h.planBoundary h.tickNum
    let h := (h.keySwitch.zeroise).testRoot
    let h := h.winBoundary.bridgeBoundary
    let h := h.patchApply
    let h := (h.setAll h.tick.cfg)
    let h := { h.staleTurn with tick := { h.tick with cfg := [] } }
    let h := { h with sec := { h.sec with lostFor := if h.ownerLost then h.sec.lostFor + 1 else 0 }
                      col := { h.col with noSweep := h.col.noSweep + 1 } }
    let h := h.portsBoundary.attachedCount
    let h := (h.guardCount.pressure).settleSynced
    if h.ctl.resetAsk then h.modCtl (fun c => { c with resetAsk := false, resetDue := some 3 }) else h

/-! Tasks (Table 2-4). -/

/-- Run task `k` of the sequence: once per tick and in order; tasks of the Ohmale core only once the firmware is ready. -/
def Hub.task (h : Hub) (k : Nat) (core : Bool) (f : Hub → Hub) : Hub :=
  if k ≤ h.tick.task ∨ ¬ h.domainsOn ∨ (core ∧ ¬ h.flag R.psFwrdy) then h
  else f { h with tick := { h.tick with task := k } }

/-- Entries of one source and one event merged into one, with OCC summed (R555). -/
def mergeEntries : List LogEntry → List LogEntry
  | [] => []
  | e :: l =>
    let r := mergeEntries l
    match r.find? (fun x => x.src == e.src && x.evt == e.evt) with
    | some x => { e with occ := min 255 (e.occ + x.occ) } :: r.filter (fun y => !(y.src == e.src && y.evt == e.evt))
    | none => e :: r

/-- Queue fault records for host `m`: at most 32, the rest counted in LOST of its next record (R555). -/
def Hub.sweepHost (h : Hub) (l : List LogEntry) (m : Nat) : Hub :=
  if !(h.canNotify m && h.holds m tgtFault 1) || l.isEmpty then h
  else
    let lost := tabGet h.col.lost (k1 m) 0
    let recs := match l.take 32 with
      | [] => []
      | e :: t => e.words lost :: t.map (fun x => x.words 0)
    { h with col := { h.col with notes := tabSet h.col.notes (k1 m) (tabGet h.col.notes (k1 m) [] ++ recs) []
                                 lost := tabSet h.col.lost (k1 m) (min 255 (l.length - 32)) 0 } }

/-- Task 3: the fault collector sweep (R555, R50, R362). -/
def Hub.sweep (h : Hub) : Hub :=
  let l := mergeEntries (h.col.fresh.filter (fun e => decide (1 ≤ e.rsev)))
  let h := h.each [0, 1, 2, 3] (fun h m => h.sweepHost l m)
  let h := h.each h.bridge.nodeRecs (fun h p => h.each [0, 1, 2, 3] (fun h m =>
    if h.holds m (tgtPort p.1) 1 then h.addRecord m p.2 else h))
  let h := match h.tick.changed with
    | some (code, n) => h.each [0, 1, 2, 3] (fun h m => h.addRecord m ([0x18 * 2 ^ 24 + code, 0] ++ twoWords n))
    | none => h
  { h with col := { h.col with fresh := [], noSweep := 0 }
           bridge := { h.bridge with nodeRecs := [] }
           tick := { h.tick with changed := none } }

/-- A record goes to a host's notification tunnel: a late-error record with LATE 1 (R382), a PD record with REC_LOST as it
stands now (Table 16-6), or counted there where the tunnel is closed (R510). -/
def Hub.sendRecord (h : Hub) (m : Nat) (r : Record) : Hub :=
  let w0 := r.getD 0 0
  let n := bits w0 19 15 - 5
  if !h.canNotify m then (if w0 / 2 ^ 24 = 0x14 then h.inc (R.ccRecLost n) else h)
  else
    let r := if w0 / 2 ^ 24 = 0x14 then [w0, h.get (R.ccRecLost n)] ++ r.drop 2 else r
    let late := w0 / 2 ^ 24 == 0x12
    let h := if late then
        { h with bridge := { h.bridge with sent := tabSet h.bridge.sent (k1 m) (tabGet h.bridge.sent (k1 m) 0 + 1) 0 } }
      else h
    h.e3Send { h.sysFrame (10 + m) 0 (wordBytes r) with late := late } (h.routeTo m)

/-- Task 4: pending records go to the notification tunnels (R61, R96, R97). -/
def Hub.notifyTask (h : Hub) : Hub :=
  let notes := [0, 1, 2, 3].flatMap (fun m => (tabGet h.col.notes (k1 m) []).map (fun r => (m, r)))
  let stale := h.tun.staleDue
  let recs := h.tun.records
  let h := { h with col := { h.col with notes := [] }, tun := { h.tun with staleDue := [], records := [] } }
  let h := h.each notes (fun h p => h.sendRecord p.1 p.2)
  let h := h.each stale (fun h a =>
    let ovf := h.tun.ovf.contains a.sender
    let h := h.sendRecord a.sender (h.staleWords a ovf)
    { h with tun := { h.tun with ovf := h.tun.ovf.filter (fun x => x != a.sender) } })
  h.each recs (fun h p => h.sendRecord p.1 p.2)

/-- Task 5 for one tunnel: depth and head-of-line delay of both directions (R284, R285). -/
def Hub.sampleTunnel (h : Hub) (t : Nat) : Hub :=
  let one (h : Hub) (dir : Nat) (fv fd fl : Fld) : Hub :=
    let y := match (h.summariesOf t dir ++ (h.queue t dir).frames) with | q :: _ => h.now - q.adm | [] => 0
    h.setAll [(fv, 1), (fd, h.depth t dir), (fl, min y (2 ^ 32 - 1))]
  let h := one h 0 (R.qcValidF t) (R.qcDepthF t) (R.qcDlyF t)
  let h := one h 1 (R.qcValidR t) (R.qcDepthR t) (R.qcDlyR t)
  h.set (R.qcSmpTick t) h.tickNum

/-- Task 5: every queue is sampled. The sample of an ID that is FREE is that of an empty queue (Hub.qcWord). -/
def Hub.sampleAll (h : Hub) : Hub :=
  let h := h.each h.liveIds (fun h t => h.sampleTunnel t)
  { h with tick := { h.tick with sampled := (h.tickNum, true) } }

/-- Task 6: time exchange service: at most one request of each host is answered in a tick, the oldest (R54, R55). -/
def Hub.timeTask (h : Hub) : Hub :=
  h.each [0, 1, 2, 3] (fun h m =>
    match h.tick.reqs.find? (fun r => r.host == m) with
    | some r => ({ h with tick := { h.tick with reqs := h.tick.reqs.erase r } } : Hub).timeRespond r
    | none => h)

/-- TICK_OVERRUN: the next boundary is due and the sequence has not ended, or the sequence has ended and no boundary has
arrived within 1.5 × P of the last one; either is counted once (R67). -/
def Hub.tickOverrun (h : Hub) : Hub :=
  if !h.domainsOn then h
  else if !h.tick.slotEnded && !h.tick.unjudged then (h.timeTo (h.tick.last + h.tickPeriod)).overrun
  else if h.tick.late then h
  else
    let h := (h.timeTo (h.tick.last + h.tickPeriod + h.tickPeriod / 2)).overrun
    { h with tick := { h.tick with late := true } }

/-- No command waits: the hub idles for one core clock cycle (R51), or for one step of the always-on timer in banked,
ember and a return (Table 2-1). The step of a block without a waiting command is the model's own (assumption 3). -/
def State.idle (s : State) : State :=
  let t := s.hub.tick
  { s with hub := { s.hub with tick := if s.hub.domainsOn then t.cycle else { t with now := min timeMax (t.now + 30518) } } }

end Sys2Proof.Machine
end

