-- ==== Sys2Proof/Machine/ObsOps.lean ====
section
/-!
DEFINITION. The observation pins (R661, R662, Table 23-2): which signals exist, and the level of those that are levels.
Event signals pulse where they happen (Hub.obsEvent).
-/

namespace Sys2Proof.Machine

open Sys2Proof

/-- Is a signal index of a region one of Table 23-2? -/
def obsExists (region s : Nat) : Bool :=
  match region with
  | 0 => decide (s < 64) && decide (s % 16 ≤ 12)
  | 1 => decide (s < 128)
  | 2 => decide (s ≤ 9) || (decide (128 ≤ s) && decide (s < 256))
  | 3 => decide (s ≤ 39)
  | 4 => decide (s ≤ 34) || (decide (48 ≤ s) && decide (s < 80))
  | 5 => decide (s ≤ 3) || (decide (16 ≤ s) && decide (s < 32))
  | 6 => decide (s ≤ 7)
  | 7 => decide (s ≤ 8)
  | _ => false

/-- Level of a trunk or line signal. -/
def Hub.obsLink (h : Hub) (c k : Nat) : Option Bool :=
  if isTrunk c then
    match k with
    | 0 => some (h.get (R.linkState (c - 1)) == 4)
    | 7 => some ([0, 2].any (fun q => !(h.txc c q).replay.isEmpty))
    | 10 => some (h.flag (fEidleTx c))
    | 11 => some (h.flag (fEidleRx c))
    | k => if 1 ≤ k ∧ k ≤ 5 then some (h.flag (fLock c (k - 1))) else none
  else
    match k with
    | 0 => some (h.lineState (c - 5) == lUp)
    | 1 => some (h.flag (fLock c 0))
    | 2 => some (h.flag (fLock c 1))
    | 3 => some ((h.line (c - 5)).out.any (fun r => r.op == 1))
    | 6 => some (h.flag (fEidleTx c))
    | 7 => some (h.flag (fEidleRx c))
    | _ => none

/-- Level of a hearth signal. -/
def Hub.obsHearth (h : Hub) (s : Nat) : Option Bool :=
  match s with
  | 3 => some (decide (h.get R.bufSfree < h.get R.bufYelFree * 16))
  | 4 => some (decide (h.get R.bufSfree < h.get R.bufRedFree * 16))
  | 9 => some h.safe
  | s => if 5 ≤ s ∧ s ≤ 8 then some ((h.egress (s - 4)).b2.any (fun p => !p.2.isEmpty)) else none

/-- Level of a media signal. -/
def Hub.obsMedia (h : Hub) (s : Nat) : Option Bool :=
  if s < 8 then some ((h.settleLines s).flag (R.rhVblank s))
  else if 16 ≤ s ∧ s < 24 then some (h.headUrgent (s - 16))
  else match s with
    | 32 => some (h.get R.lp5Lpstate == 0)
    | 33 => some (decide (3 ≤ h.get R.lp5Lpstate))
    | 34 => some (h.flag (R.dpHpd 0))
    | 35 => some (h.flag (R.dpHpd 1))
    | s => if 36 ≤ s ∧ s ≤ 39 then some ((List.range 16).any (fun k => h.dmaRuns (16 * (s - 36) + k))) else none

/-- Level of a power signal. -/
def Hub.obsPower (h : Hub) (s : Nat) : Option Bool :=
  if s < 16 then some (h.stageIs s sgInrush)
  else if s < 32 then some (h.faultTimer (s - 16))
  else if 64 ≤ s then some (h.ccAttached (s - 64))
  else match s with
    | 32 => some (h.get R.pwrSel == 5)
    | 33 => some (h.selPhase == 3)
    | 34 => some h.power.feedWarn
    | _ => none

/-- Level of a bridge, security or control signal. -/
def Hub.obsOther (h : Hub) (region s : Nat) : Option Bool :=
  match region, s with
  | 5, 0 => some (h.bridge.holds.any (fun e => e.state == 0))
  | 5, s => if 16 ≤ s then some (!(h.line (s - 16)).out.isEmpty) else none
  | 6, 2 => some ((List.range 128).any (fun k => h.get (R.keyState k) == ksZero))
  | 6, 7 => some (h.flag R.secTestroot)
  | 7, 0 => some (decide (10 ≤ h.tick.task) && !h.tick.slotEnded)
  | 7, 1 => some (decide (h.tick.task < 11) || !h.tick.slotEnded)
  | 7, 3 => some (h.flag R.fcolLow)
  | 7, 4 => some (h.psIs psEntering)
  | 7, 5 => some (h.psIs psReturning)
  | 7, 8 => some (bit h.now 10)
  | _, _ => none

/-- Level of a signal; none for an event, or a level that the model does not hold (BMC receive, and the inside of a task). -/
def Hub.obsLevel (h : Hub) (region s : Nat) : Option Bool :=
  match region with
  | 0 => h.obsLink (s / 16 + 1) (s % 16)
  | 1 => h.obsLink (s / 8 + 5) (s % 8)
  | 2 => h.obsHearth s
  | 3 => h.obsMedia s
  | 4 => h.obsPower s
  | r => h.obsOther r s

/-- Level of an OBS pin: low where it shows nothing. -/
def Hub.obsPin (h : Hub) (p : Nat) : Option Bool :=
  if h.flag (R.obsEn p) then h.obsLevel (h.get (R.obsRegion p)) (h.get (R.obsSignal p)) else some false

/-- The pins whose level differs from that of the hub before are driven. -/
def Hub.showObs (h old : Hub) : Hub :=
  h.each (List.range 8) (fun h p =>
    match h.obsPin p with
    | some b => if old.obsPin p == some b then h else h.emit (.pin "OBS" p (b2n b))
    | none => h)

end Sys2Proof.Machine
end

