-- ==== Sys2Proof/Machine/Contain.lean ====
section
/-!
DEFINITION. Reactions of the fault collector: containment (Table 18-1), safe state (R546), what follows when a source is
left (R545), and the settling that ends every command: sources raised by the command, system tunnels, retraining,
buffer accounting, scheduling weights, views and connections that follow the rest of the hub.
-/

namespace Sys2Proof.Machine

open Sys2Proof

/-- Cause code of a trunk failure (Table 10-7), by the source's place in its region. -/
def foCauseOf (b : Nat) : Nat := match b with | 0 => 1 | 1 => 3 | 2 => 6 | 3 => 4 | _ => 8

/-- Add a block to those contained under a shared source. -/
def Hub.addBlock (h : Hub) (i b : Nat) : Hub :=
  if (h.blocksOf i).contains b then h else h.setBlocks i (h.blocksOf i ++ [b])

/-- The path that owns a converter channel is turned off: channels 0 to 3 the feeds', the rest the stages' (R536). -/
def Hub.adcPathOff (h : Hub) (ch : Nat) : Hub :=
  if ch < 4 then h.feedBar (ch / 2) else h.stageOff (ch / 2 - 2)

/-- The containment of source `i` (Table 18-1), ordered to the block that its DETAIL names. -/
def Hub.containBlock (h : Hub) (i : Nat) : Hub :=
  let d := h.get (R.srcDetail i)
  let b := i % 32
  match i / 32 with
  | 0 => if b % 8 = 5 then h else h.failTrunk (b / 8) (foCauseOf (b % 8))
  | 1 => h.lineFail (b / 2)
  | 2 =>
    if b = 1 then
      let h := h.addBlock i d
      if isTrunk d then h.failTrunk (d - 1) 5 else if isLine d then h.lineFail (d - 5) else h
    else if 8 ≤ b ∧ b ≤ 10 then h.addBlock i d
    else h
  | 3 => if b = 23 then h.addBlock i d else h
  | 4 =>
    if b < 16 then h.stageOff b
    else if b < 18 then h.feedBar (b - 16)
    else if b = 20 then (h.addBlock i d).stageOff d
    else if b = 22 then (h.addBlock i d).adcPathOff d
    else if b = 23 then (h.addBlock i (d / 256)).ccRecover (d / 256)
    else h
  | 6 => if b < 4 then h.failTrunk b 2 else if b = 8 then h.sessionEnd else h
  | 7 => if b = 3 then h.modCtl (fun c => { c with resetDue := some 4 }) else h
  | _ => h

/-- Safe state begins and ends for the blocks that heed it (R546, R232, R424, R537). -/
def Hub.settleSafe (h : Hub) : Hub :=
  if h.safe && !h.col.safeOn then
    (({ h with col := { h.col with safeOn := true } }).strikeSafe.rasterSafe).powerSafe
  else if !h.safe && h.col.safeOn then ({ h with col := { h.col with safeOn := false } }).strikeUnsafe
  else h

/-- One raised source: it is latched; safe state takes effect before a containment, which may switch a trunk over; and
its containment is ordered where its severity asks for it (R23, R69, R543). -/
def Hub.handleRaise (h : Hub) (i detail : Nat) : Hub :=
  let (_, h) := h.latch i detail
  let h := h.settleSafe
  if h.contained i then h.containBlock i else h

/-- The sources raised are handled in order; a containment may raise others. None is dropped (R26). -/
def Hub.handleRaises (h : Hub) : Nat → Hub
  | 0 => h
  | fuel + 1 =>
    match h.col.wants with
    | [] => h
    | (i, d) :: l => (({ h with col := { h.col with wants := l } }).handleRaise i d).handleRaises fuel

/-- What follows when the reaction of source `i` ends (R545, Table 18-1, R421). -/
def Hub.onLeft (h : Hub) (i : Nat) : Hub :=
  let b := i % 32
  let blocks := h.blocksOf i
  let h := h.setBlocks i []
  match i / 32 with
  | 3 =>
    if b < 16 then
      let h := h.when (decide (2 ≤ h.get (R.srcRsev i))) (fun h => h.headLeft (b % 8))
      h.when (decide (8 ≤ b)) (fun h => h.resumeHead (b % 8))
    else if 16 ≤ b ∧ b < 20 then h.when (decide (2 ≤ h.get (R.srcRsev i))) (fun h => h.dpRetrained (b % 2))
    else h
  | 4 =>
    if 16 ≤ b ∧ b < 18 then h.feedBarOver (b - 16)
    else if b = 22 then h.each blocks (fun h c => if c < 4 then h.feedBarOver (c / 2) else h)
    else if b = 23 then h.each blocks (fun h n => h.ccRecovered n)
    else h
  | _ => h

/-- The status bit clears, stickiness and reaction end, and what follows happens (R547, R549). -/
def Hub.leave (h : Hub) (i : Nat) : Hub := (h.unlatch i).onLeft i

/-- A retrain whose wait is over starts as soon as nothing holds it back; the wait itself starts at RTR_DLY with the failure, and
only failed trainings double it (Table 10-5). -/
def Hub.settleRetrain (h : Hub) : Hub :=
  h.each [0, 1, 2, 3] (fun h n =>
    let f := h.failover (n + 1)
    let st := h.get (R.linkState n)
    if f.waitOver && (st == 5 || st == 0) && h.get (R.foState n) == 1 && h.replayEmpty n && !h.trunkBarred n &&
        h.get (R.foRtrDly n) != 0 && (h.port (n + 1)).enabled && h.linksPowered then
      (h.modFailover (n + 1) (fun f => { f with waitOver := false })).startTraining (n + 1)
    else h)

/-- A line port trains as soon as nothing holds it back: in DOWN by R349, in FAILED once its retrain wait is over and no sticky
source holds it (Table 11-5, R545). -/
def Hub.settleLineTraining (h : Hub) : Hub :=
  if !h.linksPowered then h
  else h.each (List.range 16) (fun h n =>
    let x := h.line n
    if h.lineState n == lFailed && !x.waiting && x.cond && h.flag (R.lpEn n) && h.get (R.lpLrtrDly n) != 0 && !h.lineHeld n then
      h.lineTrain n
    else h.lineTryTrain n)

/-- OWNER_LOST follows its condition (R335). -/
def Hub.settleOwner (h : Hub) : Hub :=
  let on := h.col.sig.contains srcOwnerLost
  if h.ownerLost && !on then h.raise srcOwnerLost 0
  else if !h.ownerLost && on then h.fall srcOwnerLost
  else h

/-- Strike units follow their trunks: fresh where the trunk becomes ATTACHED (R208), emptied where it leaves that state. -/
def Hub.followTrunks (h old : Hub) : Hub :=
  h.each [0, 1, 2, 3] (fun h n =>
    let a := old.get (R.linkState n)
    let b := h.get (R.linkState n)
    if a ≠ 4 ∧ b = 4 then h.strikeLinkUp (n + 1)
    else if a = 4 ∧ b ≠ 4 then h.strikeLinkDown (n + 1)
    else h)

/-- A failover switch of a telemetry tunnel's egress marks every item of the tunnel dirty (R393). -/
def Hub.followMirror (h old : Hub) : Hub :=
  h.each (h.bridge.mirror.map (fun x => x.tid)).eraseDups (fun h t =>
    h.when ([0, 1].any (fun d => (h.queue t d).moved && !(old.queue t d).moved)) (fun h => h.mirrorDirty t))

/-- Does what underlies the attach condition of a line port hold (R349): for a cable port an attached partner that is no
accessory, and VCONN up where the hub found Ra as a source (R347); for a slot port the start condition and PG? -/
def Hub.attachCond (h : Hub) (n : Nat) : Bool :=
  if h.isSlot n then (h.stage n).cond && h.flag (R.stgPg n)
  else h.ccAttached n && (h.astate n == asSnk || !h.flag (R.ccRa n) || h.flag (R.ccVconnOn n))

/-- The attach condition of a slot port ends with its start condition or its PG, on the same core cycle (R349). -/
def Hub.settleAttach (h : Hub) : Hub :=
  h.each (List.range 16) (fun h n => h.when (h.isSlot n && (h.line n).cond && !h.attachCond n) (fun h => h.lineCondOff n))

/-- Claims of a master end with the condition of its control tunnel (R495): hosts 0 to 3. -/
def Hub.settleClaims (h : Hub) : Hub :=
  h.each [0, 1, 2, 3] (fun h m =>
    if h.tunIs (10 + m) tOpen && !h.sysCond (10 + m) then h.ccClaimsEnd m else h)

/-- Whether SFREE has stayed below YEL_FREE (Table 7-5). -/
def Hub.settlePressure (h : Hub) : Hub :=
  if h.hearth.lowAllTick && decide (h.get R.bufYelFree * 16 ≤ h.get R.bufSfree) then
    { h with hearth := { h.hearth with lowAllTick := false } }
  else h

/-- The queues whose cut-through frames the links are receiving. -/
def Hub.cutting (h : Hub) : List Nat :=
  h.links.flatMap (fun e => e.2.rx.flatMap (fun x => x.2.cut.toList ++ x.2.done.filterMap RxFrame.cut))

/-- Frames arriving by cut-through are abandoned where their ingress port has gone down (R250); what still arrives of a frame
that its egress no longer has is discarded. -/
def Hub.settleCt (h : Hub) : Hub :=
  let h := h.each (h.ctArriving.filter (fun p => isLink p.1 && !h.linkFlows p.1)) (fun h p => h.ctAbort p.2)
  let live := h.ctArriving.map (fun p => p.2)
  h.each (h.cutting.filter (fun k => !live.contains k)) (fun h k => h.dropCut k)

/-- The buffer and its queues follow what has happened: held frames that room has been made for are admitted (R245), and
activity, the guard timers and the link units kept open follow (R270, R273, R249). -/
def Hub.settleQueues (h : Hub) : Hub :=
  let h := ((h.settleFloors.rejudgeAll).refreshAll).settleGuard
  h.each (h.links.map (fun e => e.1.i)) (fun h c => h.extendLu c)

/-- The links advertise credits that have risen, and send the ALIGN rows that are due (R133, R112). -/
def Hub.settleLinks (h : Hub) : Hub :=
  h.each ((List.range 21).filter (fun c => isLink c && (h.port c).phase == 4)) (fun h c => (h.settleCredit c).settleAlign c)

/-- One round of settling; `old` is the hub before it, so that what follows a trunk's state follows a containment as well. -/
def Hub.settleRound (h old : Hub) : Hub :=
  let h := (h.handleRaises 4096).settleSafe
  let h := ((h.followTrunks old).followMirror old).settleOwner
  let h := ((h.settleClaims.settleCt).settleAttach).settleSys.settleDivert
  let h := ((h.settleRetrain.settleLineTraining).settleReturn).settleQueues
  let h := (h.settleFree.settleWmap).settleBridge
  let h := ((h.settleRpl.settleHeads).settleTol).settleBudget
  h.settleUsb

/-- In banked a source that latches with RSEV 2 or 3, and a partner that attaches, are wake events (Table 20-3). -/
def Hub.settleWake (h old : Hub) : Hub :=
  if !h.psIs psBanked then h
  else
    let fault := (List.range 256).any (fun i => h.contained i && !old.contained i)
    let att := ((List.range 16).map (fun n => b2n (h.ccAttached n && !old.ccAttached n) * 2 ^ n)).sum
    h.wake (2 * b2n fault) att false

/-- The end of every command: `old` is the hub before it. Two rounds, since what settles may raise sources. -/
def Hub.settleFrom (h old : Hub) : Hub :=
  let a := h.settleRound old
  let b := a.settleRound a
  let c := (b.handleRaises 4096).followTrunks b
  (((c.settleWake old).settleLinks).settlePressure).showObs old

/-- A command that acts on the hub alone: its effect, what settles after it, and the LP5 accesses that can be served. -/
def State.act (s : State) (f : Hub → Hub) : State :=
  ({ s with hub := (f s.hub).settleFrom s.hub } : State).lp5Serve

/-- A command that acts on hub and memory. -/
def State.actAll (s : State) (f : State → State) : State :=
  let t := f s
  ({ t with hub := t.hub.settleFrom s.hub } : State).lp5Serve

/-! Serving Twiop commands. -/

/-- Does the firmware serve a command of this opcode for master `m`: after firmware ready, or with a self-test failure
SYS.INFO and SYS.RESET for mailboxes 4 to 6 alone (R596, R597)? A mailbox whose command waits holds no other
(R606), and the core is off in banked, in ember and during a return.
Masters without a mailbox are served as well. -/
def Hub.serves (h : Hub) (m opcode : Nat) : Bool :=
  (h.parkedOf m).isNone && h.domainsOn &&
  (h.flag R.psFwrdy || (h.flag R.psStfail && (opcode == 0x0101 || opcode == 0x0104) && decide (4 ≤ m) && decide (m ≤ 6)))

/-- The mailbox of master `m` shows SERVING while its command is served (Table 21-2). -/
def Hub.serving (h : Hub) (m : Nat) : Hub := if m < 8 then h.set (R.mbxState m) mbServing else h

/-- A Twiop command of master `m` is served: its answer is left in the mailbox (R607, R614, R615). -/
def State.run (s : State) (m opcode : Nat) (f : Hub → Ans × Hub) : State :=
  if !s.hub.serves m opcode then s
  else s.act (fun h => let (a, h) := f (h.serving m); h.complete m opcode a)

/-- A Twiop command that may be parked (R616): refused with BUSY where a waiting command names the same object. -/
def State.runParked (s : State) (m opcode : Nat) (p : Parked) (f : Hub → Ans × Hub) : State :=
  if !s.hub.serves m opcode then s
  else s.act (fun h =>
    let h := h.serving m
    let (a, h) := if h.objectBusy p then h.refuse stBusy else f h
    h.finish m opcode p a)

/-- A Twiop command that names an object which a waiting command may hold (R616). -/
def State.runFree (s : State) (m opcode : Nat) (p : Parked) (f : Hub → Ans × Hub) : State :=
  s.run m opcode (fun h => if h.objectBusy p then h.refuse stBusy else f h)

end Sys2Proof.Machine
end

