-- ==== Sys2Proof/Machine/SecOps.lean ====
section
/-!
DEFINITION. The SYS, GATE and KEY commands, firmware patches, and debug (chapters 19, 21 and 23).
-/

namespace Sys2Proof.Machine

open Sys2Proof

/-! SYS.INFO (Table 21-7, R666). -/

/-- Loaded patch indexes `a` to `a + 31`, as a word. -/
def Hub.loadedWord (h : Hub) (a : Nat) : Nat :=
  ((List.range 32).map (fun i => b2n (tabGet h.sec.patches (k1 (a + i)) none).isSome * 2 ^ i)).sum

/-- Line ports UP in bits 31 to 16 and the link states of T0 to T3 in bits 11 to 0. -/
def Hub.linkWord (h : Hub) : Nat :=
  ((List.range 16).map (fun n => b2n (h.lineState n == lUp) * 2 ^ (16 + n))).sum +
  ((List.range 4).map (fun n => h.get (R.linkState n) * 2 ^ (3 * n))).sum

/-- SYS.INFO. -/
def Hub.sysInfo (h : Hub) (m : Nat) : Ans × Hub :=
  let w2 := h.sec.step * 2 ^ 24 + 2 ^ 16 + b2n (h.grade == .f) * 2 ^ 15 + h.get R.secTestroot * 2 ^ 14 +
    h.get R.secDebug * 2 ^ 13 + h.get R.psStfail * 2 ^ 12 + h.owner * 2 ^ 8 + h.get R.secDeputy * 16 + m
  let w4 := h.get R.psStfReg * 2 ^ 24 + h.get R.psRstcause * 2 ^ 21 + h.get R.lp5CapMib
  h.ok (twoWords h.sec.hubId ++ [w2, usbVendor * 2 ^ 16 + usbProduct 0, w4, h.loadedWord 0, h.loadedWord 32, h.wordAt rowsFeatlock 0x7050040] ++
    twoWords h.now ++ twoWords h.tickNum ++ [h.linkWord])

/-! SYS.CLAIM and SYS.DEPUTY (R571 to R573). -/

/-- SYS.CLAIM CHALLENGE: a fresh Nh, unless a hold-off runs (R572). -/
def Hub.claimChallenge (h : Hub) (m : Nat) : Ans × Hub :=
  if 4 < m then h.refuse stDenied
  else if h.now < tabGet h.sec.holdUntil (k1 m) 0 then h.refuse stBusy
  else
    let (n, h) := h.nonce
    let c : Challenge := { nonce := n, at_ := h.now }
    ({ h with sec := { h.sec with chal := tabSet h.sec.chal (k1 m) (some c) none } }).ok (bytesWords n)

/-- What PO must be: AES-256-CMAC(K_own, "OWN" ‖ Nh ‖ HUBID ‖ M), if K_own is valid and the challenge is fresh (R571). -/
def Hub.claimProof (h : Hub) (m : Nat) : Option (List Byte) :=
  match tabGet h.sec.chal (k1 m) none, h.ownKey with
  | some c, some s =>
    if h.now < c.at_ + 60000000000 then
      some (cmacBytes (h.keyMat s) (labelBytes "OWN" ++ c.nonce ++ le64 h.sec.hubId ++ le32 m))
    else none
  | _, _ => none

/-- Does another master's ownership stand in the way of a claim by `m` (R571)? -/
def Hub.claimBarred (h : Hub) (m : Nat) : Bool :=
  h.flag R.secOwned && h.owner != m &&
  !(h.ownerLost && decide (h.get R.secDepHold ≤ h.sec.lostFor) && h.get R.secDeputy == 15)

/-- A correct PO: the issuer is the owner. A lost owner's slot is handled as at a takeover (R336). -/
def Hub.claimed (h : Hub) (m : Nat) : Ans × Hub :=
  let old := h.owner
  let h := if old < 5 ∧ old ≠ m then h.planTakeover old else h
  let h := (h.setAll [(R.secOwned, 1), (R.secOwner, m)]).inc R.secClaims
  let h := { h with sec := { h.sec with bad := tabErase h.sec.bad (k1 m), holdUntil := tabErase h.sec.holdUntil (k1 m)
                                        lostFor := if old = m then h.sec.lostFor else 0 } }
  let h := h.ownerRecord 1 m old
  h.ok [h.secOwn]

/-- A bad or expired PO: refused, counted, and a hold-off for the master (R572). -/
def Hub.claimFailed (h : Hub) (m : Nat) : Ans × Hub :=
  let k := tabGet h.sec.bad (k1 m) 0 + 1
  let h := h.inc R.secBadClaim
  ({ h with sec := { h.sec with bad := tabPut h.sec.bad (k1 m) k
                                holdUntil := tabPut h.sec.holdUntil (k1 m) (h.now + holdOff k) } }).refuse stDenied

/-- SYS.CLAIM PROVE. -/
def Hub.claimProve (h : Hub) (m : Nat) (po : List Nat) : Ans × Hub :=
  if 4 < m then h.refuse stDenied
  else if po.length ≠ 4 then h.refuse stBadArg
  else if h.claimBarred m then h.refuse stBusy
  else
    let good := h.claimProof m == some (wordBytes po)
    let h := { h with sec := { h.sec with chal := tabErase h.sec.chal (k1 m) } }
    if good then h.claimed m else h.claimFailed m

/-- SYS.CLAIM RELEASE (R573). -/
def Hub.claimRelease (h : Hub) (m : Nat) : Ans × Hub :=
  if !h.isOwner m then h.refuse stNotOwner
  else
    let h := h.setAll [(R.secOwned, 0), (R.secOwner, 15), (R.secDeputy, 15)]
    let h := ({ h with sec := { h.sec with lostFor := 0 } }).ownerRecord 2 15 m
    h.ok [h.secOwn]

/-- SYS.DEPUTY (R573). -/
def Hub.setDeputy (h : Hub) (m deputy hold : Nat) : Ans × Hub :=
  if !h.isOwner m then h.refuse stNotOwner
  else if hold = 0 ∨ 65535 < hold ∨ (deputy ≠ 15 ∧ (3 < deputy ∨ deputy = m)) then h.refuse stBadArg
  else
    let h := h.setAll [(R.secDeputy, deputy), (R.secDepHold, hold)]
    h.ok [h.secOwn]

/-! SYS.RESET (R599, R620, R623). -/

/-- Kind 1: a warm reset after the next boundary. -/
def Hub.askWarm (h : Hub) (m : Nat) : Ans × Hub :=
  if h.isOwner m || (!h.flag R.secOwned && (m == 4 || m == 6)) then (h.modCtl (fun c => { c with resetAsk := true })).ok []
  else h.refuse stNotOwner

/-- Kind 2: a host tunnel-layer reset of master `who`; the new generations of its control and notification tunnels. -/
def Hub.askHost (h : Hub) (m who : Nat) : Ans × Hub :=
  if 4 < who then h.refuse stBadArg
  else if m ≠ who ∧ !h.isOwner m then h.refuse stNotOwner
  else
    let h := h.hostReset who
    if who = 4 then h.ok [h.get (R.ttGen 5)]
    else h.ok [h.get (R.ttGen (10 + who)) * 16 + h.get (R.ttGen (1 + who))]

/-- Word 3 of the completion record of a kind 2 reset (Table 21-5). -/
def resetGens (a : Ans) : Nat :=
  match a.resp with
  | [w] => bits w 3 0 * 2 ^ 28 + bits w 7 4 * 2 ^ 24
  | _ => 0

/-- SYS.RESET kind 2 is served: its completion record goes to a master that resets itself, whatever NOTE says (R618). -/
def State.resetHost (s : State) (m who : Nat) : State :=
  if !s.hub.serves m 0x0104 then s
  else s.act (fun h =>
    let (a, h) := (h.serving m).askHost m who
    h.completeWith m 0x0104 a (m == who && a.status == stOk) (resetGens a))

/-- Kind 3: a port goes to DOWN (Table 4-13, Table 11-5). -/
def Hub.askPort (h : Hub) (m code : Nat) : Ans × Hub :=
  if !isLink code then h.refuse stBadArg
  else if !h.holds m (tgtPort code) 3 then h.refuse stDenied
  else (if isTrunk code then h.trunkDown (code - 1) else h.lineDown (code - 5)).ok []

/-! Gates (R576, R577). -/

/-- Is a target an LP5 window? -/
def isWinTgt (t : Nat) : Bool := decide (0x40 ≤ t) && decide (t ≤ 0x4F)

/-- The two window words (Table 14-11). -/
def Hub.winWords (h : Hub) (w : Nat) : List Nat := h.wordsAt rowsWin (0x3200100 + w * 8) 2

/-- GATE.SET; `win` holds the window words, for a window only. -/
def Hub.gateSet (h : Hub) (m t w : Nat) (win : Option (Nat × Nat)) : Ans × Hub :=
  if !h.isOwner m then h.refuse stNotOwner
  else if !Config.gateExists t ∨ bits w 15 14 ≠ 3 ∨ bits w 31 30 ≠ 0 then h.refuse stBadArg
  else match win with
    | none => if isWinTgt t then h.refuse stBadArg else (h.set (R.gateWord t) w).ok [0, 0]
    | some (a, b) =>
      let k := t - 0x40
      let en := bit a 31
      if !isWinTgt t ∨ !imagesLegal rowsWin (0x3200100 + k * 8) [a, b] ∨ !h.winLegal k en (bits a 13 0) (bits b 14 0) then
        h.refuse stBadArg
      else ((h.set (R.gateWord t) w).winSet k en (bits a 13 0) (bits b 14 0)).ok (twoWords h.nextBoundary)

/-- GATE.GET. -/
def Hub.gateGet (h : Hub) (m t : Nat) : Ans × Hub :=
  if !Config.gateExists t then h.refuse stBadArg
  else if !h.isOwner m ∧ !h.holds m t 1 then h.refuse stDenied
  else h.ok (h.get (R.gateWord t) :: (if isWinTgt t then h.winWords (t - 0x40) else [0, 0]))

/-! Derivation (R564, R565). -/

/-- Is the key that would be derived one of Table 19-2? `lv` is its level. -/
def keyInUse (lv dom purpose inst kint : Nat) : Bool :=
  purpose == 1 &&
  (if lv = 2 then inst == 0 && kint == 0
   else (if dom = domLink then decide (inst ≤ 3) else dom == domNode && decide (inst ≤ 15)) &&
     decide (4 ≤ kint) && decide (kint ≤ 16))

/-- KEY.DERIVE. An instance key takes the version of the purpose key above it. -/
def Hub.keyDerive (h : Hub) (m parent purpose inst kint ver : Nat) : Ans × Hub :=
  let lv := h.get (R.keyLevel parent) + 1
  let dom := h.get (R.keyDomain parent)
  if !h.isOwner m then h.refuse stNotOwner
  else if !h.holds m tgtKeys 3 then h.refuse stDenied
  else if 127 < parent ∨ !h.keyValid parent ∨ lv < 2 ∨ 3 < lv ∨ !keyInUse lv dom purpose inst kint then h.refuse stBadArg
  else if (h.findKey dom lv purpose inst).isSome then h.refuse stBusy
  else match h.freeSlot with
    | none => h.refuse stNoResource
    | some s =>
      let k := h.keyMat parent
      if lv = 2 then (h.fillSlot s 2 dom parent purpose 0 12 ver false (purposeKey k purpose ver)).ok [s]
      else
        let v := h.get (R.keyVer parent)
        (h.fillSlot s 3 dom parent purpose inst kint v false (instanceKey k inst v)).ok [s]

/-- Blown bits of a domain. -/
def Hub.blown (h : Hub) (d : Nat) : Nat := tabGet h.sec.fuseV (k1 d) 0

/-- KEY.DERIVE ADVANCE: the checks, and the blow begins. -/
def Hub.keyAdvance (h : Hub) (m d : Nat) : Ans × Hub :=
  if !h.isOwner m then h.refuse stNotOwner
  else if !h.holds m tgtKeys 3 then h.refuse stDenied
  else if d = 0 ∨ 5 < d then h.refuse stBadArg
  else if h.flag R.secDebug then h.refuse stDenied
  else if 15 ≤ h.blown d then h.refuse stNoResource
  else ({ parked := true }, h)

/-- The blow has ended; FV_d follows at the next reset. -/
def Hub.fuseBlown (h : Hub) (d : Nat) : Hub :=
  { h with sec := { h.sec with fuseV := tabSet h.sec.fuseV (k1 d) (min 15 (h.blown d + 1)) 0 } }

/-- The completion of a KEY.DERIVE ADVANCE. -/
def Hub.keyAdvanced (h : Hub) (d : Nat) : Ans × Hub := h.ok [h.blown d]

/-! Revocation and orphans (R567, Table 19-3). -/

/-- What follows when the key in slot `s` is orphaned. -/
def Hub.orphan (h : Hub) (s : Nat) : Hub :=
  let dom := h.get (R.keyDomain s)
  let lv := h.get (R.keyLevel s)
  let i := h.get (R.keyInst s)
  if dom = domLink ∧ lv = 3 then
    (h.each (h.attachedOn i) (fun h c => h.trunkUnattach (c - 1))).hostReset i
  else if dom = domNode ∧ lv = 3 then (if h.flag (R.lpEnc i) then h.lineUnattach i true else h)
  else if dom = domService ∧ lv = 2 then h.sessionEnd
  else h

/-- Slots become ZEROISING, with the consequences of each. -/
def Hub.revokeAll (h : Hub) (l : List Nat) : Hub :=
  let h := h.each l (fun h s => h.set (R.keyState s) ksZero)
  h.each l (fun h s => h.orphan s)

/-- KEY.REVOKE: the named slot and every VALID slot descended from it. -/
def Hub.keyRevoke (h : Hub) (m s : Nat) : Ans × Hub :=
  if !h.isOwner m then h.refuse stNotOwner
  else if !h.holds m tgtKeys 3 then h.refuse stDenied
  else if s < 6 ∨ 127 < s ∨ !h.keyValid s then h.refuse stBadArg
  else
    let l := s :: (List.range 128).filter (fun x => decide (6 ≤ x) && x != s && h.keyValid x && h.descends s x)
    (h.revokeAll l).ok [l.length]

/-- KEY.CHECK (R566). -/
def Hub.keyCheck (h : Hub) (m s : Nat) (n : List Nat) : Ans × Hub :=
  if !h.holds m tgtKeys 1 then h.refuse stDenied
  else if s < 6 ∨ 127 < s ∨ n.length ≠ 4 then h.refuse stBadArg
  else if !h.keyValid s then h.ok (h.slotStatus s)
  else h.ok (bytesWords (cmacBytes (h.keyMat s) (labelBytes "CHK" ++ wordBytes n ++ le64 h.sec.hubId)) ++ h.slotStatus s)

/-! Debug and the test root (R568, R659). -/

/-- Debug is enabled, unless DBG_LOCK is blown or it is enabled already. -/
def Hub.debugOn (h : Hub) : Hub :=
  if h.sec.dbgLock || h.flag R.secDebug then h
  else
    let h := (h.set R.secDebug 1).revokeAll ((List.range 128).filter (fun s => h.keyValid s))
    let h := h.setAll [(R.secOwned, 0), (R.secOwner, 15), (R.secDeputy, 15)]
    let h := { h with sec := { h.sec with chal := [], lostFor := 0, testDue := true } }
    let h := h.each (List.range 4) (fun h n => if h.get (R.linkState n) = 4 then h.trunkUnattach n else h)
    h.each (List.range 16) (fun h n => if h.flag (R.lpEnc n) then h.lineUnattach n true else h)

/-! Patches (R569, R570, R630, R631). -/

/-- The header fields of a patch image (Table 21-15). -/
structure PatchHead where
  step : Nat
  index : Nat
  seq : Nat
  blen : Nat
deriving DecidableEq, Repr

/-- The header of an image. -/
def patchHead (l : List Byte) : PatchHead :=
  let g (a n : Nat) : Nat := leWord ((l.drop a).take n)
  ⟨g 4 1, g 5 1, g 6 2, g 8 4⟩

/-- Check 0: the lengths of R630, and a header as Table 21-15 gives. -/
def patchForm (l : List Byte) : Bool :=
  let x := patchHead l
  leWord (l.take 4) == 0x48425054 && decide (x.index < 64) && decide (16 ≤ x.blen) && decide (x.blen ≤ 16384) &&
  x.blen % 16 == 0 && l.length == 64 + x.blen + 16 + 97 + 96 && leWord ((l.drop 28).take 36) == 0

/-- The number of the first check of R570 that an image fails; 0 for its form, none where it passes. -/
def Hub.patchFail (h : Hub) (l : List Byte) : Option Nat :=
  if !patchForm l then some 0
  else
    let x := patchHead l
    let signed := l.take (80 + x.blen)
    let pub := (l.drop (80 + x.blen)).take 97
    let sig := l.drop (177 + x.blen)
    let body := (l.drop 64).take x.blen
    let tag := (l.drop (64 + x.blen)).take 16
    let seqOk := match tabGet h.sec.patches (k1 x.index) none with | some q => decide (q ≤ x.seq) | none => true
    let tagOk := match h.patKey with
      | some s => gcmTag (keyBytes (h.keyMat s)) ((l.drop 12).take 12) (l.take 64) body == tag
      | none => false
    if sha384 pub ≠ h.sec.pkh then some 1
    else if !sigOk pub signed sig then some 2
    else if x.step ≠ h.sec.step then some 3
    else if !seqOk then some 4
    else if !tagOk then some 5
    else none

/-- Is a patch of this index accepted and waiting for its boundary (R631)? -/
def Hub.patchWaiting (h : Hub) (i : Nat) : Bool := h.sec.patchNew.any (fun p => p.1 == i)

/-- Does a body of `n` bytes fit once the body it replaces is freed (R631)? -/
def Hub.patchFits (h : Hub) (i n : Nat) : Bool :=
  decide (((h.ctl.patchLen.filter (fun e => e.1 != k1 i)).map (fun e => e.2)).sum + n ≤ 65536)

/-- KEY.CHECK PATCH: the image is read with the owner's gates, and its checks begin. The second answer is what the
command waits for; the number of the failed check is 255 for none. -/
def State.patchStart (s : State) (m addr len : Nat) : Ans × Parked × State :=
  let h := s.hub
  let none_ : Parked := .patch 64 0 0 0
  if !h.isOwner m then ({ status := stNotOwner }, none_, s)
  else if !h.holds m tgtKeys 3 then ({ status := stDenied }, none_, s)
  else if 2 ^ 17 < len then ({ parked := true }, .patch 64 0 0 0, s)
  else if !h.mayRead m addr len then ({ status := stDenied }, none_, s)
  else
    let s := s.lp5Now
    let l := memRead s.mem addr len
    let x := patchHead l
    let p : Parked := .patch x.index x.seq x.blen ((h.patchFail l).getD 255)
    if h.objectBusy p ∨ h.patchWaiting x.index then ({ status := stBusy }, p, s)
    else ({ parked := true }, p, s)

/-- The checks have ended (R570, R631). -/
def Hub.patchDone (h : Hub) (i seq len fail : Nat) : Ans × Hub :=
  if fail ≠ 255 then (h.raise srcPatchRej i).refuseAt stPatchReject fail
  else if !h.patchFits i len then h.refuse stNoResource
  else
    let h := { h with sec := { h.sec with patchNew := h.sec.patchNew ++ [(i, seq)] } }
    let h := h.modCtl (fun c => { c with patchLen := tabPut c.patchLen (k1 i) len })
    h.ok ((seq * 2 ^ 16 + i) :: twoWords h.nextBoundary)

end Sys2Proof.Machine
end

