-- ==== Sys2Proof/Machine/FaultOps.lean ====
section
/-!
DEFINITION. Fault injection, configuration and clearing (chapter 18): the FAULT commands, quench, and the events of the
collector's lines and timers.
-/

namespace Sys2Proof.Machine

open Sys2Proof

/-! Events of lines and timers (R542, R547, R551). -/

/-- The error line of an assigned source rises with its DETAIL (R541, R542). -/
def Hub.lineRise (h : Hub) (i detail : Nat) : Hub := if Config.srcExists i then h.raise i detail else h

/-- The signal of a source falls (R547). -/
def Hub.lineFall (h : Hub) (i : Nat) : Hub := h.fall i

/-- The quench timer of a source reaches QPER (R547). -/
def Hub.quench (h : Hub) (i : Nat) : Hub :=
  if h.mayQuench i then (((h.unlatch i).inc (R.srcRcnt i)).onLeft i).logEvent i 2 false else h

/-- PW has passed since the last latching that drives FAULT_N (R551, Table 18-3). -/
def Hub.pulseOver (h : Hub) : Hub :=
  let asked := h.col.relAsked
  let h := { h with col := { h.col with pulse := false, relAsked := false } }
  if asked && h.get R.fcolMode == 1 then h.driveFaultN false else h.faultNRest

/-- No sweep has completed in 8 consecutive ticks (Table 18-1). -/
def Hub.coreWdog (h : Hub) : Hub := if 8 ≤ h.col.noSweep then h.raise srcCoreWdog 0 else h

/-- A host's clear of one source (R549). -/
def Hub.clearSource (h : Hub) (i : Nat) : Hub :=
  if h.mayClear i then ((h.unlatch i).onLeft i).logEvent i 3 false else h

/-- The sources that a mask of region `r` names. -/
def maskSources (r mask : Nat) : List Nat := ((List.range 32).filter (fun b => bit mask b)).map (fun b => 32 * r + b)

/-! FAULT.READ (Table 18-5). -/

/-- Mark entries of the fault log as returned (R553). -/
def Hub.logTaken (h : Hub) (first n : Nat) : Hub :=
  let count := h.get R.fcolCount
  let next := h.get R.fcolNext
  let ks := ((List.range n).filter (fun k => first + k < count)).map (fun k => (next + 256 - count + first + k) % 256)
  { h with col := { h.col with log := h.col.log.map (fun e => if ks.contains e.1.i then (e.1, { e.2 with taken := true }) else e) } }

/-- FAULT.READ: `what` 0 status, 1 sources, 2 a log, 3 pin and counts. -/
def Hub.faultRead (h : Hub) (m what sel first count : Nat) : Ans × Hub :=
  if !h.holds m tgtFault 1 then h.refuse stDenied
  else match what with
    | 0 => h.ok ((List.range 8).map (fun r => h.get (R.fcStatus r)) ++ [h.summary])
    | 1 =>
      if count = 0 ∨ 32 < count ∨ 256 < first + count then h.refuse stBadArg
      else h.ok (h.wordsAt rowsSrc (0x7001000 + first * 8) (2 * count))
    | 2 =>
      if 17 < sel ∨ count = 0 ∨ 32 < count then h.refuse stBadArg
      else if sel = 17 then
        let l := (h.faultLog.drop first).take count
        (h.logTaken first count).ok (l.flatMap (fun e => e.words 0))
      else h.ok (((h.lateLog sel).drop first).take count).flatten
    | 3 =>
      h.ok (h.wordsAt rowsFcol 0x7000048 2 ++ h.wordsAt rowsBlog 0x5018000 17 ++ h.wordsAt rowsRefuse 0x7000060 8)
    | _ => h.refuse stBadArg

/-! FAULT.CONFIG (R543, R552). -/

/-- One source's settings; a severity raised while the source is latched takes effect at once. -/
def Hub.configSource (h : Hub) (i w : Nat) : Hub :=
  let old := h.get (R.srcRsev i)
  let h := h.setAll [(R.srcSev i, bits w 31 30), (R.srcFnEn i, bits w 29 29), (R.srcLimit i, bits w 27 24), (R.srcQper i, bits w 13 0)]
  let new := h.get (R.srcSev i)
  if h.latched i ∧ old < new then
    let h := h.set (R.srcRsev i) new
    if old < 2 ∧ 2 ≤ new then h.containBlock i else h
  else h

/-- FAULT.CONFIG: `pin` holds the image of CTL_FC_FAULTN where PIN is 1. -/
def Hub.faultConfig (h : Hub) (m : Nat) (pin : Option Nat) (l : List (Nat × Nat)) : Ans × Hub :=
  if !h.holds m tgtFault 3 then h.refuse stDenied
  else if 126 < l.length then h.refuse stBadArg
  else if pin.isNone ∧ l.isEmpty then h.refuse stZeroLen
  else if !l.all (fun p => Config.srcExists p.1 && imageLegal rowsSrc (0x7001000 + p.1 * 8) p.2) then h.refuse stBadArg
  else if !(match pin with | some w => imageLegal rowsFcol 0x7000048 w | none => true) then h.refuse stBadArg
  else
    let h := match pin with
      | some w => h.setAll [(R.fcolMode, bits w 31 30), (R.fcolPw, bits w 9 0)]
      | none => h
    ((h.each l (fun h p => h.configSource p.1 p.2)).faultNRest).ok []

/-! FAULT.FORCE (R550). -/

/-- Why FAULT.FORCE is refused, if it is. -/
def Hub.forceRefused (h : Hub) (m i : Nat) : Option Nat :=
  if !h.isOwner m ∧ m ≠ 14 then some stNotOwner
  else if !h.holds m tgtFault 3 then some stDenied
  else if !Config.srcExists i then some stBadArg
  else if i / 32 = 6 ∧ !h.flag R.secDebug then some stDenied
  else none

/-- A forced rise is handled exactly as a real one. -/
def Hub.forcedRise (h : Hub) (i detail : Nat) : Hub :=
  let (_, h) := h.rise i detail true
  if h.contained i then h.containBlock i else h

/-- FAULT.FORCE SET. -/
def Hub.forceSet (h : Hub) (m i detail : Nat) : Ans × Hub :=
  match h.forceRefused m i with
  | some st => h.refuse st
  | none =>
    if h.flag (R.srcForce i) then h.ok []
    else
      let was := h.flag (R.srcActive i)
      let h := ((h.set (R.srcForce i) 1).settleActive i).logEvent i 5 true
      (if was then h else h.forcedRise i detail).ok []

/-- FAULT.FORCE CLEAR. -/
def Hub.forceClear (h : Hub) (m i : Nat) : Ans × Hub :=
  match h.forceRefused m i with
  | some st => h.refuse st
  | none =>
    if !h.flag (R.srcForce i) then h.ok []
    else (((h.set (R.srcForce i) 0).settleActive i).logEvent i 5 true).ok []

/-- FAULT.FORCE PULSE: the forced signal rises for one region clock cycle. -/
def Hub.forcePulse (h : Hub) (m i detail : Nat) : Ans × Hub :=
  match h.forceRefused m i with
  | some st => h.refuse st
  | none =>
    let h := h.logEvent i 5 true
    (if h.flag (R.srcActive i) then h else h.forcedRise i detail).ok []

/-! FAULT.CLEAR (R549, Table 18-5). -/

/-- Log 0 to 17 is emptied and its counts set to 0. -/
def Hub.logEmpty (h : Hub) (sel : Nat) : Hub :=
  if sel = 17 then ({ h with col := { h.col with log := [], fresh := [] } }).setAll [(R.fcolCount, 0), (R.fcolOvfCnt, 0)]
  else
    let b := h.bridge
    let b : Bridge := { b with logs := b.logs.filter (fun e => e.1.i != sel) }
    ({ h with bridge := b }).setAll [(R.blogCount sel, 0), (R.blogOvfCnt sel, 0)]

/-- A held FAULT_N is released, at PW where that has not passed (Table 18-3). -/
def Hub.faultNRelease (h : Hub) : Hub :=
  if h.get R.fcolMode ≠ 1 then h
  else if h.col.pulse then { h with col := { h.col with relAsked := true } }
  else h.driveFaultN false

/-- FAULT.CLEAR: `log` names the log to empty where LOG is 1. -/
def Hub.faultClear (h : Hub) (m : Nat) (log : Option Nat) (release resetCnt : Bool) (masks : List Nat) : Ans × Hub :=
  let l := (List.range 8).flatMap (fun r => maskSources r (masks.getD r 0))
  if !h.holds m tgtFault 3 then h.refuse stDenied
  else if masks.length ≠ 8 ∨ !l.all Config.srcExists ∨ 17 < log.getD 0 then h.refuse stBadArg
  else
    let h := h.each l (fun h i => (h.when resetCnt (fun h => h.set (R.srcRcnt i) 0)).clearSource i)
    let h := h.when release Hub.faultNRelease
    (match log with | some k => h.logEmpty k | none => h).ok []

end Sys2Proof.Machine
end

