-- ==== Sys2Proof/Machine/PortOps.lean ====
section
/-!
DEFINITION. The PORT commands (Table 21-10, R625, R626, Table 21-11).
-/

namespace Sys2Proof.Machine

open Sys2Proof

/-! PORT.TRAIN. -/

/-- Addresses of the register blocks of a trunk, a line port, and of what every port has in the hearth region. -/
def aLink (n : Nat) : Nat := 0x10000 + n * 0x100
def aLane (n : Nat) : Nat := 0x20000 + n * 0x100
def aFo (n : Nat) : Nat := 0x2900000 + n * 0x20
def aLp (n : Nat) : Nat := 0x1010000 + n * 0x100
def aFp (c : Nat) : Nat := 0x2601100 + (c - 1) * 0x20
def aAtt (c : Nat) : Nat := 0x2500100 + (c - 1) * 0x10
def aSch (c : Nat) : Nat := 0x2700000 + (c - 1) * 0x40

/-- Why a PORT.TRAIN of this port is refused to master `m`, if it is: the gate, or the owner for engine ports. -/
def Hub.portRefusal (h : Hub) (m code : Nat) : Option Nat :=
  if isEngine code then (if h.isOwner m then none else some stNotOwner)
  else if !isLink code then some stBadArg
  else if h.holds m (tgtPort code) 3 then none else some stDenied

/-- Link state of a trunk or line port by code; 0 for an engine port. -/
def Hub.linkStateOf (h : Hub) (c : Nat) : Nat :=
  if isTrunk c then h.get (R.linkState (c - 1)) else if isLine c then h.lineState (c - 5) else 0

/-- The four bytes of a share word, most significant first: control, isochronous, retransmit, bulk. -/
def sharesOf (w : Nat) : Nat × Nat × Nat × Nat := (bits w 31 24, bits w 23 16, bits w 15 8, bits w 7 0)

/-- Are the shares of a trunk legal (R136)? -/
def trunkSharesOk (w : Nat) : Bool :=
  let x := sharesOf w
  x.1 + x.2.1 + x.2.2.1 + x.2.2.2 == 80 && decide (1 ≤ x.1) && decide (5 ≤ x.2.1) && decide (5 ≤ x.2.2.1) && decide (5 ≤ x.2.2.2)

/-- Are the shares of a line port legal (Table 11-6)? -/
def lineSharesOk (w : Nat) : Bool :=
  let x := sharesOf w
  let opt (v : Nat) : Bool := v == 0 || decide (9 ≤ v)
  x.1 + x.2.1 + x.2.2.1 + x.2.2.2 == 32 && decide (2 ≤ x.1) && opt x.2.1 && decide (9 ≤ x.2.2.1) && opt x.2.2.2

/-- F_max of R242: the largest sum of floors in force, with the waiting TUNNEL commands, and after each armed plan. -/
def Hub.floorMax (h : Hub) : Nat :=
  let sum (s : Hub) : Nat := (s.liveIds.map s.floorsOf).sum
  let v := h.viewCmds
  ((h.armedOrder h.armed).foldl (fun (p : Hub × Nat) x =>
    let s := p.1.viewPlan x.2 (p.1.slot x.2).recs
    (s, max p.2 (sum s))) (v, max (sum h) (sum v))).2

/-- What the EXTBUF image asks for: none where R242 refuses it, otherwise the hub with the cells taken or given back. -/
def Hub.askExt (h : Hub) (n : Nat) (on : Bool) : Option Hub :=
  let c := n + 1
  let l := h.link c
  let inForce := h.flag (R.linkExtbuf n)
  match on, inForce, l.extPend with
  | true, false, none =>
    if 5120 ≤ h.get R.bufSfree ∧ h.floorMax * 2 ≤ h.get R.bufQpool - 5120 then
      some (((h.set R.bufQpool (h.get R.bufQpool - 5120)).modLink c (fun l => { l with extPend := some true })).settleFree)
    else none
  | true, true, some _ => some (h.modLink c (fun l => { l with extPend := none }))
  | false, false, some _ =>
    some (((h.set R.bufQpool (h.get R.bufQpool + 5120)).modLink c (fun l => { l with extPend := none })).settleFree)
  | false, true, none => some (h.modLink c (fun l => { l with extPend := some false }))
  | _, _, _ => some h

/-- Later settings for a field replace those that wait. -/
def mergeCfg (old new : List (Fld × Nat)) : List (Fld × Nat) :=
  old.filter (fun p => !new.any (fun q => q.1.key == p.1.key)) ++ new

/-- Fields that wait for the next training of a port. -/
def Hub.atTraining (h : Hub) (c : Nat) (l : List (Fld × Nat)) : Hub :=
  h.modPort c (fun p => { p with trnPend := mergeCfg p.trnPend l })

/-- Fields that wait for the next tick boundary. -/
def Hub.atBoundary (h : Hub) (l : List (Fld × Nat)) : Hub :=
  { h with tick := { h.tick with cfg := mergeCfg h.tick.cfg l } }

/-- The lane settings of a trunk that take effect at its next training (Table 5-8): the others do at the boundary. -/
def trainingFields (n : Nat) : List Fld :=
  [R.laneFomTgt n, R.laneFomMin n, R.laneMinw n, R.lanePresetStart n, R.laneMaxrate n]

/-- The images of a trunk: the status of a refusal, or the hub with them written. -/
def Hub.trunkImages (h : Hub) (n : Nat) (ws : List Nat) : Nat × Hub :=
  match ws with
  | [a, b, cr, ext, f, r] =>
    let lane := imagesAt rowsLane (aLane n) [a, b]
    let fo := imagesAt rowsFo (aFo n) [f, r]
    if !imagesLegal rowsLane (aLane n) [a, b] ∨ !imagesLegal rowsFo (aFo n) [f, r] ∨ !trunkSharesOk cr ∨ 1 < ext ∨
        (h.grade = .s ∧ bits b 15 14 = 2) then (stBadArg, h)
    else match h.askExt n (ext == 1) with
      | none => (stNoResource, h)
      | some h =>
        let trn := trainingFields n
        let isTrn (p : Fld × Nat) : Bool := trn.any (fun f => f.key == p.1.key)
        let h := h.atTraining (n + 1) (lane.filter isTrn)
        let h := h.atBoundary (lane.filter (fun p => !isTrn p) ++ fo)
        (stOk, h.modLink (n + 1) (fun l => { l with sharePend := some (sharesOf cr) }))
  | _ => (stBadArg, h)

/-- The images of a line port. EN takes effect at once; encryption is read at the next LINKUP (R361), and FOM thresholds
and node-bus settings are written at once. -/
def Hub.lineImages (h : Hub) (m n : Nat) (ws : List Nat) : Nat × Hub :=
  match ws with
  | [a, b, cr, nb, win] =>
    let cfg := imagesAt rowsLp (aLp n) [a]
    if !imagesLegal rowsLp (aLp n) [a, b] ∨ !imageLegal rowsLp (aLp n + 0x10) nb ∨ !lineSharesOk cr ∨ 65535 < win then
      (stBadArg, h)
    else if !h.isOwner m ∧ win ≠ h.get (R.nwinWmask n) then (stNotOwner, h)
    else
      let now (p : Fld × Nat) : Bool := p.1.key == (R.lpEn n).key || p.1.key == (R.lpEncEn n).key
      let en := bit a 31
      let h := h.setAll (cfg.filter now ++ imagesAt rowsLp (aLp n + 4) [b] ++ imagesAt rowsLp (aLp n + 0x10) [nb])
      let h := h.atTraining (n + 5) (cfg.filter (fun p => !now p))
      let h := h.modLink (n + 5) (fun l => { l with sharePend := some (sharesOf cr) })
      let b := h.bridge
      let b : Bridge := { b with nwinPend := b.nwinPend.filter (fun p => p.1 != n) ++ [(n, win)] }
      let h := { h with bridge := b }
      (stOk, if en then h.lineTryTrain n else h.lineDown n)
  | _ => (stBadArg, h)

/-- The image of E2: BRG_CFG, for the next boundary. The other engine ports have none. -/
def Hub.engineImages (h : Hub) (code : Nat) (ws : List Nat) : Nat × Hub :=
  if code ≠ codeE2 then (if ws.isEmpty then stOk else stBadArg, h)
  else match ws with
    | [w] =>
      if !imageLegal rowsBrg 0x5000100 w then (stBadArg, h)
      else
        let b := h.bridge
        let b : Bridge := { b with cfgPend := some (bits w 31 22, bits w 21 12, bits w 11 4) }
        (stOk, { h with bridge := b })
    | _ => (stBadArg, h)

/-- The images of a port of any kind. -/
def Hub.portImages (h : Hub) (m code : Nat) (ws : List Nat) : Nat × Hub :=
  if isTrunk code then h.trunkImages (code - 1) ws
  else if isLine code then h.lineImages m (code - 5) ws
  else h.engineImages code ws

/-- The answer of PORT.TRAIN: the link state. -/
def Hub.portOk (h : Hub) (code : Nat) : Ans × Hub := h.ok [h.linkStateOf code]

/-- PORT.TRAIN, CONFIG. -/
def Hub.portConfigure (h : Hub) (m code : Nat) (ws : List Nat) : Ans × Hub :=
  match h.portRefusal m code with
  | some e => h.refuse e
  | none =>
    let (st, h') := h.portImages m code ws
    if st = stOk then h'.portOk code else h.refuse st

/-- May PORT.TRAIN start training: the port is in DOWN or FAILED, no sticky source holds it there (R545), and no frame of a
failed trunk's replay is left (R329)? -/
def Hub.mayTrain (h : Hub) (code : Nat) : Bool :=
  if isTrunk code then
    let n := code - 1
    let st := h.get (R.linkState n)
    (st == 0 || st == 5) && !h.trunkHeld n && h.replayEmpty n
  else
    let n := code - 5
    let st := h.lineState n
    (st == lDown || st == lFailed) && !h.lineHeld n

/-- Training ordered by PORT.TRAIN: a line port also needs its attach condition and EN (R349). -/
def Hub.orderTraining (h : Hub) (code : Nat) : Hub :=
  if isTrunk code then
    ((h.modPort code (fun p => { p with enabled := true })).modFailover code (fun f => { f with waitOver := false })).startTraining code
  else
    let n := code - 5
    if (h.line n).cond && h.flag (R.lpEn n) && (h.lineState n == lDown || h.lineState n == lFailed) then h.lineTrain n else h

/-- PORT.TRAIN, TRAIN. -/
def Hub.portTrain (h : Hub) (m code : Nat) (ws : List Nat) : Ans × Hub :=
  match h.portRefusal m code with
  | some e => h.refuse e
  | none =>
    if isEngine code then h.refuse stBadArg
    else if !h.mayTrain code then h.refuse stBusy
    else
      let (st, h') := h.portImages m code ws
      if st = stOk then (h'.orderTraining code).portOk code else h.refuse st

/-- PORT.TRAIN, DISABLE. -/
def Hub.portDisableLink (h : Hub) (m code : Nat) : Ans × Hub :=
  match h.portRefusal m code with
  | some e => h.refuse e
  | none =>
    if isEngine code then h.refuse stBadArg
    else if isTrunk code then
      ((h.trunkDown (code - 1)).modPort code (fun p => { p with enabled := false })).portOk code
    else ((h.set (R.lpEn (code - 5)) 0).lineDown (code - 5)).portOk code

/-- PORT.TRAIN, RETURN (R337, R625). -/
def Hub.portReturn (h : Hub) (m code : Nat) : Ans × Hub :=
  match h.portRefusal m code with
  | some e => h.refuse e
  | none =>
    if !isTrunk code then h.refuse stBadArg
    else if h.get (R.linkState (code - 1)) ≠ 4 then h.refuse stBusy
    else if h.get (R.foState (code - 1)) = 1 then (h.modFailover code (fun f => { f with retAsked := true })).portOk code
    else h.portOk code

/-! PORT.STATE. -/

/-- The register blocks that PORT.STATE of a port returns and CLR clears: rows, address and number of words. -/
def stateBlocks (code first cnt : Nat) : List (List RegRow × Nat × Nat) :=
  if code = 0 then
    [(rowsFpStat, 0x2601400, 2), (rowsRoute, 0x2600000 + first * 0x10, 4 * cnt), (rowsTin, 0x2601000, 32),
     (rowsTout, 0x2601080, 32)]
  else if isTrunk code then
    let n := code - 1
    [(rowsLink, aLink n, 10), (rowsLane, aLane n, 3), (rowsLn, aLane n + 0x20, 20), (rowsFo, aFo n, 5),
     (rowsFp, aFp code, 5), (rowsAtt, aAtt code, 4), (rowsSch, aSch code, 12)]
  else if isLine code then
    let n := code - 5
    [(rowsLp, aLp n, 8), (rowsLln, aLp n + 0x40, 8), (rowsLp, aLp n + 0x60, 6), (rowsLp, aLp n + 0x80, 5),
     (rowsLp, aLp n + 0x94, 3), (rowsFp, aFp code, 5), (rowsAtt, aAtt code, 4), (rowsSch, aSch code, 12), (rowsNwin, 0x5000200 + 4 * n, 1)]
  else if code = codeE2 then
    [(rowsAtt, aAtt code, 4), (rowsSch, aSch code, 12), (rowsBrg, 0x5000100, 1), (rowsBrg, 0x5000140, 5), (rowsBrg, 0x5000164, 1)]
  else [(rowsAtt, aAtt code, 4), (rowsSch, aSch code, 12)]

/-- The words of some blocks, live ones as they stand now. -/
def Hub.blockWords (h : Hub) (l : List (List RegRow × Nat × Nat)) : List Nat :=
  l.flatMap (fun b => (List.range b.2.2).map (fun k => (h.schedWord (b.2.1 + 4 * k)).getD (h.wordAt b.1 (b.2.1 + 4 * k))))

/-- The words that PORT.STATE returns (Table 21-11): some of them stand outside the register fields. -/
def Hub.stateWords (h : Hub) (code first cnt : Nat) : List Nat :=
  let l := stateBlocks code first cnt
  if isTrunk code then h.blockWords (l.take 3) ++ [(h.port code).replMism] ++ h.blockWords (l.drop 3)
  else if code = codeE2 then
    h.blockWords (l.take 3) ++ [0, 1, 2, 3, 4].map h.slotUse ++ h.blockWords ((l.drop 3).take 1) ++
      [h.bridge.mirror.length] ++ h.blockWords (l.drop 4) ++ [0, 1, 2, 3, 4].map h.mirrorUse
  else h.blockWords l

/-- Clear the RC fields of `n` words from `addr` on (R7, R613). -/
def Hub.clearWords (h : Hub) (rows : List RegRow) (addr n : Nat) : Hub :=
  h.each (List.range n) (fun h k =>
    h.each (fieldsAt rows (addr + 4 * k)) (fun h x => if x.1.acc = .rc then h.toReset x.2 else h))

/-- Clear the RC fields of what PORT.STATE returns. -/
def Hub.clearState (h : Hub) (code first cnt : Nat) : Hub :=
  let h := h.each (stateBlocks code first cnt) (fun h b => h.clearWords b.1 b.2.1 b.2.2)
  if isTrunk code then h.modPort code (fun p => { p with replMism := 0 }) else h

/-- May master `m` read the state of a port, and with `clr` clear it? -/
def Hub.stateRefusal (h : Hub) (m code : Nat) (clr : Bool) : Option Nat :=
  if codeE3 < code then some stBadArg
  else if isLink code then (if h.holds m (tgtPort code) (if clr then 3 else 1) then none else some stDenied)
  else if clr && !h.isOwner m then some stNotOwner else none

/-- PORT.STATE. -/
def Hub.portState (h : Hub) (m code : Nat) (clr : Bool) (first cnt : Nat) : Ans × Hub :=
  match h.stateRefusal m code clr with
  | some e => h.refuse e
  | none =>
    if code = 0 ∧ (40 < cnt ∨ 256 < first + cnt) then h.refuse stBadArg
    else
      let ws := h.stateWords code first cnt
      (h.when clr (fun h => h.clearState code first cnt)).ok ws

/-! PORT.SPARE (R198, R626). -/

/-- Why PORT.SPARE is refused, if it is, before its action is looked at. -/
def Hub.spareRefusal (h : Hub) (m code lane : Nat) : Option Nat :=
  if !isTrunk code then some stBadArg
  else if !h.holds m (tgtPort code) 3 then some stDenied
  else if 4 < lane then some stBadArg
  else if h.get (R.linkState (code - 1)) ≠ 4 then some stBusy
  else none

/-- Is a lane retired? -/
def Hub.laneRetired (h : Hub) (c l : Nat) : Bool := bit (h.get (fRetired c)) l

/-- PORT.SPARE, RESTORE: the lane alone is trained; the command waits. -/
def Hub.spareRestore (h : Hub) (m code lane : Nat) : Ans × Hub :=
  match h.spareRefusal m code lane with
  | some e => h.refuse e
  | none =>
    if !h.laneRetired code lane then h.refuse stBadArg
    else if (h.port code).restore.isSome then h.refuse stBusy
    else
      let h := (h.modPort code (fun p => { p with restore := some lane, restored := false })).set (fLstate code lane) 1
      let h := h.modLane code lane (fun x => { x with crossed := false })
      ({ parked := true }, h.laneEq code lane)

/-- Would retiring a lane leave fewer positions than MINW (R191)? -/
def Hub.retireBreaks (h : Hub) (c l : Nat) : Bool :=
  let st := h.laneRole c l
  (st == 4 || (st == 2 && h.laneRole c 4 != 3)) && decide (h.get (fNlane c) - 1 < h.minw c)

/-- PORT.SPARE, RETIRE. -/
def Hub.spareRetire (h : Hub) (m code lane : Nat) : Ans × Hub :=
  match h.spareRefusal m code lane with
  | some e => h.refuse e
  | none =>
    if h.laneRetired code lane then h.ok []
    else if h.retireBreaks code lane then h.refuse stNoResource
    else (h.trunkLaneFault code lane).ok []

/-- A restore has ended: its lane is back, or it stays retired and the command completes with NO_RESOURCE. -/
def Hub.spareDone (h : Hub) (code lane : Nat) : Ans × Hub :=
  if h.laneRetired code lane then (h.restoreFailed code lane).refuse stNoResource else h.ok []

/-! PORT.ROUTE (R219). -/

/-- One entry of 20 bytes as the change that it asks for, where its form is right. -/
def routeChange (e : List Nat) : Option RouteChange :=
  match e with
  | [e0, a, b, c, d] =>
    if bits e0 29 8 ≠ 0 then none
    else
      let i := bits e0 7 0
      match bits e0 31 30 with
      | 0 => if d = 0 then some (.entry i a b c) else none
      | 1 => if b = 0 ∧ c = 0 ∧ d = 0 then some (.tin i a) else none
      | 2 => if b = 0 ∧ c = 0 ∧ d = 0 then some (.tout i a) else none
      | _ => none
  | _ => none

/-- The legal changes of a list of entries, or the index of the first that is not legal. -/
def routeChanges : List (List Nat) → Nat → List RouteChange ⊕ Nat
  | [], _ => .inl []
  | e :: l, i =>
    match routeChange e with
    | none => .inr i
    | some r =>
      if !r.legal then .inr i
      else match routeChanges l (i + 1) with
        | .inl rs => .inl (r :: rs)
        | .inr j => .inr j

/-- PORT.ROUTE. -/
def Hub.portRoute (h : Hub) (m : Nat) (l : List (List Nat)) : Ans × Hub :=
  if !h.isOwner m then h.refuse stNotOwner
  else if l.isEmpty then h.refuse stZeroLen
  else if 50 < l.length then h.refuse stBadArg
  else match routeChanges l 0 with
    | .inr i => h.refuseAt stBadArg i
    | .inl rs => ({ h with flash := { h.flash with staged := h.flash.staged ++ rs } }).ok (twoWords h.nextBoundary)

end Sys2Proof.Machine
end

