-- ==== Sys2Proof/Machine/DirectOps.lean ====
section
/-!
DEFINITION. Direct accesses of masters to registers (R41 to R45, R66, R669), doorbells (R605), the SMBus management port
(R621), and accesses of the test port (R660).
-/

namespace Sys2Proof.Machine

open Sys2Proof

/-! Reading a register word. -/

/-- The 64-bit values that Table 2-5 shows as LO and HI words: tick number, forge time, latest boundary. -/
def Hub.tickValue (h : Hub) (k : Nat) : Nat :=
  match k with
  | 0 => h.tickNum
  | 1 => h.now
  | _ => h.tick.last

/-- A read of a LO word latches its HI word; the next read of that HI word by the same master takes the latched value
(R66). `k` is the pair, `v` its value, `hi` the word. -/
def Hub.readPair (h : Hub) (m k v : Nat) (hi : Bool) : Nat × Hub :=
  let put (x : Option Nat) : Hub := { h with tick := { h.tick with latch := tabSet h.tick.latch (k2 m k) x none } }
  if hi then ((tabGet h.tick.latch (k2 m k) none).getD (v / 2 ^ 32 % 2 ^ 32), put none)
  else (v % 2 ^ 32, put (some (v / 2 ^ 32 % 2 ^ 32)))

/-- Registers that follow other state: queues and schedulers, counts of tunnels by state, bucket tokens, hold and mirror
use, log entries, fused versions, the chip summary. -/
def Hub.derivedWord (h : Hub) (a : Nat) : Option Nat :=
  if (h.schedWord a).isSome then h.schedWord a
  else if a = 0x7000040 then some h.summary
  else if a = 0x2100000 then
    let n (f : Nat → Bool) : Nat := (h.liveIds.filter f).length
    some (n (fun t => h.tunIs t tOpen || h.tunIs t tDraining) * 2 ^ 16 + n (fun t => h.tunIs t tQuar))
  else if 0x2310000 ≤ a ∧ a < 0x2320000 then
    let t := (a - 0x2310000) / 16
    let q (d : Nat) : Queue := (h.refillPol t d).queue t d
    some (match a % 16 / 4 with | 0 => (q 0).tc / 256 | 1 => (q 0).tp / 256 | 2 => (q 1).tc / 256 | _ => (q 1).tp / 256)
  else if 0x5000110 ≤ a ∧ a < 0x5000124 then some (h.slotUse ((a - 0x5000110) / 4))
  else if a = 0x5000160 then some h.bridge.mirror.length
  else if 0x5000170 ≤ a ∧ a < 0x5000184 then some (h.mirrorUse ((a - 0x5000170) / 4))
  else if 0x5010000 ≤ a ∧ a < 0x5014400 then
    some ((h.blogEntry ((a - 0x5010000) / 0x400) (a % 0x400 / 0x20)).getD (a % 0x20 / 4) 0)
  else if a = 0x6000108 then some (([1, 2, 3, 4, 5].map (fun d => h.fusedVer d * 2 ^ (4 * d))).sum)
  else if 0x7002000 ≤ a ∧ a < 0x7003000 then
    some (match tabFind h.col.log (k1 ((a - 0x7002000) / 16)) with
      | some e => (e.words 0).getD (a % 16 / 4) 0
      | none => 0)
  else none

/-- The field rows among which a word is looked up: mailboxes, the queue counters and the flip registers have their own. -/
def rowsFor (a : Nat) : List RegRow :=
  if 0x7010000 ≤ a ∧ a < 0x7018000 then rowsMbx
  else if 0x2400000 ≤ a ∧ a < 0x2440000 then rowsQc
  else if 0x3001000 ≤ a ∧ a < 0x3001800 then rowsFlip ++ rowsFlipP
  else if a % 2 ^ 24 = 0 then rowsFc
  else regRows

/-- One register word read by master `m`; RC fields are cleared in the same access (R7), reserved fields read 0 (R8). -/
def Hub.readWord (h : Hub) (m a : Nat) : Nat × Hub :=
  if 0x7010000 ≤ a ∧ a < 0x7018000 ∧ a % 0x1000 < 0x800 then
    let k := (a - 0x7010000) / 0x1000
    let i := a % 0x400 / 4
    (h.get (if a % 0x1000 < 0x400 then R.mbxCmdWord k i else R.mbxRspWord k i), h)
  else if 0x7000108 ≤ a ∧ a < 0x7000120 then
    let k := (a - 0x7000108) / 8
    h.readPair m k (h.tickValue k) (decide (a % 8 = 4))
  else if 0x2700000 ≤ a ∧ a < 0x2700600 ∧ (a % 64 = 28 ∨ a % 64 = 32) then
    let e := (a - 0x2700000) / 64 + 1
    h.readPair m (2 + e) ((h.egress e).v / 2 ^ 16) (decide (a % 64 = 32))
  else match h.derivedWord a with
    | some v => (v, h)
    | none =>
      let h := if 0x3100000 ≤ a ∧ a < 0x3100800 then h.settleLines ((a - 0x3100000) / 0x100) else h
      let rows := rowsFor a
      let seen (r : RegRow) : Bool := match r.acc with | .wo => false | _ => true
      (h.wordAt (rows.filter seen) a, h.clearWords rows a 1)

/-- Words read in ascending order. -/
def Hub.readList (h : Hub) (m : Nat) : List Nat → List Nat × Hub
  | [] => ([], h)
  | a :: l =>
    let (v, h) := h.readWord m a
    let (vs, h) := h.readList m l
    (v :: vs, h)

/-! Writing a register word. -/

/-- Is mailbox `m` locked: its command is accepted and not DONE (R606)? -/
def Hub.mbLocked (h : Hub) (m : Nat) : Bool := h.mbState m != mbIdle && h.mbState m != mbDone

/-- A doorbell write (R605). -/
def Hub.doorbell (h : Hub) (m seq : Nat) : Hub :=
  if !h.mbLocked m && seq != h.get (R.mbxSeq m) then
    let h := (h.setAll [(R.mbxSeq m, seq), (R.mbxState m, mbQueued)]).obsEvent 7 7
    { h with ctl := { h.ctl with order := h.ctl.order ++ [m] } }
  else h.inc (R.mbxDbIgnored m)

/-- Is an encoding of a field reserved on this part though the other grade has it: MAXRATE 2 on an HB5120-S (Table 5-9)? -/
def Hub.gradeReserved (h : Hub) (f : Fld) (v : Nat) : Bool :=
  h.grade == .s && f.key.id == (R.laneMaxrate 0).key.id && v == 2

/-- A chip fabric region weight is written: 0 is reserved, and the weight keeps its value (R17, R18, R9). The manual gives
the weights no address, so no access of a master reaches them (assumption 205). -/
def Hub.writeFabWeight (h : Hub) (r v : Nat) : Hub := if v % 16 = 0 then h else h.set (R.fabWeight r) v

/-- A word written to a field row: RW fields take legal values and keep theirs where the encoding is reserved (R9), W1C
bits clear, others stay (R7). -/
def Hub.writeField (h : Hub) (x : RegRow × Fld) (w : Nat) : Hub :=
  let v := bits w (x.1.lo + x.2.width - 1) x.1.lo
  match x.1.acc with
  | .rw => if x.1.legal v && !h.gradeReserved x.2 v then h.set x.2 v else h
  | .w1c => h.set x.2 (h.get x.2 - (h.get x.2 &&& v))
  | _ => h

/-- A write in the flip window of head `n` (R408). -/
def Hub.writeFlip (h : Hub) (n o w : Nat) : Hub :=
  if o = 0x18 then h.flipArm n (bits w 15 0) (bit w 31)
  else if o < 0x18 then
    let p := o / 8
    if o % 8 = 0 then h.flipWrite (R.flipPLo n p) n (bits w 31 8) else h.flipWrite (R.flipPHi n p) n (bits w 7 0)
  else h

/-- One register word written by master `m`. -/
def Hub.writeWord (h : Hub) (m a w : Nat) : Hub :=
  if a % 2 ^ 24 = 0 ∧ a / 2 ^ 24 < 8 then h.each (maskSources (a / 2 ^ 24) w) (fun h i => h.clearSource i)
  else if 0x7010000 ≤ a ∧ a < 0x7018000 then
    let k := (a - 0x7010000) / 0x1000
    let o := a % 0x1000
    if o < 0x400 then h.set (R.mbxCmdWord k (o / 4)) w
    else if o = 0x800 then h.doorbell k (w % 65536)
    else h
  else if 0x3001000 ≤ a ∧ a < 0x3001800 then h.writeFlip ((a - 0x3001000) / 0x100) (a % 0x100) w
  else if 0x3002000 ≤ a ∧ a < 0x3002400 then
    if a % 16 ≠ 0 then h
    else if bit w 1 then h.dmaDoorbell m ((a - 0x3002000) / 16) true
    else if bit w 0 then h.dmaDoorbell m ((a - 0x3002000) / 16) false
    else h
  else h.each (fieldsAt (rowsFor a) a) (fun h x => h.writeField x w)

/-- Words written in ascending order. -/
def Hub.writeList (h : Hub) (m : Nat) : List Nat → List Nat → Hub
  | a :: l, w :: ws => (h.writeWord m a w).writeList m l ws
  | _, _ => h

/-! The direct-access windows (Table 1-13). -/

/-- A direct-access window. -/
inductive Win where
  | status (r : Nat)
  | summary
  | mailbox (m : Nat)
  | counters
  | flip (hd : Nat)
  | doorbell (c : Nat)
deriving DecidableEq, Repr

/-- The window in which the word at an address lies. The flip registers of each head, and the DMA doorbell of each channel,
are a window of their own (DESIGN CHOICE, assumption 20: one row of Table 1-13 names all of them), so that an access over
two of them is refused. -/
def winOf (a : Nat) : Option Win :=
  if a % 2 ^ 24 < 4 ∧ a / 2 ^ 24 < 8 then some (.status (a / 2 ^ 24))
  else if 0x7000040 ≤ a ∧ a < 0x7000044 then some .summary
  else if 0x7010000 ≤ a ∧ a < 0x7018000 then some (.mailbox ((a - 0x7010000) / 0x1000))
  else if 0x2400000 ≤ a ∧ a < 0x2440000 then some .counters
  else if 0x3001000 ≤ a ∧ a < 0x3001800 then some (.flip ((a - 0x3001000) / 0x100))
  else if 0x3002000 ≤ a ∧ a < 0x3002400 then some (.doorbell ((a - 0x3002000) / 16))
  else none

/-- May master `m` access the word at `a` (R43, R606)? -/
def Hub.wordAllowed (h : Hub) (m : Nat) (wr : Bool) (a : Nat) : Bool :=
  let lvl := if wr then 2 else 1
  match winOf a with
  | none => false
  | some (.status _) => h.holds m tgtFault lvl
  | some .summary => !wr && h.holds m tgtFault 1
  | some (.mailbox k) => k == m && decide (k < 7) && !(wr && decide (a % 0x1000 < 0x400) && h.mbLocked k)
  | some .counters => !wr && h.holds m (tgtTunnel ((a - 0x2400000) / 64)) 1
  | some (.flip n) => h.holds m (tgtHead n) lvl
  | some (.doorbell c) => h.holds m (tgtDma (c / 16)) lvl

/-- The words that a direct access of `n` bytes reaches, where it keeps R42: the HB2560 status window is translated word by
word (R669). -/
def accessWords (a n : Nat) : Option (List Nat) :=
  let l := (List.range (n / 4)).map (fun k => a + 4 * k)
  if a % 4 ≠ 0 ∨ n % 4 ≠ 0 ∨ n < 4 ∨ 256 < n ∨ 2 ^ 40 ≤ a then none
  else if 0x7000080 ≤ a ∧ a + n ≤ 0x70000A4 then
    some (l.map (fun x => if x = 0x70000A0 then 0x7000040 else (x - 0x7000080) / 4 * 2 ^ 24))
  else if (winOf a).isSome ∧ winOf a = winOf (a + n - 4) then some l
  else none

/-- The words of a direct access that is not refused. -/
def Hub.allowedWords (h : Hub) (m : Nat) (wr : Bool) (a n : Nat) : Option (List Nat) :=
  match accessWords a n with
  | some l => if l.all (fun x => h.wordAllowed m wr x) then some l else none
  | none => none

/-- A refused access is counted for its master (R43). -/
def Hub.countRefused (h : Hub) (m : Nat) : Hub :=
  if m % 2 = 1 then h.inc (R.refuseOdd (m / 2)) else h.inc (R.refuseEven (m / 2))

/-- How a request is to be answered (R143): its TAG, or for a posted write its SEQ. -/
structure Req where
  tag : Nat
  posted : Bool
deriving DecidableEq, Repr

/-- What a fence knows a request of a control tunnel by (R152). -/
def Req.fenceKey (r : Req) : Nat := if r.posted then 262144 + r.tag else r.tag

/-- The answer of a direct access: a frame on the control tunnel of a host, the management functions of USB for masters 4
and 5, the SMBus for master 6. A posted write is not answered, and is complete for a fence. -/
def Hub.answerAccess (h : Hub) (m : Nat) (r : Req) (op status : Nat) (data : List Byte) : Hub :=
  if r.posted then h.fenceDone (m + 1) r.fenceKey
  else
    let f : Frame := { h.sysFrame (m + 1) op data with status := status, tag := r.tag }
    if m < 4 then h.e3Send f (h.routeTo m)
    else if m = 4 then
      let (f, h) := h.stamp 5 1 f
      h.emit (.frame 0 f)
    else if m = 5 then h.emit (.frame 0 { f with tid := 0, gen := 0, cls := 0 })
    else h.emit (.words "DIRECT" m (op :: status :: bytesWords data))

/-- A direct read. A read of no bytes is answered without an access (R147). -/
def Hub.directRead (h : Hub) (m : Nat) (r : Req) (a n : Nat) : Hub :=
  if n = 0 then h.answerAccess m r 3 0 []
  else match h.allowedWords m false a n with
    | none => (h.countRefused m).answerAccess m r 3 1 []
    | some l =>
      let (ws, h) := h.readList m l
      h.answerAccess m r 3 0 (wordBytes ws)

/-- Is a doorbell among the words written, and will it be accepted? Then a fence waits for the command (R152). -/
def Hub.ringsBell (h : Hub) (m : Nat) (l ws : List Nat) : Bool :=
  (l.zip ws).any (fun p => p.1 == 0x7010800 + m * 0x1000 && !h.mbLocked m && p.2 % 65536 != h.get (R.mbxSeq m))

/-- A fence that covers the doorbell write also covers its command. -/
def Hub.fenceBell (h : Hub) (m : Nat) (r : Req) : Hub :=
  h.each [1, 2, 3, 4] (fun h c =>
    let x := h.fenceOf c
    h.setFence c { x with open_ := x.open_.flatMap (fun p => if p = (m + 1, r.fenceKey) then [p, (m + 1, bellKey m)] else [p]) })

/-- A direct write: the whole access is refused, or every word takes effect in ascending order (R43, R408). -/
def Hub.directWrite (h : Hub) (m : Nat) (r : Req) (a : Nat) (data : List Byte) : Hub :=
  if data.isEmpty then h.answerAccess m r 4 0 []
  else match h.allowedWords m true a data.length with
    | none => (h.countRefused m).answerAccess m r 4 1 []
    | some l =>
      let ws := bytesWords data
      let h := if h.ringsBell m l ws then h.fenceBell m r else h
      (h.writeList m l ws).answerAccess m r 4 0 []

/-- A direct write of one word. -/
def Hub.directWord (h : Hub) (m : Nat) (r : Req) (a w : Nat) : Hub := h.directWrite m r a (leBytes 4 w)

/-! The SMBus management port (R621, Table 21-6). It answers while the chip is powered; in banked and ember the
transaction waits for the return (R588). -/

/-- Does the port take part in transactions now? -/
def Hub.smbusUp (h : Hub) : Bool := h.domainsOn

/-- A byte of the transaction is not acknowledged. -/
def Hub.smbNack (h : Hub) : Hub := h.emit (.words "SMBUS_NACK" 0 [])

/-- A write whose PEC is wrong is discarded and counted. -/
def Hub.smbDiscard (h : Hub) : Hub := h.countRefused 6

/-- Write Word 0x20: the pointer. -/
def Hub.smbPointer (h : Hub) (v : Nat) (pecOk : Bool) : Hub :=
  if !h.smbusUp then h
  else if v % 4 ≠ 0 ∨ 0x818 < v then h.smbNack
  else if !pecOk then h.smbDiscard
  else { h with ctl := { h.ctl with smbPtr := v } }

/-- Block Write 0x21: a direct access of master 6 at the pointer, which advances. -/
def Hub.smbWrite (h : Hub) (data : List Byte) (pecOk : Bool) : Hub :=
  let p := h.ctl.smbPtr
  let n := data.length
  if !h.smbusUp then h
  else if n < 4 ∨ 32 < n ∨ n % 4 ≠ 0 ∨ 0x81C < p + n then h.smbNack
  else if !pecOk then h.smbDiscard
  else
    let h := match h.allowedWords 6 true (0x7016000 + p) n with
      | none => h.countRefused 6
      | some l => h.writeList 6 l (bytesWords data)
    { h with ctl := { h.ctl with smbPtr := p + n } }

/-- Words read at a pointer; beyond 0x81B they read 0. -/
def Hub.smbWords (h : Hub) (p : Nat) : List Nat → List Nat × Hub
  | [] => ([], h)
  | k :: l =>
    let (v, h) := if p + 4 * k ≤ 0x818 then h.readWord 6 (0x7016000 + p + 4 * k) else (0, h)
    let (vs, h) := h.smbWords p l
    (v :: vs, h)

/-- Block Read 0x22: 32 bytes from the pointer, which advances. -/
def Hub.smbRead (h : Hub) : Hub :=
  if !h.smbusUp then h
  else
    let p := h.ctl.smbPtr
    let (ws, h) := h.smbWords p (List.range 8)
    ({ h with ctl := { h.ctl with smbPtr := p + 32 } }).emit (.words "SMBUS_READ" 32 ws)

/-- Block Read 0x23: CTL_FC_SUMMARY. -/
def Hub.smbSummary (h : Hub) : Hub := if h.smbusUp then h.emit (.words "SMBUS_READ" 4 [h.summary]) else h

/-! The test port (R657 to R660). -/

/-- Change the test port. -/
def Hub.modJtag (h : Hub) (f : JtagX → JtagX) : Hub := { h with ctl := { h.ctl with jtag := f h.ctl.jtag } }

/-- An instruction is loaded: whatever held the hub in warm reset no longer does (R658). -/
def Hub.jtagLoad (h : Hub) (ir : Nat) : Hub := h.modJtag (fun j => { j with ir := ir, held := false })

/-- A pin instruction is loaded: it takes effect only while RESET_N is low, and acts as BYPASS otherwise (R658). -/
def Hub.jtagPins (h : Hub) (ir : Nat) (name : String) (cells : List Nat) : Hub :=
  if h.ctl.resetLow then (h.modJtag (fun j => { j with ir := ir, cells := cells, held := false })).emit (.words name 0 cells)
  else h.jtagLoad 0xFF

/-- Does the instruction register hold a pin instruction? -/
def Hub.jtagDrives (h : Hub) : Bool := decide (3 ≤ h.ctl.jtag.ir) && decide (h.ctl.jtag.ir ≤ 6)

/-- RESET_N rises: under a pin instruction the hub stays held in warm reset (R658). -/
def Hub.resetRises (h : Hub) : Hub :=
  let held := h.ctl.resetLow && h.jtagDrives
  (h.resetRelease).modJtag (fun j => { j with held := held })

/-- What the test port shows of a MEMACC: refused, or the data. -/
def Hub.memaccResult (h : Hub) (refused : Bool) (v : Nat) : Hub :=
  (h.modJtag (fun j => { j with ir := 0x11, held := false, refused := refused, capture := v })).emit
    (.words "MEMACC" (b2n refused) [v])

/-- May master 14 access the register word at `a`: within a direct window its gate decides, the rest of the register
space is open to it (R41, R660)? -/
def Hub.testAllowed (h : Hub) (wr : Bool) (a : Nat) : Bool :=
  match winOf a with
  | none => true
  | some (.mailbox _) => true
  | some (.counters) => h.holds 14 (tgtTunnel ((a - 0x2400000) / 64)) (if wr then 2 else 1)
  | some .summary => h.holds 14 tgtFault (if wr then 2 else 1)
  | some _ => h.wordAllowed 14 wr a

/-- MEMACC: a single access of 32 bits with master ID 14, while debug is enabled. -/
def State.memacc (s : State) (wr : Bool) (a w : Nat) : State :=
  let h := s.hub
  if !h.flag R.secDebug ∨ a % 4 ≠ 0 then { s with hub := h.memaccResult true 0 }
  else if a < 2 ^ 27 then
    if !h.testAllowed wr a then { s with hub := h.memaccResult true 0 }
    else if wr then { s with hub := (h.writeWord 14 a w).memaccResult false 0 }
    else
      let (v, h) := h.readWord 14 a
      { s with hub := h.memaccResult false v }
  else if a < lp5Base ∨ 2 * lp5Base ≤ a then { s with hub := h.memaccResult true 0 }
  else if h.lp5Verdict { client := clCore, master := 14, wr := wr, addr := a, len := 4 } ≠ 0 then
    { s with hub := (h.inc R.lp5Refused).memaccResult true 0 }
  else
    let s := s.lp5Now
    if wr then { s with mem := memWrite s.mem a (leBytes 4 w), hub := s.hub.memaccResult false 0 }
    else { s with hub := s.hub.memaccResult false (leWord (memRead s.mem a 4)) }

/-! TEST.OBS (R661 to R663, R629). -/

/-- Who may use TEST.OBS: the owner or master 14. -/
def Hub.obsRefusal (h : Hub) (m : Nat) : Option Nat := if h.isOwner m || m == 14 then none else some stNotOwner

/-- TEST.OBS, SET. -/
def Hub.obsSet (h : Hub) (m pin region signal : Nat) (en : Bool) : Ans × Hub :=
  match h.obsRefusal m with
  | some e => h.refuse e
  | none =>
    if 7 < pin ∨ !obsExists region signal then h.refuse stBadArg
    else if region = 6 ∧ !h.flag R.secDebug then h.refuse stDenied
    else (h.setAll [(R.obsEn pin, b2n en), (R.obsSignal pin, signal), (R.obsRegion pin, region)]).ok []

/-- TEST.OBS, QUERY. -/
def Hub.obsQuery (h : Hub) (m : Nat) : Ans × Hub :=
  match h.obsRefusal m with
  | some e => h.refuse e
  | none => h.ok (h.wordsAt rowsObs 0x7050000 8)

end Sys2Proof.Machine
end

