-- ==== Sys2Proof/Machine/HearthFam.lean ====
section
/-!
DEFINITION. Meanings: frames at their ingress (R92, R149, R157, R163, R252, R353), fences (R152), the hearth's buffer
(chapter 7), egress scheduling (chapter 8) and the closing of tunnels (R86).
-/

namespace Sys2Proof.Machine

open Sys2Proof

/-! Frame ingress. -/

/-- The receive epoch that a crypto word names, where R161 accepts it: the current one, the one before, and in the tick
before a switch the next one. -/
def Hub.epochOf (h : Hub) (c e : Nat) : Option Nat :=
  let cur := (h.link c).rxEpoch
  let near := h.rotating.any (fun p => p.1 == c && (h.tickNum + 1) % 2 ^ p.2 == 0)
  if e % 4 = cur % 4 then some cur
  else if 1 ≤ cur ∧ e % 4 = (cur + 3) % 4 then some (cur - 1)
  else if near ∧ e % 4 = (cur + 1) % 4 then some (cur + 1)
  else none

/-- One tag failure (R157): the fourth of a tick raises TAG_FAIL. -/
def Hub.tagFailed (h : Hub) (c : Nat) : Hub :=
  let n := (h.link c).tagFails + 1
  let h := (h.inc (fTagFail c)).modLink c (fun l => { l with tagFails := n })
  let h := if isTrunk c then h.obsEvent 6 (3 + (c - 1)) else h
  if n = 4 then (if isTrunk c then h.raise (srcTagFail (c - 1)) 0 else h.lineCause (c - 5) cTag) else h

/-- The frame that the blocks `l` of class `k` spell on an encrypted port, where R157 accepts it (R154, R155). One refused for
its epoch or counter counts in CTR_REJ (Table 4-17). -/
def Hub.decrypt (h : Hub) (c k : Nat) (l : List Nat) : Option Frame × Hub :=
  let b0 := l.getD 0 0
  let e := extOf c b0
  let n := bits b0 63 50
  let cw := l.getD (2 + e) 0
  let body := blockBytes ((l.drop (3 + e)).take (ceilDiv n 8))
  let tag := blockBytes (l.drop (3 + e + ceilDiv n 8))
  match h.epochOf c (bits cw 63 62) with
  | none => (none, h.inc (fCtrRej c))
  | some ep =>
    let kb := h.epochBytes c 1 ep
    let cipher := body.take n
    let fcnt := bits cw 31 0 + bits cw 47 32 * 2 ^ 32
    let fresh := decide (tabGet (h.link c).rxLast (k2 k ep) 0 ≤ fcnt)
    let tagOk := gcmTag (epochKey kb) (epochNonce kb cw) (blockBytes (l.take (3 + e))) cipher == tag
    let h := if fresh then h else h.inc (fCtrRej c)
    let h := if tagOk then h else h.tagFailed c
    if fresh && tagOk && (body.drop n).all (fun b => b == 0) then
      (some (frameOf c b0 (l.getD 1 0) (if e = 1 then l.getD 2 0 else 0) cw (gcmCrypt (epochKey kb) (epochNonce kb cw) cipher)),
       h.modLink c (fun l => { l with rxLast := tabPut l.rxLast (k2 k ep) (fcnt + 1) }))
    else (none, h)

/-- The frame that the blocks `l` spell in the clear; what of it has not arrived is zeros. -/
def plainFrame (c : Nat) (l : List Nat) : Frame :=
  let b0 := l.getD 0 0
  let e := extOf c b0
  frameOf c b0 (l.getD 1 0) (if e = 1 then l.getD 2 0 else 0) 0 (payloadOf (l.drop (2 + e)) (bits b0 63 50))

/-- A frame of a trunk that has passed the link crypto, in the cells `nos`: outside ATTACHED only attach messages count
(R163), and they keep their format as well (R146). -/
def Hub.trunkFrame (h : Hub) (c : Nat) (f : Frame) (nos : List Nat) : Hub :=
  if h.get (R.linkState (c - 1)) = 4 ∨ h.poolLeft c then h.ingressCells f c f.cells nos
  else if f.op == 8 && f.cls == 0 && decide (1 ≤ f.tid) && decide (f.tid ≤ 4) then
    (if formatOk f then h.emit (.frame codeE3 f) else h.formatError f c)
  else h.inc (fPreDrop c)

/-- A frame of a line port, `arrived` of its cells in the buffer: management packets go to the core, the node bus to the
bridge, tunnel frames to the hearth; before UP only management packets count (R351 to R353, R358). -/
def Hub.lineFrame (h : Hub) (c : Nat) (f : Frame) (arrived : Nat) (nos : List Nat) : Hub :=
  let up := h.lineState (c - 5) == lUp
  match f.nb with
  | some b =>
    if b.op = 7 then h.emit (.frame codeE3 f)
    else if up then
      h.judge (4096 + c) 1 { f := f, cells := f.cells, nos := nos, ingress := c, ccls := 2, written := f.cells }
    else h.inc (fPreDrop c)
  | none => if up && decide (16 ≤ f.tid) then h.ingressCells f c arrived nos else h.inc (fPreDrop c)

/-- A frame that the link layer of port `c` has reassembled is judged. -/
def Hub.frameJudged (h : Hub) (c k : Nat) (x : RxFrame) : Hub :=
  let (f, h) := if h.encrypted c then h.decrypt c k x.blocks else (some (plainFrame c x.blocks), h)
  match f with
  | none => h
  | some f => if isTrunk c then h.trunkFrame c f x.nos else h.lineFrame c f f.cells x.nos

/-- Is a frame of queue `k` arriving by cut-through? -/
def Hub.cutsInto (h : Hub) (k : Nat) : Bool := h.ctArriving.any (fun p => p.2 == k)

/-- The first cells of the frame that class `k` of line port `c` is receiving are handed over, where it may be cut through; what
is not admitted is discarded as it arrives (R248). -/
def Hub.partJudged (h : Hub) (c k : Nat) : Hub :=
  let x := h.rxc c k
  let f := plainFrame c x.part
  let q := qkey f.tid (b2n f.rev)
  let arrived := x.part.length / 32
  if x.part.length < 64 ∨ x.cut.isSome ∨ x.overrun ∨ ¬ isLine c ∨ h.encrypted c ∨ h.cutsInto q ∨ ¬ h.mayCut f c arrived then h
  else
    let h := h.lineFrame c f arrived x.nos
    if h.cutsInto q then h.setRxc c k { h.rxc c k with cut := some q, nos := [] }
    else h.setRxc c k { h.rxc c k with overrun := true, nos := [] }

/-- The oldest frame of class `k` of a link goes to the hearth: one that is whole, or the first cells of one that is not. -/
def Hub.linkIngress (h : Hub) (c k : Nat) : Hub :=
  let x := h.rxc c k
  match x.done.find? (fun f => f.cut.isNone) with
  | some f => (h.setRxc c k { x with done := x.done.erase f }).frameJudged c k f
  | none => if x.done.isEmpty then h.partJudged c k else h

/-- A frame of an engine goes to the hearth: whole, or its first cells where it may be cut through. -/
def Hub.engineIngress (h : Hub) (c : Nat) (f : Frame) (arrived : Nat) : Hub :=
  if f.cells ≤ arrived then h.ingress f c
  else if h.mayCut f c arrived && !h.cutsInto (qkey f.tid (b2n f.rev)) then h.ingressCells f c arrived []
  else h

/-- FRAME_INGRESS (R92): a frame is handed to the hearth at the port with code `c`: of a link, the oldest that it has
reassembled in credit class `k`; of an engine, `f`, of which `arrived` cells are written. -/
def execFrameIngress (c k : Nat) (f : Option Frame) (arrived : Nat) (s : State) : Host.Outcome State Fault Refusal :=
  .next (s.act (fun h => match f with
    | none => h.when (isLink c && decide (k < 4) && (h.linkFlows c || h.poolLeft c)) (fun h => h.linkIngress c k)
    | some f => h.when (isEngine c) (fun h => h.engineIngress c f arrived)))

/-! Fences. -/

/-- Are late-error records of a host still to be queued (R152)? -/
def Hub.lateWaits (h : Hub) (m : Nat) : Bool := h.tun.records.any (fun r => r.1 == m && r.2.getD 0 0 / 2 ^ 24 == 0x12)

/-- Has every frame that the fence held on trunk `c` covers completed (R152)? -/
def Hub.fenceOver (h : Hub) (c : Nat) (f : Frame) : Bool :=
  let l := (h.fenceOf c).open_
  let key := (f.tid, engineKeyOf f)
  (!l.contains key || (l.takeWhile (fun p => p != key)).isEmpty) && !h.lateWaits (f.tid - 1)

/-- The fence held on trunk `c` is executed, and the frames behind it in order, up to another fence. -/
def Hub.fenceRelease (h : Hub) (c : Nat) : Hub :=
  let x := h.fenceOf c
  match x.fence with
  | none => h
  | some f =>
    if !h.fenceOver c f then h
    else
      let h := h.setFence c { x with fence := none, waiting := [] }
      let h := if f.op = 5 then h.answerAccess (f.tid - 1) { tag := f.tag, posted := false } 6 0 []
        else h.emit (.frame codeE3 f)
      h.each x.waiting (fun h g => h.handOver codeE3 c g)

/-- FENCE_RELEASE (R152): trunk `c`. -/
def execFenceRelease (c : Nat) (s : State) : Host.Outcome State Fault Refusal :=
  .next (s.act (fun h => h.when (isTrunk c) (fun h => h.fenceRelease c)))

/-! The buffer. -/

/-- HELD_FRAME_REJUDGE (R245). -/
def execHeldFrameRejudge (s : State) : Host.Outcome State Fault Refusal := .next (s.act Hub.rejudgeAll)

/-- HOLD_TIMEOUT (R246): the oldest frame held at ingress `c` in credit class `k` exceeds HOLD_MAX. -/
def execHoldTimeout (c k : Nat) (s : State) : Host.Outcome State Fault Refusal := .next (s.act (fun h => h.holdDrop c k))

/-- CT_WAIT_TIMEOUT (R249, R250): the next cell of the frame that queue (`t`, `dir`) cuts through does not come. -/
def execCtWaitTimeout (t dir : Nat) (s : State) : Host.Outcome State Fault Refusal :=
  .next (s.act (fun h => h.when (decide (dir < 2) && h.cutsInto (qkey t dir)) (fun h => h.ctAbort (qkey t dir))))

/-- Another cell of the frame that queue `k` cuts through is in the buffer; where it came by a link, `p` is what of the payload
has arrived. -/
def Hub.cellWritten (h : Hub) (k : Nat) (p : Option (List Byte)) : Hub :=
  let fill (f : Frame) : Frame := { f with payload := p.getD f.payload }
  let h := h.modQueue (k / 2) (k % 2) (fun q => { q with frames := q.frames.map (fun x =>
    if x.ct && decide (x.written < x.cells) then { x with f := fill x.f, written := x.written + 1 } else x) })
  h.each (h.links.map (fun e => e.1.i)) (fun h e => h.modLink e (fun l => { l with wait := l.wait.map (fun x =>
    if x.ct && decide (x.written < x.cells) && x.key == k then { x with f := fill x.f, written := x.written + 1 } else x) }))

/-- Blocks of the frame that queue `k` cuts through from class `cc` of link `c`, and whether they are all of them. -/
def Hub.cutBlocks (h : Hub) (c cc k : Nat) : List Nat × Bool :=
  let x := h.rxc c cc
  match x.done.find? (fun f => f.cut == some k) with
  | some f => (f.blocks, true)
  | none => (if x.cut = some k then x.part else [], false)

/-- Cells that the frame of queue `k` that is cut through has in the buffer. -/
def Hub.cellsWritten (h : Hub) (k : Nat) : Nat :=
  ((h.queue (k / 2) (k % 2)).frames.filter (fun q => q.ct && decide (q.written < q.cells))).foldl (fun n q => max n q.written)
    ((h.links.flatMap (fun e => e.2.wait.filter (fun x => x.ct && decide (x.written < x.cells) && x.key == k))).foldl
      (fun n x => max n x.written) 0)

/-- Another cell of the frame that queue `k` cuts through from ingress `c` is in the buffer, once its blocks have arrived
(R248). After the last, the link layer has done with the frame. -/
def Hub.ctCell (h : Hub) (k c : Nat) : Hub :=
  if !h.ctArriving.contains (c, k) then h
  else
    if !isLink c then h.cellWritten k none
    else
      let cc := cclsOf (h.get (R.ttClass (k / 2)))
      let (l, whole) := h.cutBlocks c cc k
      if !whole && decide (l.length < 32 * (h.cellsWritten k + 1)) then h
      else
        let h := h.cellWritten k (some (plainFrame c l).payload)
        if whole && !h.cutsInto k then
          h.setRxc c cc { h.rxc c cc with done := (h.rxc c cc).done.filter (fun f => f.cut != some k) }
        else h

/-- CUT_THROUGH_CELL (R248): the next cell of the frame that queue (`t`, `dir`) cuts through from ingress `c` is in the
buffer. -/
def execCutThroughCell (t dir c : Nat) (s : State) : Host.Outcome State Fault Refusal :=
  .next (s.act (fun h => h.when (decide (dir < 2)) (fun h => h.ctCell (qkey t dir) c)))

/-! Chains that break (R259): each of these answers for the queues or areas of one kind, where one of them owns cell `a`. -/

/-- Frames counted as dropped that no fence waits for any longer. -/
def Hub.chainLost (h : Hub) (l : List (Nat × Frame)) : Hub :=
  h.each l (fun h p => (h.countBufdrop (p.1 / 2) (p.1 % 2)).fenceLost p.2)

def Hub.breakQueue (h : Hub) (a : Nat) : Option Hub :=
  (h.hearth.queues.find? (fun e => e.2.frames.any (fun q => q.nos.contains a))).map (fun e =>
    (h.breakChain (qkey e.1.i e.1.j) (e.2.frames.flatMap QFrame.nos) a).flushQueue e.1.i e.1.j)

def Hub.breakHeld (h : Hub) (a : Nat) : Option Hub :=
  (h.hearth.held.find? (fun e => e.2.any (fun q => q.nos.contains a))).map (fun e =>
    ((h.breakChain 0 (e.2.flatMap QFrame.nos) a).setHeld e.1.i e.1.j []).chainLost (e.2.map (fun q => (qkey q.tid q.dir, q.f))))

def Hub.breakSummary (h : Hub) (a : Nat) : Option Hub :=
  (h.hearth.egress.find? (fun e => e.2.summary.any (fun q => q.nos.contains a))).map (fun e =>
    ((h.breakChain 0 (e.2.summary.flatMap QFrame.nos) a).modEgress e.1.i (fun x => { x with summary := [] })).chainLost
      (e.2.summary.map (fun q => (qkey q.f.tid 1, q.f))))

def Hub.breakBand2 (h : Hub) (a : Nat) : Option Hub :=
  (h.hearth.egress.findSome? (fun e => (e.2.b2.find? (fun p => p.2.any (fun x => x.nos.contains a))).map (fun p => (e.1.i, p)))).map
    (fun r => ((h.breakChain 0 (r.2.2.flatMap TxFrame.nos) a).modEgress r.1 (fun x => { x with
      b2 := x.b2.filter (fun p => p.1 != r.2.1) })).chainLost (r.2.2.map (fun x => (x.key, x.f))))

/-- A replay area: its frames are gone, so that no link unit outstanding can be repeated. -/
def Hub.breakArea (h : Hub) (a : Nat) : Option Hub :=
  (h.links.find? (fun e => e.2.area.any (fun x => x.nos.contains a))).map (fun e =>
    let c := e.1.i
    let h := h.breakChain 0 (e.2.area.flatMap TxFrame.nos) a
    let h := h.modLink c (fun l => { l with area := [], wait := l.wait.filter (fun x => !reliable x.ccls) })
    let h := h.each [0, 2] (fun h k => h.setTxc c k { h.txc c k with
      unacked := (h.txc c k).unacked.map (fun u => { u with blocks := [] }) })
    h.chainLost (e.2.area.map (fun x => (x.key, x.f))))

/-- A frame that a link is sending from its queue's cells. -/
def Hub.breakSent (h : Hub) (a : Nat) : Option Hub :=
  (h.links.findSome? (fun e => (e.2.wait.find? (fun x => x.nos.contains a)).map (fun x => (e.1.i, x)))).map (fun r =>
    (((h.breakChain 0 r.2.nos a).abandonTx r.1 r.2).chainLost [(r.2.key, r.2.f)]))

/-- A receive pool. A frame that is still arriving is discarded as it does. -/
def Hub.breakPool (h : Hub) (a : Nat) : Option Hub :=
  (h.links.findSome? (fun e => (e.2.rx.find? (fun x => x.2.nos.contains a || x.2.done.any (fun f => f.nos.contains a))).map
    (fun x => (e.1.i, x.1.i, x.2)))).map (fun r =>
      let x := r.2.2
      let gone := x.done.filter (fun f => f.cut.isNone)
      let heads := gone.map (fun f => plainFrame r.1 f.blocks) ++ (if x.nos.isEmpty then [] else [plainFrame r.1 x.part])
      ((h.breakChain 0 (gone.flatMap RxFrame.nos ++ x.nos) a).setRxc r.1 r.2.1 { x with
        done := x.done.filter (fun f => f.cut.isSome), nos := [], overrun := x.overrun || !x.nos.isEmpty }).chainLost
        (heads.map (fun f => (qkey f.tid (b2n f.rev), f))))

/-- The entry of cell `a` cannot be read: the chain that runs through it ends there, and what owns it is flushed. -/
def Hub.chainBreak (h : Hub) (a : Nat) : Hub :=
  let l := [Hub.breakQueue, Hub.breakHeld, Hub.breakSummary, Hub.breakBand2, Hub.breakArea, Hub.breakSent, Hub.breakPool]
  let h := (h.inc R.bufLinkUe).raise srcBufLink 0
  ((l.findSome? (fun f => f h a)).getD h).settleFree

/-! The scrubber (R260). -/

/-- The queues that the cells beyond a break name as their owner: their tagged cells differ from their depth. -/
def Hub.tagsDiffer (h : Hub) : List Nat := ((h.hearth.orphans.map (fun p => p.2)).filter (fun k => k != 0)).eraseDups

/-- A sweep of the scrubber: what its reads meet (R256, R259), the cells that it finds lost, and the queues whose tags differ
from their depth. Those found twice in a row are reclaimed, or flushed. -/
def Hub.scrub (h : Hub) (corrected : Nat) (broken differ : List Nat) : Hub :=
  let h := (h.add R.bufEccCe corrected).each broken (fun h a => h.chainBreak a)
  let lost := h.hearth.orphans.map (fun p => p.1)
  let differ := (differ ++ h.tagsDiffer).eraseDups
  let twice := lost.filter (fun x => h.hearth.lostSeen.contains x)
  let flush := differ.filter (fun k => h.hearth.diffSeen.contains k)
  let h := { h with hearth := { h.hearth with orphans := h.hearth.orphans.filter (fun p => !twice.contains p.1)
                                              lostSeen := lost.filter (fun x => !twice.contains x)
                                              diffSeen := differ.filter (fun k => !flush.contains k) } }
  let h := h.each flush (fun h k => h.flushQueue (k / 2) (k % 2))
  if twice.isEmpty && flush.isEmpty then h else (h.add R.bufLostCell twice.length).raise srcBufLeak twice.length

/-- SCRUB_SWEEP (R260): what the sweep reads, namely how many tag entries with a single-bit error, and the cells whose entry is
uncorrectable; and `differ`, the queues whose depth counter an upset has put out of step with their cells. -/
def execScrubSweep (reads : Nat × List Nat) (differ : List Nat) (s : State) : Host.Outcome State Fault Refusal :=
  .next (s.act (fun h => h.scrub reads.1 reads.2.eraseDups differ.eraseDups))

/-! Egress scheduling. -/

/-- The queue that a selection serves, for one that serves a queue. -/
def Pick.queue : Pick → Option Nat
  | .band _ k => some k
  | .group k _ => some k
  | _ => none

/-- A frame is dropped whole at the check of R251: no block of it is sent. -/
def Hub.dropPick (h : Hub) (e : Nat) (p : Pick) : Hub :=
  match p with
  | .summary => h.modEgress e (fun x => { x with summary := x.summary.drop 1 })
  | .replay code => h.modEgress e (fun x => { x with
      b2 := (x.b2.map (fun q => if q.1 == code then (q.1, q.2.drop 1) else q)).filter (fun q => !q.2.isEmpty) })
  | .band _ k | .group k _ =>
    match (h.queue (k / 2) (k % 2)).frames with
    | [] => h
    | q :: rest => ((h.modQueue (k / 2) (k % 2) (fun x => { x with frames := rest })).fenceLost q.f).settleFree

/-- Is a frame of a selection one that the egress reads and checks whole before it starts (R251)? -/
def Hub.checkedWhole (h : Hub) (e : Nat) (p : Pick) : Bool :=
  !isLink e || (match p.queue with
    | none => true
    | some k => match (h.queue (k / 2) (k % 2)).frames with
      | q :: _ => reliable q.ccls
      | [] => true)

/-- The frame of a selection: its tunnel ID and its cells. -/
def Hub.pickFrame (h : Hub) (e : Nat) (p : Pick) : Nat × List Nat :=
  match p with
  | .summary => match (h.egress e).summary with | q :: _ => (q.f.tid, q.nos) | [] => (0, [])
  | .replay code => match (h.egress e).b2.find? (fun q => q.1 == code) with | some (_, x :: _) => (x.f.tid, x.nos) | _ => (0, [])
  | .band _ k | .group k _ => match (h.queue (k / 2) (k % 2)).frames with | q :: _ => (q.f.tid, q.nos) | [] => (0, [])

/-- A cell of the selected frame is uncorrectable (R257): the frame is dropped whole, or started and abandoned at once. -/
def Hub.badCell (h : Hub) (e : Nat) (p : Pick) : Hub :=
  let whole := h.checkedWhole e p
  let h := (h.inc R.bufEccUe).raise srcBufEcc (h.pickFrame e p).1
  if whole then h.dropPick e p
  else match p.queue with
    | none => h
    | some k =>
      let h := h.modQueue (k / 2) (k % 2) (fun q => { q with frames := match q.frames with
        | x :: l => { x with bad := true } :: l
        | [] => [] })
      let h := h.startPick e p
      match (h.link e).wait.find? (fun x => x.bad) with
      | some x => h.abandonTx e x
      | none => h

/-- One selection whose buffer reads meet `ecc`: 0 no error, 1 a corrected one (R256), 2 an uncorrectable cell, 3 an
uncorrectable link or tag entry (R259), that of the frame's first cell. -/
def Hub.selectPick (h : Hub) (e : Nat) (p : Pick) (ecc : Nat) : Hub :=
  if ecc = 2 then h.badCell e p
  else if ecc = 3 then (match (h.pickFrame e p).2 with
    | a :: _ => h.chainBreak a
    | [] => ((h.dropPick e p).inc R.bufLinkUe).raise srcBufLink 0)
  else (h.startPick e p).when (ecc == 1) (fun h => h.inc R.bufEccCe)

/-- A selection at an egress. At a link only a frame that may begin is selected; what it sends otherwise is chosen at a link
unit boundary (R129). -/
def Hub.selectAt (h : Hub) (e ecc : Nat) : Hub :=
  let h := h.ready e
  if isLink e then
    match h.linkChoice e with
    | some (.start p) => h.selectPick e p ecc
    | some .msg => h.startMsg e
    | _ => h
  else match h.choose e with
    | some p => h.selectPick e p ecc
    | none => h

/-- EGRESS_SELECT (R275): the egress with code `e` selects and starts a frame; `ecc` says what the buffer reads meet. -/
def execEgressSelect (e ecc : Nat) (s : State) : Host.Outcome State Fault Refusal :=
  .next (s.act (fun h => h.when (isLink e || isEngine e) (fun h => ((h.discardDown e).discardLine e).selectAt e ecc)))

/-- A link unit that is to be sent again cannot be read from the replay area (R258): the damaged frame is skipped, and the
port is contained by BUF_REPLAY. -/
def Hub.replayBad (h : Hub) (c k sq : Nat) : Hub :=
  let hit (x : TxFrame) : Bool := x.ccls == k && (match x.lastSeq with
    | some l => decide ((l + 32768 - sq) % 32768 < 16384)
    | none => true)
  let h := match (h.link c).area.find? hit with
    | some y => h.modLink c (fun l => { l with area := l.area.erase y, wait := l.wait.filter (fun x => x.nos != y.nos) })
    | none => h
  let h := h.setTxc c k { h.txc c k with
    unacked := (h.txc c k).unacked.map (fun u => if u.seq = sq then { u with blocks := [] } else u) }
  (h.inc R.bufEccUe).raise srcBufReplay c

/-- A link unit of class `k` that a replay repeats: one whose cells are gone cannot be. -/
def Hub.againEcc (h : Hub) (c k ecc : Nat) : Hub :=
  match (h.txc c k).replay with
  | [] => h
  | sq :: _ =>
    let gone := (h.txc c k).unacked.any (fun u => u.seq == sq && u.blocks.isEmpty)
    if ecc = 2 then h.replayBad c k sq
    else if gone then h.raise srcBufReplay c
    else if ecc = 3 then (match (h.link c).area.find? (fun x => x.ccls == k) with
      | some x => h.chainBreak (x.nos.headD bufCells)
      | none => h.repeatLu c k)
    else (h.repeatLu c k).when (ecc == 1) (fun h => h.inc R.bufEccCe)

/-- The next link unit of a frame in progress: one whose cell cannot be read is abandoned (R257); of a reliable class it cannot
be sent, as a replay could not (assumption 223). -/
def Hub.contEcc (h : Hub) (c k ecc : Nat) : Hub :=
  match h.going c k with
  | none => h
  | some x =>
    if ecc = 2 then
      (if reliable k then h.replayBad c k (h.txc c k).nextSeq
       else ((h.inc R.bufEccUe).raise srcBufEcc x.f.tid).abandonTx c x)
    else if ecc = 3 then h.chainBreak (x.nos.headD bufCells)
    else (h.newLu c k).when (ecc == 1) (fun h => h.inc R.bufEccCe)

/-- What a link does at a link unit boundary (R129), the reads for it meeting `ecc`. -/
def Hub.boundary (h : Hub) (c ecc : Nat) : Hub :=
  let h := h.ready c
  match h.linkChoice c with
  | some (.start p) => h.selectPick c p ecc
  | some .msg => h.startMsg c
  | some (.cont k) => h.contEcc c k ecc
  | some (.again k) => h.againEcc c k ecc
  | none => h

/-- BELLOWS_READY (R277, R278): the bellows of queue (`t`, `dir`) is refilled, and the queue's activity follows. -/
def execBellowsReady (t dir : Nat) (s : State) : Host.Outcome State Fault Refusal :=
  .next (s.act (fun h => h.when (isUser t && decide (dir < 2)) (fun h =>
    let h := h.refillQueue t dir
    let e := h.egressOf t dir
    if e = 0 then h else h.refreshQueue e (qkey t dir))))

/-- GUARD_EXPIRY (R273): the starvation guard timer of egress `e` reaches GUARD. -/
def execGuardExpiry (e : Nat) (s : State) : Host.Outcome State Fault Refusal :=
  .next (s.act (fun h => h.when ((isLink e || isEngine e) && h.get (R.schGuard (e - 1)) != 0 && !(h.groupActive e).isEmpty &&
    !(isTrunk e && h.safe))
    (fun h => h.modEgress e (fun x => { x with guardDue := true }))))

/-- SCH_STARVE (R289). -/
def execSchStarve (e : Nat) (s : State) : Host.Outcome State Fault Refusal :=
  .next (s.act (fun h => h.when ((isLink e || isEngine e) && decide (8 ≤ (h.egress e).guardTicks))
    (fun h => h.raise srcSchStarve e)))

/-! Closing tunnels. -/

/-- DRAIN_COMPLETE (R86). -/
def execDrainComplete (t : Nat) (s : State) : Host.Outcome State Fault Refusal := .next (s.act (fun h => h.drainComplete t))

/-- DRAIN_TIMEOUT (R86). -/
def execDrainTimeout (t : Nat) (s : State) : Host.Outcome State Fault Refusal := .next (s.act (fun h => h.drainTimeout t))

/-- QUARANTINE_END (R86). -/
def execQuarantineEnd (t : Nat) (s : State) : Host.Outcome State Fault Refusal := .next (s.act (fun h => h.quarantineEnd t))

end Sys2Proof.Machine
end

