-- ==== Sys2Proof/Machine/LinkFam.lean ====
section
/-!
DEFINITION. Meanings: lane training (Table 5-3), the link layer (R112 to R135, R169), attach (R162 to R166), electrical
idle (R182 to R185), lane faults and tempering (R186 to R198). Ports are named by their codes: trunks 1 to 4, lines 5 to 20.
-/

namespace Sys2Proof.Machine

open Sys2Proof

/-! Training. -/

/-- Training of a port ends in DOWN. -/
def Hub.trainingFails (h : Hub) (c : Nat) : Hub := if isTrunk c then h.trunkTrainFail (c - 1) else h.lineTrainFail (c - 5)

/-- Is a port in the training state `p` of Table 5-3? -/
def Hub.inPhase (h : Hub) (c p : Nat) : Bool := isLink c && (h.port c).phase == p

/-- Lanes assigned, or the next lower common rate, or the end of training (Table 5-3). -/
def Hub.eqEnd (h : Hub) (c : Nat) : Hub :=
  match h.assign c with
  | some g => g
  | none => match h.lowerRate c with
    | some r => h.enterEq c r
    | none => h.trainingFails c

/-- The next lower common rate, or the end of training (Table 5-3). -/
def Hub.readyEnd (h : Hub) (c : Nat) : Hub :=
  match h.lowerRate c with
  | some r => h.enterEq c r
  | none => h.trainingFails c

/-- The lane that a restore trains alone, while it does. -/
def Hub.restoringLane (h : Hub) (c : Nat) : Option Nat :=
  if (h.port c).phase = 4 ∧ ¬ (h.port c).restored then (h.port c).restore else none

/-- A signal on trunk `c` wakes the hub where its domains are off (Table 20-5). -/
def Hub.signalWake (h : Hub) (c : Nat) : Hub :=
  h.when (isTrunk c && !h.domainsOn) (fun h => h.wake 0 (2 ^ (15 + c)) false)

/-- A signal trains trunk `c` where it is in DOWN and enabled, and nothing holds it down (R179). -/
def Hub.signalTrain (h : Hub) (c : Nat) : Hub :=
  h.when (isTrunk c && h.linksPowered && h.get (R.linkState (c - 1)) == 0 && (h.port c).enabled &&
    !h.trunkBarred (c - 1) && h.replayEmpty (c - 1)) (fun h => h.startTraining c)

/-- SIGNAL_DETECT (R179, Table 20-5). -/
def execSignalDetect (c : Nat) (s : State) : Host.Outcome State Fault Refusal :=
  .next (s.act (fun h => (h.signalWake c).signalTrain c))

/-- TRAIN block `w` on lane `l`; when training completes the port enters LINKUP. -/
def Hub.trainArrives (h : Hub) (c l w : Nat) : Hub :=
  if !isLink c || decide (laneCount c ≤ l) || (h.port c).phase == 0 then h
  else match h.trainBlock c l w with
    | (true, h) => if isTrunk c then h.trunkLinkup (c - 1) else h.lineLinkup (c - 5)
    | (false, h) => h

/-- TRAIN_RECEIVED (R177, R179): a TRAIN block with the 64 bits `w` arrives on lane `l`. -/
def execTrainReceived (c l w : Nat) (s : State) : Host.Outcome State Fault Refusal :=
  .next (s.act (fun h => h.trainArrives c l w))

/-- FOM_MEASUREMENT (R173, R178): the eye of lane `l`, its height in µV and its width in millionths of a UI. -/
def execFomMeasurement (c l : Nat) (eye : Nat × Nat) (s : State) : Host.Outcome State Fault Refusal :=
  .next (s.act (fun h => h.when (isLink c && decide (l < laneCount c)) (fun h => h.fomMeasured c l (fomOf eye.1 eye.2))))

/-- CAP_TIMEOUT (R179). -/
def execCapTimeout (c : Nat) (s : State) : Host.Outcome State Fault Refusal :=
  .next (s.act (fun h => h.when (h.inPhase c 1) (fun h => h.trainingFails c)))

/-- EQ_TIMEOUT (R179); of a lane that is restored alone, R198: it goes on to its ready phase, or stays retired. -/
def execEqTimeout (c : Nat) (s : State) : Host.Outcome State Fault Refusal :=
  .next (s.act (fun h =>
    if h.inPhase c 2 then h.eqEnd c
    else match h.restoringLane c with
      | some l =>
        if h.lanePhase c l ≠ 2 then h
        else if h.laneFit c l then (h.modLane c l (fun x => { x with mode := 4, farDone := true })).sendTrain c l
        else h.restoreFailed c l
      | none => h))

/-- READY_TIMEOUT (R179, R198). -/
def execReadyTimeout (c : Nat) (s : State) : Host.Outcome State Fault Refusal :=
  .next (s.act (fun h =>
    if h.inPhase c 3 then h.readyEnd c
    else match h.restoringLane c with
      | some l => if h.lanePhase c l = 3 then h.restoreFailed c l else h
      | none => h))

/-! The link layer. -/

/-- Blocks of the stream arrive in order, while link units flow. -/
def Hub.streamArrives (h : Hub) (c : Nat) (l : List Block) : Hub := h.each l (fun h b => h.when (h.linkFlows c) (fun h => h.blockArrives c b))

/-- A control block arrives whose payload is `w`. -/
def Hub.ctrlArrives (h : Hub) (c w : Nat) : Hub := h.streamArrives c [{ lane := 0, hdr := hdrCtrl, w := w }]

/-- The LU_END with these fields (Table 4-3), on the lane and with the sync header given, where there is one. -/
def luEndBlock (ccls seq : Nat) (fs : Bool) (cnt crc : Nat) (last : Option (Nat × Nat)) : List Block :=
  last.toList.map (fun p => { lane := p.1, hdr := p.2
                              w := luEndWord { ccls := ccls, seq := seq, fs := fs, cnt := cnt, crc := crc, blocks := [] } })

/-- LINK_UNIT_RECEIVED (R120 to R123): `blocks` of the stream arrive, and then the LU_END with the fields given that closes the
link unit. Every type of block may stand among them, and block errors (R108). -/
def execLinkUnitReceived (c ccls seq : Nat) (fs : Bool) (cnt crc : Nat) (blocks : List Block) (last : Option (Nat × Nat))
    (s : State) : Host.Outcome State Fault Refusal :=
  .next (s.act (fun h => h.streamArrives c (blocks ++ luEndBlock ccls seq fs cnt crc last)))

/-- LINK_UNIT_WITHOUT_LU_END (R120): 64 data blocks without an LU_END; the class is not known. -/
def execLinkUnitWithoutLuEnd (c : Nat) (s : State) : Host.Outcome State Fault Refusal :=
  .next (s.act (fun h => h.when (h.linkFlows c) (fun h =>
    (h.modLink c (fun l => { l with inLu := [], inErr := false })).luFailedAll c)))

/-- ACK_RECEIVED (R127): an ACK block with NAK 0. -/
def execAckReceived (c k ackSeq : Nat) (s : State) : Host.Outcome State Fault Refusal :=
  .next (s.act (fun h => h.ctrlArrives c (ackBlock k ackSeq 0 false)))

/-- NAK_RECEIVED (R124): an ACK block with NAK 1. -/
def execNakReceived (c k ackSeq nseq : Nat) (s : State) : Host.Outcome State Fault Refusal :=
  .next (s.act (fun h => h.ctrlArrives c (ackBlock k ackSeq nseq true)))

/-- CREDIT_RECEIVED (R132): a CREDIT block. -/
def execCreditReceived (c ctl iso rtx blk : Nat) (s : State) : Host.Outcome State Fault Refusal :=
  .next (s.act (fun h => h.ctrlArrives c (creditBlock ctl iso rtx blk)))

/-- CSYNC_RECEIVED (R134): a CSYNC block. -/
def execCsyncReceived (c iso blk : Nat) (s : State) : Host.Outcome State Fault Refusal :=
  .next (s.act (fun h => h.ctrlArrives c (csyncBlock iso blk)))

/-- PROBE_RECEIVED (R169): a PROBE block. -/
def execProbeReceived (c pid : Nat) (resp : Bool) (s : State) : Host.Outcome State Fault Refusal :=
  .next (s.act (fun h => h.ctrlArrives c (probeBlock pid resp)))

/-- ACK_PERIOD (R123, R183). -/
def execAckPeriod (c : Nat) (s : State) : Host.Outcome State Fault Refusal :=
  .next (s.act (fun h => h.when (h.linkFlows c && !h.flag (fEidleTx c)) (fun h => (h.sendAck c 0).sendAck c 2)))

/-- NAK_RESEND (R123): the link unit asked for has not arrived. -/
def execNakResend (c k : Nat) (s : State) : Host.Outcome State Fault Refusal :=
  .next (s.act (fun h => h.when (h.linkFlows c && reliable k && (h.rxc c k).nak == some (h.rxc c k).nextSeq)
    (fun h => h.sendNak c k)))

/-- REPLAY_TIMEOUT (R126): the class is replayed as on a NAK. -/
def execReplayTimeout (c k : Nat) (s : State) : Host.Outcome State Fault Refusal :=
  .next (s.act (fun h => h.when (h.linkFlows c && reliable k && !(h.txc c k).unacked.isEmpty)
    (fun h => h.orderReplay c k (h.txc c k).oldest)))

/-- CREDIT_PERIOD (R133, R183). -/
def execCreditPeriod (c : Nat) (s : State) : Host.Outcome State Fault Refusal :=
  .next (s.act (fun h => h.when (h.linkFlows c && !h.flag (fEidleTx c)) (fun h => h.sendCredit c)))

/-- CSYNC_PERIOD (R134, R183). -/
def execCsyncPeriod (c : Nat) (s : State) : Host.Outcome State Fault Refusal :=
  .next (s.act (fun h => h.when (h.linkFlows c && !h.flag (fEidleTx c) && (h.link c).csyncDue) (fun h =>
    (h.sendCtrl c (csyncBlock (h.txc c 1).cc (h.txc c 3).cc)).modLink c (fun l => { l with csyncDue := false }))))

/-- LINK_SILENT (R128, R183): no ACK block for 3.0 µs on a trunk in ATTACHED, or on a line that is UP. -/
def execLinkSilent (c : Nat) (s : State) : Host.Outcome State Fault Refusal :=
  .next (s.act (fun h => h.when (isLink c && h.portUp c && !h.flag (fEidleRx c)) (fun h =>
    if isTrunk c then h.raise (srcLinkSilent (c - 1)) 0 else h.lineCause (c - 5) cSilent)))

/-- LINK_UNIT_BOUNDARY (R129): the transmitter chooses the next link unit; `ecc` says what the buffer reads for it meet. -/
def execLinkUnitBoundary (c ecc : Nat) (s : State) : Host.Outcome State Fault Refusal :=
  .next (s.act (fun h => h.when (h.linkFlows c) (fun h => h.boundary c ecc)))

/-! Attach. -/

/-- IDENT (R165): an attach message of trunk `n` on the tunnel of host index `host`. -/
def execIdent (n host : Nat) (payload : List Byte) (s : State) : Host.Outcome State Fault Refusal :=
  .next (s.act (fun h => h.when (decide (n < 4)) (fun h => h.ident n host payload)))

/-- PROOF (R162, R166). -/
def execProof (n : Nat) (payload : List Byte) (s : State) : Host.Outcome State Fault Refusal :=
  .next (s.act (fun h => h.when (decide (n < 4)) (fun h => h.proof n payload)))

/-- PROOF_TIMEOUT (R162). -/
def execProofTimeout (n : Nat) (s : State) : Host.Outcome State Fault Refusal :=
  .next (s.act (fun h => h.when (decide (n < 4)) (fun h => h.proofTimeout n)))

/-! Electrical idle and alignment. -/

/-- A lane fault on a port of either kind (R187, R189, Table 11-3). -/
def Hub.laneFault (h : Hub) (c l : Nat) : Hub := if isTrunk c then h.trunkLaneFault c l else h.lineLaneFault (c - 5) l

/-- Is lane `l` one that carries traffic or stands by: active, stand-in or spare? -/
def Hub.laneInUse (h : Hub) (c l : Nat) : Bool :=
  isLink c && decide (l < laneCount c) && h.get (fPos c l) != 7 && (h.port c).phase == 4

/-- The ALIGN block of lane `l` in a row of markers: none where it is missing, is no ALIGN, or came with more skew than is
tolerated (R112). -/
def markOf (skew : List Nat) (marks : List Block) (l : Nat) : Option Nat :=
  (marks.find? (fun b => b.lane == l && isType b btAlign && decide (skew.getD l 0 ≤ 64))).map (fun b => b.w)

/-- The marker of an ALIGN row on one lane (R112). -/
def Hub.alignLane (h : Hub) (c : Nat) (restart : Bool) (mark : Option Nat) (l : Nat) : Hub :=
  h.modLane c l (fun x =>
    let bad : LaneX := { x with mcnt := (x.mcnt + 1) % 256, missed := x.missed + 1 }
    match mark with
    | some w =>
      if restart || bits w 23 16 == (x.mcnt + 1) % 256 then { x with mcnt := bits w 23 16, missed := 0, repl := bits w 13 11 } else bad
    | none => bad)

/-- REPL of the spare's marker is held against the position identified (R193). -/
def Hub.checkRepl (h : Hub) (c : Nat) (mark : Option Nat) : Hub :=
  h.modPort c (fun p => { p with replOk := match mark, p.ident with
    | some w, some j => bits w 13 11 == j
    | _, _ => p.replOk })

/-- An ALIGN row. A restart ALIGN row sets the active set: a lane in use that it leaves out is retired (R190). -/
def Hub.alignRow (h : Hub) (c : Nat) (restart : Bool) (mark : Nat → Option Nat) : Hub :=
  let ls := (List.range (laneCount c)).filter (fun l => h.laneInUse c l)
  let h := match ls.findSome? mark with
    | some w => h.modPort c (fun p => { p with farPort := bits w 28 24 })
    | none => h
  let h := h.each ls (fun h l => h.alignLane c restart (mark l) l)
  let h := h.when (isTrunk c && h.laneRole c 4 == 3) (fun h => h.checkRepl c (mark 4))
  if restart then h.each (ls.filter (fun l => (mark l).isNone)) (fun h l => h.laneFault c l) else h

/-- ALIGN_RECEIVED (R112): the markers of an ALIGN row; `skew` gives for each lane the block times by which its marker came
after the first. -/
def execAlignReceived (c : Nat) (skew : List Nat) (restart : Bool) (marks : List Block) (s : State) :
    Host.Outcome State Fault Refusal :=
  .next (s.act (fun h => h.when (isLink c && (h.port c).phase == 4) (fun h => h.alignRow c restart (markOf skew marks))))

/-- EIDLE_RECEIVED (R183). -/
def execEidleReceived (c : Nat) (s : State) : Host.Outcome State Fault Refusal :=
  .next (s.act (fun h => h.when (isLink c && h.linkFlows c) (fun h => (h.set (fEidleRx c) 1).idleStates c)))

/-- ELECTRICAL_IDLE_ENTRY (R182): the transmit direction has been idle for IDLE_DLY. -/
def execElectricalIdleEntry (c : Nat) (s : State) : Host.Outcome State Fault Refusal :=
  .next (s.act (fun h => h.when (isLink c && h.mayIdle c (h.psIs psIdle)) (fun h =>
    ((h.eidleRow c).set (fEidleTx c) 1).idleStates c)))

/-- ELECTRICAL_IDLE_EXIT (R184, R185): of the transmitter (`rx` false), or of the receiver; a lane that has not regained
lock by the restart ALIGN row has a lane fault. -/
def execElectricalIdleExit (c : Nat) (rx : Bool) (unlocked : List Nat) (s : State) : Host.Outcome State Fault Refusal :=
  .next (s.act (fun h =>
    if !isLink c then h
    else if rx then
      (if h.flag (fEidleRx c) then
        ((h.set (fEidleRx c) 0).idleStates c).each (unlocked.filter (fun l => h.laneInUse c l)) (fun h l => h.laneFault c l)
       else h)
    else h.idleExit c))

/-! Lane faults, the spare and tempering. -/

/-- LOSS_OF_SIGNAL (R186): not preceded by an EIDLE row. -/
def execLossOfSignal (c l : Nat) (s : State) : Host.Outcome State Fault Refusal :=
  .next (s.act (fun h => h.when (h.laneInUse c l && !h.flag (fEidleRx c)) (fun h => h.laneFault c l)))

/-- LOSS_OF_LOCK (R186): a lane, and how many of 64 consecutive blocks on it have an invalid sync header, which SYNC_ERR counts;
16 are a lane fault. -/
def execLossOfLock (c : Nat) (bad : Nat × Nat) (s : State) : Host.Outcome State Fault Refusal :=
  .next (s.act (fun h => h.when (h.laneInUse c bad.1) (fun h =>
    (h.add (fSyncErr c bad.1) bad.2).when (decide (16 ≤ bad.2)) (fun h => h.laneFault c bad.1))))

/-- LOSS_OF_ALIGNMENT (R112): ALIGN missing or wrong at three expected positions in a row. -/
def execLossOfAlignment (c l : Nat) (s : State) : Host.Outcome State Fault Refusal :=
  .next (s.act (fun h => h.when (h.laneInUse c l && decide (3 ≤ (h.laneX c l).missed)) (fun h => h.laneFault c l)))

/-- FAILED_EYE (R186): live FOM below FOM_FAIL in three ticks in a row. -/
def execFailedEye (c l : Nat) (s : State) : Host.Outcome State Fault Refusal :=
  .next (s.act (fun h => h.when (h.laneInUse c l && decide (3 ≤ (h.laneX c l).lowRun)) (fun h => h.laneFault c l)))

/-- `n` rows in which the spare's block is not that of its identified position: those outside the 64 rows after a change count
(R193). -/
def PortLanes.mismatch (p : PortLanes) (n : Nat) : PortLanes :=
  let k := if p.ident.isSome then n - (64 - p.since) else 0
  { p with since := min 64 (p.since + n), replMism := min (2 ^ 32 - 1) (p.replMism + k), mismTick := p.mismTick + k }

/-- A run of rows in which no two positions carry equal blocks (R193): the position whose block the spare's equals, and how many
rows. Sixteen in a row identify the position, and are then rows that follow the change. -/
def PortLanes.spareRun (p : PortLanes) (r : Option Nat × Nat) : PortLanes :=
  match r.1 with
  | none => { p.mismatch (p.identRun.2 + r.2) with identRun := (0, 0) }
  | some j =>
    if p.ident = some j then
      let p := p.mismatch p.identRun.2
      { p with identRun := (0, 0), since := min 64 (p.since + r.2) }
    else
      let p := if p.identRun.1 = j then p else { p.mismatch p.identRun.2 with identRun := (j, 0) }
      let n := p.identRun.2 + r.2
      if 16 ≤ n then { p with ident := some j, identRun := (0, 0), since := min 64 n } else { p with identRun := (j, n) }

/-- Rows of the stream as the spare's receiver sees them; the 256th mismatch of a tick raises SPARE_MISM (R193). -/
def Hub.spareRows (h : Hub) (c : Nat) (rows : List (Option Nat × Nat)) : Hub :=
  let old := (h.port c).mismTick
  let h := h.modPort c (fun p => rows.foldl PortLanes.spareRun p)
  if old < 256 ∧ 256 ≤ (h.port c).mismTick then h.raise (srcSpareMism (c - 1)) (h.port c).replMism else h

/-- SPARE_MISM (R193): rows of the stream in which no two positions carry equal blocks, as runs. -/
def execSpareMism (c : Nat) (rows : List (Option Nat × Nat)) (s : State) : Host.Outcome State Fault Refusal :=
  .next (s.act (fun h => h.when (isTrunk c && h.laneInUse c 4 && h.laneRole c 4 == 3) (fun h => h.spareRows c rows)))

/-- TEMPER_UNDO (R195): a sync header error within 1,024 rows of a step. -/
def execTemperUndo (c l : Nat) (s : State) : Host.Outcome State Fault Refusal :=
  .next (s.act (fun h => h.when (isTrunk c && h.laneInUse c l && (h.laneX c l).step.isSome) (fun h =>
    (h.inc (fSyncErr c l)).undoStep c l)))

/-- LANE_RESTORE_SWITCH (R198). -/
def execLaneRestoreSwitch (c : Nat) (s : State) : Host.Outcome State Fault Refusal :=
  .next (s.act (fun h => h.when (isTrunk c) (fun h => h.restoreSwitch c)))

end Sys2Proof.Machine
end

