-- ==== Sys2Proof/Machine/StrikeFam.lean ====
section
/-!
DEFINITION. Meanings: the flash path (chapter 6) and failover (chapter 10).
-/

namespace Sys2Proof.Machine

open Sys2Proof

/-! The flash path. -/

/-- The event that an edge makes: TLOW and TOFF from its stamp `half`, forge time in units of 0.5 ns, in the tick that holds it
(R203). -/
def Hub.edgeEvent (h : Hub) (ch edge half : Nat) : Strike :=
  let b := (((h.tickNum, h.tick.last) :: h.tick.bounds).find? (fun b => decide (2 * b.2 ≤ half))).getD (0, 0)
  ⟨ch, edge, 0, b.1 % 16, 0, half - 2 * b.2, false⟩

/-- An edge that EDGESEL selects is an event on CHAN, where the channel may originate at a pin (R202, R217), and a
request of the DMA engine whatever its routing (R451). -/
def Hub.trigIn (h : Hub) (i : Nat) (level : Bool) (half : Nat) : Hub :=
  let lv := level != h.flag (R.tinInv i)
  let sel := h.get (R.tinEdgesel i)
  if !((lv && bit sel 0) || (!lv && bit sel 1)) then h
  else
    let ch := h.get (R.tinChan i)
    let h := if h.flag (R.routeLocalSrc ch) then h.routeStrike (h.edgeEvent ch (b2n lv) half) 0
      else h.inc R.fpStatDenied
    h.dmaReq (72 + i)

/-- TRIG_IN_EDGE (R202): the filtered level of pin `i` becomes `level`; the first sample that saw it was taken at `half`,
in units of 0.5 ns of forge time. -/
def execTrigInEdge (i : Nat) (level : Bool) (half : Nat) (s : State) : Host.Outcome State Fault Refusal :=
  .next (s.act (fun h => h.when (decide (i < 32)) (fun h => h.trigIn i level half)))

/-- STRIKE_RECEIVED (R214, R215): a strike row on port `c`, its copies in order of arrival. -/
def execStrikeReceived (c : Nat) (copies : List Block) (s : State) : Host.Outcome State Fault Refusal :=
  .next (s.act (fun h => h.when (h.strikeUp c) (fun h => h.strikeRowReceived c copies)))

/-- STRIKE_ROW_SEND (R210, R184). -/
def execStrikeRowSend (c : Nat) (s : State) : Host.Outcome State Fault Refusal :=
  .next (s.act (fun h => h.when (isLink c) (fun h => h.sendStrike c)))

/-- PULSE_END (R204): WIDTH has passed since the latest event on output `k`. -/
def execPulseEnd (k : Nat) (s : State) : Host.Outcome State Fault Refusal :=
  .next (s.act (fun h => h.when (decide (k < 32) && (h.trigOut k).pulse && h.get (R.toutMode k) == 1) (fun h =>
    h.setTrigOut k { drive := h.driveOf k false, level := false, pulse := false })))

/-- The sending side of a crossing sees its acknowledgement (R222). -/
def Hub.crossAck (h : Hub) (ch : Nat) : Hub :=
  let x := h.crossing ch
  if !x.busy || x.seen != x.tog then h
  else if x.pend = 0 then h.setCrossing ch { x with busy := false }
  else h.setCrossing ch { x with pend := x.pend - 1, tog := !x.tog }

/-- PULSE_CROSSING_ACK (R222). -/
def execPulseCrossingAck (ch : Nat) (s : State) : Host.Outcome State Fault Refusal :=
  .next (s.act (fun h => h.when (decide (ch < 256)) (fun h => h.crossAck ch)))

/-- The receiving side of a crossing sees an inversion: one pulse to the local event inputs (R222, R452); in safe state no event
is delivered to a local consumer (R232). -/
def Hub.crossPulse (h : Hub) (ch : Nat) : Hub :=
  let x := h.crossing ch
  if x.seen = x.tog then h
  else (h.setCrossing ch { x with seen := x.tog }).when (!h.safe) (fun h => h.dmaPulse ch)

/-- CROSSING_PULSE (R222). -/
def execCrossingPulse (ch : Nat) (s : State) : Host.Outcome State Fault Refusal :=
  .next (s.act (fun h => h.when (decide (ch < 256)) (fun h => h.crossPulse ch)))

/-- SUMMARY_RECONCILE (R227, R228): a summary of trunk `n` that arrived on trunk port `via`. -/
def execSummaryReconcile (n via : Nat) (payload : List Byte) (s : State) : Host.Outcome State Fault Refusal :=
  .next (s.act (fun h => h.when (decide (n < 4)) (fun h => h.reconcile n via payload)))

/-- SUMMARY_TIMEOUT (R231): the limit for the summary of tick `k` of trunk `n`. -/
def execSummaryTimeout (n k : Nat) (s : State) : Host.Outcome State Fault Refusal :=
  .next (s.act (fun h =>
    h.when (decide (n < 4) && decide (k < h.tickNum) && (h.strikeUp (n + 1) || h.trunkFailed n))
      (fun h => h.summaryMissing n k)))

/-! Failover. -/

/-- Does credit class `k` of trunk `n` wait for credits (R320)? -/
def Hub.creditWait (h : Hub) (n k : Nat) : Bool :=
  let e := n + 1
  (h.queuesAt e).any (fun q => h.waitsCrd e q && (match (h.queue (q / 2) (q % 2)).frames with
    | f :: _ => f.ccls == k
    | [] => false)) ||
  (h.egress e).b2.any (fun p => match p.2 with
    | x :: _ => x.ccls == k && decide (h.credits e k < x.cells)
    | [] => false)

/-- CREDIT_STALL (R321): a reliable class of trunk `n` has waited CRD_TMO while its limit did not rise. -/
def execCreditStall (n k : Nat) (s : State) : Host.Outcome State Fault Refusal :=
  .next (s.act (fun h => h.when (decide (n < 4) && reliable k && h.flag (R.foCrdEn n) && h.get (R.linkState n) == 4 &&
    h.creditWait n k) (fun h => h.raise (srcCrdStall n) 0)))

/-- RETRAIN_WAIT_EXPIRY (R337): the retrain wait of trunk `n` has passed; training starts once nothing holds it back. -/
def execRetrainWaitExpiry (n : Nat) (s : State) : Host.Outcome State Fault Refusal :=
  .next (s.act (fun h => h.when (decide (n < 4) && h.get (R.foState n) == 1 && h.get (R.linkState n) != 4 &&
    h.get (R.foRtrDly n) != 0) (fun h => h.modFailover (n + 1) (fun f => { f with waitOver := true }))))

/-- AUTO_RETURN (R337): trunk `n` has stayed ATTACHED for RET_HOLD boundaries. -/
def execAutoReturn (n : Nat) (s : State) : Host.Outcome State Fault Refusal :=
  .next (s.act (fun h => h.when (decide (n < 4) && h.get (R.foState n) == 1 && h.get (R.linkState n) == 4 &&
    h.flag (R.foAutoret n) && decide (h.get (R.foRetHold n) ≤ (h.failover (n + 1)).attached))
    (fun h => h.set (R.foState n) 2)))

/-- May a direction of tunnel `t` move back: its tunnel is returning, a failed trunk of it is RETURNING, no frame of it is out,
and a queue that runs on its alternate has its primary back (Table 10-5)? -/
def Hub.mayReturn (h : Hub) (t dir : Nat) : Bool :=
  isUser t && h.returning t && (h.tunX t).failTrk.any (fun c => h.get (R.foState (c - 1)) == 2) && !h.stillOut t dir &&
  (!(h.queue t dir).moved || h.attachedTo (h.get (if dir = 0 then R.ttEgr t else R.ttIngr t)) (h.get (R.ttOwn t)))

/-- TUNNEL_RETURN (R337). -/
def execTunnelReturn (t dir : Nat) (s : State) : Host.Outcome State Fault Refusal :=
  .next (s.act (fun h => h.when (decide (dir < 2) && h.mayReturn t dir) (fun h => h.returnDir t dir)))

/-- DEPUTY_TAKEOVER (R335). -/
def execDeputyTakeover (s : State) : Host.Outcome State Fault Refusal := .next (s.act Hub.takeover)

end Sys2Proof.Machine
end

