-- ==== Sys2Proof/Machine/LineFam.lean ====
section
/-!
DEFINITION. Meanings: line ports, the node attach exchange and the node bus (chapter 11), and the bridge (chapter 12).
-/

namespace Sys2Proof.Machine

open Sys2Proof

/-! Line ports. -/

/-- LINE_ATTACH_CONDITION (R349, R347): the attach condition of line port `n` holds, 5 ms after VCONN where the cable has
Ra; training starts with EN 1 and no retrain wait. -/
def execLineAttachCondition (n : Nat) (s : State) : Host.Outcome State Fault Refusal :=
  .next (s.act (fun h => h.when (decide (n < 16) && h.attachCond n) (fun h => h.lineCondOn n)))

/-- LINE_ATTACH_CONDITION_END (R349): the attach condition of line port `n` has ended, and the port passes to DOWN. -/
def execLineAttachConditionEnd (n : Nat) (s : State) : Host.Outcome State Fault Refusal :=
  .next (s.act (fun h => h.when (decide (n < 16) && !h.attachCond n) (fun h => h.lineCondOff n)))

/-- NODEINFO (R350, R359, R361): a NODEINFO on line port `n`, as its payload spells it. -/
def execNodeinfo (n : Nat) (payload : List Byte) (s : State) : Host.Outcome State Fault Refusal :=
  .next (s.act (fun h => h.when (decide (n < 16)) (fun h => h.nodeInfo n payload)))

/-- NODE_PROOF (R360): a PROOF of the node on line port `n`, as its payload spells it. -/
def execNodeProof (n : Nat) (payload : List Byte) (s : State) : Host.Outcome State Fault Refusal :=
  .next (s.act (fun h => h.when (decide (n < 16)) (fun h => h.nodeProof n payload)))

/-- DEPART (R350). -/
def execDepart (n : Nat) (s : State) : Host.Outcome State Fault Refusal :=
  .next (s.act (fun h => h.when (decide (n < 16)) (fun h => h.nodeDepart n)))

/-- HELLO_TIMEOUT (R350): 10 ms have passed without an answer. -/
def execHelloTimeout (n : Nat) (s : State) : Host.Outcome State Fault Refusal :=
  .next (s.act (fun h => h.when (decide (n < 16)) (fun h => h.helloAgain n)))

/-- LINE_RETRAIN_WAIT (R350): LRTR_DLY has passed. -/
def execLineRetrainWait (n : Nat) (s : State) : Host.Outcome State Fault Refusal :=
  .next (s.act (fun h => h.when (decide (n < 16)) (fun h => h.lineWaitOver n)))

/-! The node bus. -/

/-- NODE_BUS_RD (R355, R385, R387, R388): `f`, the oldest packet at E2 of line port `n`, is an RD. `inTime`: the data of a new
fetch is in hand within 1.5 µs. -/
def execNodeBusRd (n : Nat) (f : Frame) (inTime : Bool) (s : State) : Host.Outcome State Fault Refusal :=
  .next (s.actAll (fun s => s.takeNodeRead n f inTime))

/-- NODE_BUS_WR (R355, R385, R386): `f`, the oldest packet at E2 of line port `n`, is a WR. -/
def execNodeBusWr (n : Nat) (f : Frame) (s : State) : Host.Outcome State Fault Refusal :=
  .next (s.act (fun h => h.takeNode n 2 f (fun h x => h.nodeWrite n f x)))

/-- NODE_BUS_PWR (R355, R385, R386): `f`, the oldest packet at E2 of line port `n`, is a posted write. -/
def execNodeBusPwr (n : Nat) (f : Frame) (s : State) : Host.Outcome State Fault Refusal :=
  .next (s.act (fun h => h.takeNode n 3 f (fun h x => h.nodeWrite n f x)))

/-- NODE_BUS_RESPONSE (R356, R354): `f`, the oldest packet at E2 of line port `n`, is an RDRSP or a WRRSP. -/
def execNodeBusResponse (n : Nat) (f : Frame) (s : State) : Host.Outcome State Fault Refusal :=
  .next (s.act (fun h => (if h.nodeOp n 4 f then h.takeNode n 4 f else h.takeNode n 5 f) (fun h _ => h.nodeResponse n f)))

/-- NODE_BUS_TIMEOUT (R357): NB_TMO has passed for the oldest request outstanding on line port `n`. -/
def execNodeBusTimeout (n : Nat) (s : State) : Host.Outcome State Fault Refusal :=
  .next (s.act (fun h => h.when (decide (n < 16)) (fun h => h.nodeTimeout n)))

/-! The bridge. -/

/-- STORAGE_READ (R370, R371, R375): the bridge takes the READ `f` from E2. -/
def execStorageRead (f : Frame) (s : State) : Host.Outcome State Fault Refusal := .next (s.act (fun h => h.takeRead f))

/-- STORAGE_WRITE (R370, R371, R380): the bridge takes the WRITE `f` from E2. -/
def execStorageWrite (f : Frame) (s : State) : Host.Outcome State Fault Refusal := .next (s.act (fun h => h.takeWrite f))

/-- PIECE_COMPLETE (R372, R373): the bridge takes the oldest outcome of a piece. -/
def execPieceComplete (s : State) : Host.Outcome State Fault Refusal := .next (s.act (fun h => h.pieceComplete))

/-- HOLD_EXPIRY (R377): HOLD_US has passed for the hold entry of tunnel `t`, generation and tag. -/
def execHoldExpiry (t gen tag : Nat) (s : State) : Host.Outcome State Fault Refusal :=
  .next (s.act (fun h => h.holdExpiry t gen tag))

/-- NODE_HOLD_EXPIRY (R387): NHOLD_US has passed for the node hold entry of line port `n`, address and length. -/
def execNodeHoldExpiry (n addr len : Nat) (s : State) : Host.Outcome State Fault Refusal :=
  .next (s.act (fun h => h.when (decide (n < 16)) (fun h => h.nodeHoldExpiry n addr len)))

/-- TELEMETRY_UPDATE (R390, R391): the telemetry frame `f` of a node reaches the mirror store. -/
def execTelemetryUpdate (f : Frame) (s : State) : Host.Outcome State Fault Refusal := .next (s.act (fun h => h.takeTelemetry f))

end Sys2Proof.Machine
end

