-- ==== Sys2Proof/Machine/MediaFam.lean ====
section
/-!
DEFINITION. Meanings: raster heads, DP outputs and the witness (chapter 13), the LP5 controller and the DMA engine
(chapter 14).
-/

namespace Sys2Proof.Machine

open Sys2Proof

/-! Raster heads. -/

/-- A latch point of head `n` is a request of the DMA engine as well (Table 14-5). -/
def Hub.latchEvent (h : Hub) (n : Nat) : Hub :=
  if h.flag (R.rhEn n) && !(h.head n).relock then (h.latchPoint n).dmaReq (64 + n) else h

/-- LATCH_POINT (R409, R401, R451). -/
def execLatchPoint (n : Nat) (s : State) : Host.Outcome State Fault Refusal :=
  .next (s.act (fun h => h.when (decide (n < 8)) (fun h => h.latchEvent n)))

/-- FLIP_ARM (R408): master `m` writes ARM and FLIP_ID of head `n`. -/
def execFlipArm (m n id : Nat) (arm : Bool) (tag : Nat) (posted : Bool) (s : State) : Host.Outcome State Fault Refusal :=
  .next (s.act (fun h => h.when (decide (n < 8)) (fun h =>
    h.directWord m ⟨tag, posted⟩ (0x3001018 + n * 0x100) (b2n arm * 2 ^ 31 + id % 65536))))

/-- FLIP_ADDRESS_WRITE (R408): master `m` writes the pending address of plane `p` of head `n`, its high word or its low. -/
def execFlipAddressWrite (m n p : Nat) (hi : Bool) (v tag : Nat) (posted : Bool) (s : State) :
    Host.Outcome State Fault Refusal :=
  .next (s.act (fun h => h.when (decide (n < 8) && decide (p < 3)) (fun h =>
    h.directWord m ⟨tag, posted⟩ (0x3001000 + n * 0x100 + p * 8 + 4 * b2n hi) v)))

/-- PIXEL_PLL_LOCK (R401). -/
def execPixelPllLock (n : Nat) (s : State) : Host.Outcome State Fault Refusal :=
  .next (s.act (fun h => h.when (decide (n < 8)) (fun h => h.pllLock n)))

/-- UNDERFLOW (R414): the pipeline of head `n` needs a sample of the line in hand that has not arrived. -/
def execUnderflow (n : Nat) (s : State) : Host.Outcome State Fault Refusal :=
  .next (s.act (fun h => h.when (decide (n < 8)) (fun h => h.underflow n)))

/-- RASTER_LINE_SEND (R405, R417, R418): the next segment of the line in hand leaves the pipeline. -/
def execRasterLineSend (n : Nat) (s : State) : Host.Outcome State Fault Refusal :=
  .next (s.act (fun h => h.when (decide (n < 8)) (fun h => h.lineSend n)))

/-- WITNESS_BAND_COMPARE (R418, R420): `seen` is the witness CRC of the band, or none where it did not come. -/
def execWitnessBandCompare (n : Nat) (seen : Option Nat) (s : State) : Host.Outcome State Fault Refusal :=
  .next (s.act (fun h => h.when (decide (n < 8)) (fun h => h.bandCompare n seen)))

/-- IRQ_HPD (R416): whether the sink reports lost lock, and whether the retraining succeeds. -/
def execIrqHpd (d : Nat) (lockLost retrained : Bool) (s : State) : Host.Outcome State Fault Refusal :=
  .next (s.act (fun h => h.when (decide (d < 2)) (fun h => h.irqHpd d lockLost retrained)))

/-- HPD_UNPLUG (R416). -/
def execHpdUnplug (d : Nat) (s : State) : Host.Outcome State Fault Refusal :=
  .next (s.act (fun h => h.when (decide (d < 2)) (fun h => h.hpdUnplug d)))

/-- HPD_PLUG (R416): HPD reads 1 again. -/
def execHpdPlug (d : Nat) (s : State) : Host.Outcome State Fault Refusal :=
  .next (s.act (fun h => h.when (decide (d < 2)) (fun h => h.set (R.dpHpd d) 1)))

/-! The LP5 controller. -/

/-- LP5_ACCESS (R435, R404): a head (client 0 to 7) fetches the next burst of a plane, or the core (client 10) reads or
writes. The DMA engine and the bridge issue theirs in DMA_MOVE and in the commands of the bridge. -/
def execLp5Access (client plane : Nat) (wr : Bool) (addr len : Nat) (data : List Byte) (s : State) :
    Host.Outcome State Fault Refusal :=
  .next (s.act (fun h => h.when h.domainsOn (fun h =>
    if client < 8 then h.when (decide (plane < 3)) (fun h => h.headFetch client plane)
    else h.when (client == clCore) (fun h => h.coreAccess wr addr len data))))

/-- Does the controller work on its devices: trained, and not in a self-refresh state (R432)? -/
def Hub.lp5Working (h : Hub) : Bool := h.domainsOn && !h.lp5.failed && decide (h.get R.lp5Lpstate < 3)

/-- LP5_REFRESH (R432): refresh of one bank, at the interval that the latest MR4 reading requires. -/
def execLp5Refresh (bank : Nat) (s : State) : Host.Outcome State Fault Refusal :=
  .next (s.act (fun h => h.when h.lp5Working (fun h => h.emit (.words "LP5_REFRESH" bank [h.lp5.mr4]))))

/-- LP5_MR4_READ (R432): the devices read `v` in MR4. -/
def execLp5Mr4Read (v : Nat) (s : State) : Host.Outcome State Fault Refusal :=
  .next (s.act (fun h => h.when h.lp5Working (fun h =>
    ({ h with lp5 := { h.lp5 with mr4 := v % 256 } } : Hub).emit (.words "LP5_MR4_READ" 0 []))))

/-- LP5_ZQ_CALIBRATION (R432). -/
def execLp5ZqCalibration (s : State) : Host.Outcome State Fault Refusal :=
  .next (s.act (fun h => h.when h.lp5Working (fun h => h.emit (.words "LP5_ZQ" 0 []))))

/-- LP5_WCK_CHECK (R432): the oscillator reads `osc`, and its timing is corrected in refresh gaps. -/
def execLp5WckCheck (osc : Nat) (s : State) : Host.Outcome State Fault Refusal :=
  .next (s.act (fun h => h.when h.lp5Working (fun h => h.emit (.words "LP5_WCK" 0 [osc]))))

/-- LP5_STATE_ENTRY (R440): the deepest state that the idle time and the tolerances allow. -/
def execLp5StateEntry (s : State) : Host.Outcome State Fault Refusal :=
  .next (s.act (fun h => h.when h.domainsOn (fun h =>
    match h.lp5Deepest with
    | some st => h.lp5Enter st
    | none => h)))

/-- LP5_STATE_EXIT (R441). -/
def execLp5StateExit (s : State) : Host.Outcome State Fault Refusal :=
  .next (s.act (fun h => h.when (h.domainsOn && h.lp5MustExit) (fun h =>
    { h with lp5 := { h.lp5 with exiting := true } })))

/-- LP5_EXIT_COMPLETE (R441): ACTIVE, and the accesses that wait are served. -/
def execLp5ExitComplete (s : State) : Host.Outcome State Fault Refusal :=
  .next (s.act (fun h => h.when (h.domainsOn && h.lp5.exiting) (fun h => h.lp5Awake)))

/-- LP5_READ_RETURN (R436, R432): the oldest read of a client returns; `ecc` is 0, 1 for a corrected and 2 for an
uncorrectable read. -/
def execLp5ReadReturn (client ecc : Nat) (s : State) : Host.Outcome State Fault Refusal :=
  .next (s.act (fun h => h.when h.domainsOn (fun h => h.lp5Return client ecc)))

/-! The DMA engine: each step of a channel that runs. -/

/-- DMA_MOVE (R447 to R449, R451): a MOVE of channel `c`; `ecc` as in LP5_READ_RETURN. -/
def execDmaMove (c ecc : Nat) (s : State) : Host.Outcome State Fault Refusal :=
  .next (s.actAll (fun s => if c < 64 && s.hub.domainsOn then s.dmaMove c ecc else s))

/-- DMA_LOOP (R450). -/
def execDmaLoop (c : Nat) (s : State) : Host.Outcome State Fault Refusal :=
  .next (s.act (fun h => h.when (decide (c < 64) && h.domainsOn) (fun h => h.dmaLoop c)))

/-- DMA_ENDLOOP (R450). -/
def execDmaEndloop (c : Nat) (s : State) : Host.Outcome State Fault Refusal :=
  .next (s.act (fun h => h.when (decide (c < 64) && h.domainsOn) (fun h => h.dmaEndloop c)))

/-- DMA_WAIT (R451, R452). -/
def execDmaWait (c : Nat) (s : State) : Host.Outcome State Fault Refusal :=
  .next (s.act (fun h => h.when (decide (c < 64) && h.domainsOn) (fun h => h.dmaWait c)))

/-- DMA_SIGNAL (R452, R453). -/
def execDmaSignal (c : Nat) (s : State) : Host.Outcome State Fault Refusal :=
  .next (s.act (fun h => h.when (decide (c < 64) && h.domainsOn) (fun h => h.dmaSignal c)))

/-- DMA_FENCE (R454). -/
def execDmaFence (c : Nat) (s : State) : Host.Outcome State Fault Refusal :=
  .next (s.act (fun h => h.when (decide (c < 64) && h.domainsOn) (fun h => h.dmaFence c)))

/-- DMA_END (R454). -/
def execDmaEnd (c : Nat) (s : State) : Host.Outcome State Fault Refusal :=
  .next (s.act (fun h => h.when (decide (c < 64) && h.domainsOn) (fun h => h.dmaEnd c)))

/-- DMA_WRITE_RESPONSE (R454, R449): the frames of channel `c` that have been admitted have their responses. -/
def execDmaWriteResponse (c : Nat) (s : State) : Host.Outcome State Fault Refusal :=
  .next (s.act (fun h => h.when (decide (c < 64)) (fun h => h.dmaResponse c)))

/-- DMA_REQUEST (R451): request line `l` is asserted; lines 104 to 127 never are (Table 14-5). -/
def execDmaRequest (l : Nat) (s : State) : Host.Outcome State Fault Refusal :=
  .next (s.act (fun h => h.when (decide (l < 104)) (fun h => h.dmaReq l)))

/-- DMA_WAIT_TIMEOUT (R452). -/
def execDmaWaitTimeout (c : Nat) (s : State) : Host.Outcome State Fault Refusal :=
  .next (s.act (fun h => h.when (decide (c < 64)) (fun h => h.dmaTimeout c)))

/-- DOORBELL_START (R456): master `m` writes START to the doorbell of channel `c`. -/
def execDoorbellStart (m c tag : Nat) (posted : Bool) (s : State) : Host.Outcome State Fault Refusal :=
  .next (s.act (fun h => h.when (decide (c < 64)) (fun h => h.directWord m ⟨tag, posted⟩ (0x3002000 + c * 16) 1)))

/-- DOORBELL_STOP (R456): master `m` writes STOP to the doorbell of channel `c`. -/
def execDoorbellStop (m c tag : Nat) (posted : Bool) (s : State) : Host.Outcome State Fault Refusal :=
  .next (s.act (fun h => h.when (decide (c < 64)) (fun h => h.directWord m ⟨tag, posted⟩ (0x3002000 + c * 16) 2)))

end Sys2Proof.Machine
end

