-- ==== Sys2Proof/Machine/UsbFam.lean ====
section
/-!
DEFINITION. Meanings: USB (chapter 15). Buses: 0 the upstream bus, 1 the service bus. Devices: 0 the hub, 1 the embedded
device, 2 the service device. Downstream ports 0 to 15 are those of line ports L0 to L15, 16 is the internal port.
-/

namespace Sys2Proof.Machine

open Sys2Proof

/-! The buses. -/

/-- Is a bus connected: its pull-up is on? -/
def Hub.busOn (h : Hub) (bus : Nat) : Bool := if bus = 0 then h.flag R.usbUpConn else h.flag R.usbSvcConn

/-- Does a device answer the host: it exists, its bus is connected, and the embedded device is attached at port 17? -/
def Hub.devOn (h : Hub) (d : Nat) : Bool := decide (d < 3) && h.busOn (d / 2) && (d != 1 || h.portConn 16)

/-- Is hub port `p` one that the host can address? -/
def Hub.hubOn (h : Hub) (p : Nat) : Bool := decide (p < 17) && h.busOn 0

/-- USB_BUS_RESET (R481, R463): `during` a control transfer; `hs` where the chirp exchange ends in high speed. -/
def execUsbBusReset (bus : Nat) (during hs : Bool) (s : State) : Host.Outcome State Fault Refusal :=
  .next (s.act (fun h => h.when (decide (bus < 2) && h.busOn bus) (fun h => h.busReset bus during hs)))

/-- USB_SUSPEND (R483). -/
def execUsbSuspend (bus : Nat) (s : State) : Host.Outcome State Fault Refusal :=
  .next (s.act (fun h => h.when (decide (bus < 2) && h.busOn bus) (fun h => h.busSuspend bus)))

/-- USB_HOST_RESUME (R485): the resume begins, or, `done`, it has completed and the recovery time has passed. -/
def execUsbHostResume (bus : Nat) (done : Bool) (s : State) : Host.Outcome State Fault Refusal :=
  .next (s.act (fun h => h.when (decide (bus < 2) && h.busOn bus) (fun h => h.busResume bus done)))

/-- USB_REMOTE_WAKE (R484): device `d` samples the bus; `seenK` where it finds a K. -/
def execUsbRemoteWake (d : Nat) (seenK : Bool) (s : State) : Host.Outcome State Fault Refusal :=
  .next (s.act (fun h => h.when (h.devOn d) (fun h => h.remoteWake d seenK)))

/-- UPSTREAM_VBUS_VALID (R478): UP_VBUS (bus 0) or SVC_VBUS (bus 1) becomes valid or invalid. -/
def execUpstreamVbusValid (bus : Nat) (ok : Bool) (s : State) : Host.Outcome State Fault Refusal :=
  .next (s.act (fun h => h.when (decide (bus < 2)) (fun h => h.busVbus bus ok)))

/-! Requests of a host. -/

/-- SET_ADDRESS (R482), its status stage complete. -/
def execSetAddress (d a : Nat) (s : State) : Host.Outcome State Fault Refusal :=
  .next (s.act (fun h => h.when (h.devOn d && decide (a < 128)) (fun h => h.setAddress d a)))

/-- SET_CONFIGURATION (R470). -/
def execSetConfiguration (d v : Nat) (s : State) : Host.Outcome State Fault Refusal :=
  .next (s.act (fun h => h.when (h.devOn d) (fun h => h.setConfiguration d v)))

/-- SET_INTERFACE (R474). -/
def execSetInterface (d itf alt : Nat) (s : State) : Host.Outcome State Fault Refusal :=
  .next (s.act (fun h => h.when (h.devOn d) (fun h => h.setInterface d itf alt)))

/-- GET_TUNNEL_GEN (R467). -/
def execGetTunnelGen (s : State) : Host.Outcome State Fault Refusal :=
  .next (s.act (fun h => h.when (h.devOn 1) (fun h => h.tunnelGen)))

/-- LOG_SELECT (R473). -/
def execLogSelect (d v : Nat) (s : State) : Host.Outcome State Fault Refusal :=
  .next (s.act (fun h => h.when (h.devOn d && d != 0) (fun h => h.logSelect d v)))

/-- SET_FEATURE (R482, R484): a standard feature of device `d`. -/
def execSetFeature (d feature : Nat) (s : State) : Host.Outcome State Fault Refusal :=
  .next (s.act (fun h => h.when (h.devOn d) (fun h => h.usbSetFeature d feature)))

/-- USB_MANAGEMENT_TRANSFER (R468): a frame on the management function of device `d`, or none where the transfer is
malformed. -/
def execUsbManagementTransfer (d : Nat) (f : Option Frame) (s : State) : Host.Outcome State Fault Refusal :=
  .next (s.act (fun h => h.when (h.devOn d && d != 0) (fun h => h.management d f)))

/-- ISOCHRONOUS_REPORT (R471, R472): whether the firmware has built a new report, and the bytes that a DMA-fed buffer
holds. -/
def execIsochronousReport (rebuilt : Bool) (held : Nat) (s : State) : Host.Outcome State Fault Refusal :=
  .next (s.act (fun h => h.when (h.devOn 1) (fun h => h.isoReport rebuilt held)))

/-! Downstream ports. -/

/-- SET_PORT_FEATURE_PORT_POWER (R465). -/
def execSetPortFeaturePortPower (p : Nat) (s : State) : Host.Outcome State Fault Refusal :=
  .next (s.act (fun h => h.when (h.hubOn p) (fun h => h.portPower p true)))

/-- CLEAR_PORT_FEATURE_PORT_POWER (R465). -/
def execClearPortFeaturePortPower (p : Nat) (s : State) : Host.Outcome State Fault Refusal :=
  .next (s.act (fun h => h.when (h.hubOn p) (fun h => h.portPower p false)))

/-- SET_PORT_FEATURE_PORT_RESET (R464). -/
def execSetPortFeaturePortReset (p : Nat) (s : State) : Host.Outcome State Fault Refusal :=
  .next (s.act (fun h => h.when (h.hubOn p) (fun h => h.portReset p)))

/-- SET_PORT_FEATURE_PORT_SUSPEND (R483). -/
def execSetPortFeaturePortSuspend (p : Nat) (s : State) : Host.Outcome State Fault Refusal :=
  .next (s.act (fun h => h.when (h.hubOn p) (fun h => h.portSuspend p)))

/-- CLEAR_PORT_FEATURE_PORT_SUSPEND (R485). -/
def execClearPortFeaturePortSuspend (p : Nat) (s : State) : Host.Outcome State Fault Refusal :=
  .next (s.act (fun h => h.when (h.hubOn p) (fun h => h.portResume p)))

/-- CLEAR_PORT_FEATURE_CHANGE (R466): bit 0 connection, 2 suspend, 3 over-current, 4 reset. -/
def execClearPortFeatureChange (p b : Nat) (s : State) : Host.Outcome State Fault Refusal :=
  .next (s.act (fun h => h.when (h.hubOn p && decide (b < 5)) (fun h => h.portClearChange p b)))

/-- PORT_RESET_COMPLETE (R464, R463): the speed negotiated is 0 full, 1 low, 2 high. -/
def execPortResetComplete (p speed : Nat) (s : State) : Host.Outcome State Fault Refusal :=
  .next (s.act (fun h => h.when (decide (p < 17) && decide (speed < 3)) (fun h => h.portResetDone p speed)))

/-- DOWNSTREAM_RESUME_END (R485). -/
def execDownstreamResumeEnd (p : Nat) (s : State) : Host.Outcome State Fault Refusal :=
  .next (s.act (fun h => h.when (decide (p < 17)) (fun h => h.portResumeEnd p)))

/-- DOWNSTREAM_CONNECT (R464). -/
def execDownstreamConnect (p : Nat) (s : State) : Host.Outcome State Fault Refusal :=
  .next (s.act (fun h => h.when (decide (p < 16)) (fun h => h.portConnect p)))

/-- DOWNSTREAM_DISCONNECT (R465, R484). -/
def execDownstreamDisconnect (p : Nat) (s : State) : Host.Outcome State Fault Refusal :=
  .next (s.act (fun h => h.when (decide (p < 16) && h.portConn p) (fun h => h.portLeave p)))

/-- DOWNSTREAM_REMOTE_WAKE (R485). -/
def execDownstreamRemoteWake (p : Nat) (s : State) : Host.Outcome State Fault Refusal :=
  .next (s.act (fun h => h.when (decide (p < 16)) (fun h => h.portWake p)))

/-- USB_OVER_CURRENT (R466). -/
def execUsbOverCurrent (p : Nat) (s : State) : Host.Outcome State Fault Refusal :=
  .next (s.act (fun h => h.when (decide (p < 16)) (fun h => h.portOc p)))

/-- VBUS_LOSS (R465): the power region no longer reports VBUS of the port valid. -/
def execVbusLoss (p : Nat) (s : State) : Host.Outcome State Fault Refusal :=
  .next (s.act (fun h => h.when (decide (p < 16) && !h.vbusGood p) (fun h => h.vbusLoss p)))

/-! Sessions. -/

/-- SERVICE_SESSION_END (R480): the session's time has run out. -/
def execServiceSessionEnd (s : State) : Host.Outcome State Fault Refusal :=
  .next (s.act (fun h => h.when h.sessionOpen (fun h => h.sessionEnd)))

end Sys2Proof.Machine
end

