-- ==== Sys2Proof/Machine/CcFam.lean ====
section
/-!
DEFINITION. Meanings: cable attach and power negotiation (chapter 16). Ports are line ports 0 to 15; on a slot port, which
has no PHY, nothing of this happens.
-/

namespace Sys2Proof.Machine

open Sys2Proof

/-! Attach and detach. -/

/-- CC_COMBINATION_CHANGE (R491): the wires are 0 open, 1 Ra, 2 Rd, 3 Rp; `vbus` is VBUS above 3.67 V; `rplvl` the Rp level
that a sink sees. -/
def execCcCombinationChange (n w1 w2 : Nat) (vbus : Bool) (rplvl : Nat) (s : State) : Host.Outcome State Fault Refusal :=
  .next (s.act (fun h => h.when (decide (n < 16) && decide (w1 < 4) && decide (w2 < 4) && decide (rplvl < 4)) (fun h =>
    h.ccChange n w1 w2 vbus rplvl)))

/-- CC_DEBOUNCE_EXPIRY (R491, R493): the combination has stood for tCCDebounce. -/
def execCcDebounceExpiry (n : Nat) (s : State) : Host.Outcome State Fault Refusal :=
  .next (s.act (fun h => h.when (decide (n < 16) && h.ccOn n) (fun h => h.ccDebounce n)))

/-- CC_DETACH (R491). -/
def execCcDetach (n : Nat) (s : State) : Host.Outcome State Fault Refusal :=
  .next (s.act (fun h => h.when (decide (n < 16) && h.ccOn n) (fun h => h.ccDetach n)))

/-- DETACH_IN_TRANSITION (R503). -/
def execDetachInTransition (n : Nat) (s : State) : Host.Outcome State Fault Refusal :=
  .next (s.act (fun h => h.when (decide (n < 16) && h.ccOn n) (fun h => h.ccDetachTrans n)))

/-- ERROR_RECOVERY_END (R491): tErrorRecovery has passed. -/
def execErrorRecoveryEnd (n : Nat) (s : State) : Host.Outcome State Fault Refusal :=
  .next (s.act (fun h => h.when (decide (n < 16) && h.ccOn n) (fun h => h.ccRecovered n)))

/-- VCONN_OVER_CURRENT (R494). -/
def execVconnOverCurrent (n : Nat) (s : State) : Host.Outcome State Fault Refusal :=
  .next (s.act (fun h => h.when (decide (n < 16) && h.ccOn n) (fun h => h.vconnOc n)))

/-- VBUS_LEVEL_REACHED (R491, R504, R506, R535): 0 within vSafe5V, 1 below vSafe0V, 2 neither, 3 within 5 % of the
set-point. -/
def execVbusLevelReached (n lvl : Nat) (s : State) : Host.Outcome State Fault Refusal :=
  .next (s.act (fun h => h.when (decide (n < 16) && h.ccOn n) (fun h => h.vbusLevel n lvl)))

/-- SINK_VBUS_LOSS (R491). -/
def execSinkVbusLoss (n : Nat) (s : State) : Host.Outcome State Fault Refusal :=
  .next (s.act (fun h => h.when (decide (n < 16) && h.ccOn n) (fun h => h.sinkVbusLoss n)))

/-- CC_POLL_WINDOW (R589): in ember the port presents its termination for 1 ms; `seen` where a partner answers. -/
def execCcPollWindow (n : Nat) (seen : Bool) (s : State) : Host.Outcome State Fault Refusal :=
  .next (s.act (fun h => h.ccPoll n seen))

/-! Messages. -/

/-- PD_MESSAGE_RECEIVED (R497, R498): SOP type 0 to 4, 6 for a Cable Reset; header, data, and whether its CRC is right. -/
def execPdMessageReceived (n sopt hdr : Nat) (data : List Byte) (crcOk : Bool) (s : State) :
    Host.Outcome State Fault Refusal :=
  .next (s.act (fun h => h.when (decide (n < 16)) (fun h => h.pdReceive n sopt (hdr % 65536) data crcOk)))

/-- GOODCRC_TIMEOUT (R499). -/
def execGoodcrcTimeout (n : Nat) (s : State) : Host.Outcome State Fault Refusal :=
  .next (s.act (fun h => h.when (decide (n < 16)) (fun h => h.pdNoAck n)))

/-- POLICY_TIMER_EXPIRY (R509): one-shot timer `t` of the port. -/
def execPolicyTimerExpiry (n t : Nat) (s : State) : Host.Outcome State Fault Refusal :=
  .next (s.act (fun h => h.when (decide (n < 16)) (fun h => h.policyExpiry n t)))

/-! Hard reset and fast role swap. -/

/-- HARD_RESET (R504): a Hard Reset signal, `sent` or received. -/
def execHardReset (n : Nat) (sent : Bool) (s : State) : Host.Outcome State Fault Refusal :=
  .next (s.act (fun h => h.when (decide (n < 16)) (fun h => h.hardReset n sent)))

/-- HARD_RESET_SOURCE_OFF (R504): tPSHardReset has passed. -/
def execHardResetSourceOff (n : Nat) (s : State) : Host.Outcome State Fault Refusal :=
  .next (s.act (fun h => h.when (decide (n < 16)) (fun h => h.hardResetOff n)))

/-- HARD_RESET_RECOVER (R504): tSrcRecover has passed. -/
def execHardResetRecover (n : Nat) (s : State) : Host.Outcome State Fault Refusal :=
  .next (s.act (fun h => h.when (decide (n < 16)) (fun h => h.hardResetRecover n)))

/-- HARD_RESET_SINK_TIMEOUT (R504): VBUS has not come back within 1.925 s. -/
def execHardResetSinkTimeout (n : Nat) (s : State) : Host.Outcome State Fault Refusal :=
  .next (s.act (fun h => h.when (decide (n < 16)) (fun h => h.hardResetLost n)))

/-- FAST_ROLE_SWAP_SIGNAL (R506). -/
def execFastRoleSwapSignal (n : Nat) (s : State) : Host.Outcome State Fault Refusal :=
  .next (s.act (fun h => h.when (decide (n < 16) && h.ccOn n) (fun h => h.frsSignal n)))

/-- FRS_SOURCE_ON (R506): VBUS has fallen below 4.75 V. -/
def execFrsSourceOn (n : Nat) (s : State) : Host.Outcome State Fault Refusal :=
  .next (s.act (fun h => h.when (decide (n < 16)) (fun h => h.frsSource n)))

/-- FRS_TIMEOUT (R506): 100 ms have passed since the signal. -/
def execFrsTimeout (n : Nat) (s : State) : Host.Outcome State Fault Refusal :=
  .next (s.act (fun h => h.when (decide (n < 16)) (fun h => h.frsTimeout n)))

/-- FRS_PARTNER_GONE (R507). -/
def execFrsPartnerGone (n : Nat) (s : State) : Host.Outcome State Fault Refusal :=
  .next (s.act (fun h => h.when (decide (n < 16)) (fun h => h.frsGone n)))

/-- EPR_KEEPALIVE_TIMEOUT (R508). -/
def execEprKeepaliveTimeout (n : Nat) (s : State) : Host.Outcome State Fault Refusal :=
  .next (s.act (fun h => h.when (decide (n < 16)) (fun h => h.eprLost n)))

end Sys2Proof.Machine
end

