-- ==== Sys2Proof/Machine/PowerFam.lean ====
section
/-!
DEFINITION. Meanings: feeds, hot insertion and port power (chapter 17). Stages are those of line ports 0 to 15; a path is
0 to 15 a stage, 16 and 17 the feeds.
-/

namespace Sys2Proof.Machine

open Sys2Proof

/-! Feeds. -/

/-- FEED_HEALTH_CHANGE (R518, R519): what the samples of feed `f` say now; `excess` where it is above OV. -/
def execFeedHealthChange (f : Nat) (healthy excess : Bool) (s : State) : Host.Outcome State Fault Refusal :=
  .next (s.act (fun h => h.when (decide (f < 2)) (fun h => h.feedHealth f healthy excess)))

/-- FEED_INRUSH_END (R519). -/
def execFeedInrushEnd (f : Nat) (s : State) : Host.Outcome State Fault Refusal :=
  .next (s.act (fun h => h.when (decide (f < 2)) (fun h => h.feedInrushEnd f)))

/-- DEAD_TIME_EXPIRY (R519, R520). -/
def execDeadTimeExpiry (s : State) : Host.Outcome State Fault Refusal := .next (s.act (fun h => h.deadOver))

/-- FEED_REVERT (R519): the primary feed has been healthy for REVERT. -/
def execFeedRevert (s : State) : Host.Outcome State Fault Refusal := .next (s.act (fun h => h.feedRevert))

/-- FEED_GATE_FAIL (R519). -/
def execFeedGateFail (s : State) : Host.Outcome State Fault Refusal := .next (s.act (fun h => h.feedGateFail))

/-- FEED_BAR_EXPIRY (R518): 1 s has passed since the trip of feed `f`. -/
def execFeedBarExpiry (f : Nat) (s : State) : Host.Outcome State Fault Refusal :=
  .next (s.act (fun h => h.when (decide (f < 2)) (fun h => h.feedBarOver f)))

/-- FEED_NONE (R521): the selection has stayed NONE for 1 ms. -/
def execFeedNone (s : State) : Host.Outcome State Fault Refusal := .next (s.act (fun h => h.feedsGone))

/-- FEED_WARN (R522). -/
def execFeedWarn (s : State) : Host.Outcome State Fault Refusal := .next (s.act (fun h => h.feedWarning))

/-- FEED_WARN_RELEASE (R522). -/
def execFeedWarnRelease (s : State) : Host.Outcome State Fault Refusal := .next (s.act (fun h => h.warnRelease))

/-! Starts. -/

/-- SEATING_DEBOUNCE (R523): both seating pins of slot port `n` have been low for SEAT_DB. -/
def execSeatingDebounce (n : Nat) (s : State) : Host.Outcome State Fault Refusal :=
  .next (s.act (fun h => h.when (decide (n < 16) && h.isSlot n) (fun h => h.seatingDone n)))

/-- INSERTION_DELAY (R523): presence and the voltage window of slot port `n` have held for INS_DLY. -/
def execInsertionDelay (n : Nat) (s : State) : Host.Outcome State Fault Refusal :=
  .next (s.act (fun h => h.when (decide (n < 16) && h.isSlot n) (fun h => h.insertionDone n)))

/-- START_REQUEST (R523, R525). -/
def execStartRequest (n : Nat) (s : State) : Host.Outcome State Fault Refusal :=
  .next (s.act (fun h => h.when (decide (n < 16)) (fun h => h.startRequest n)))

/-- BUDGET_ADMIT (R525, R526): `samples` gives the new code of each converter channel that has one. -/
def execBudgetAdmit (s : State) (samples : List (Nat × Nat) := []) : Host.Outcome State Fault Refusal :=
  .next (s.act (fun h => h.budgetCycle samples))

/-- STAGE_REMOVAL (R524): the start condition of slot port `n` ends; whether it reads seated and present after it. -/
def execStageRemoval (n : Nat) (seated pres : Bool) (s : State) : Host.Outcome State Fault Refusal :=
  .next (s.act (fun h => h.when (decide (n < 16) && h.isSlot n) (fun h => h.stageRemoval n seated pres)))

/-- INRUSH_END (R527). -/
def execInrushEnd (n : Nat) (s : State) : Host.Outcome State Fault Refusal :=
  .next (s.act (fun h => h.when (decide (n < 16)) (fun h => h.inrushEnd n)))

/-- A path trips, where its state lets the trip act. -/
def Hub.tripWhen (h : Hub) (p : Nat) (c : Bool) (l : List Nat) : Hub := h.when (decide (p < 18) && c) (fun h => h.pathTrip p l)

/-- INRUSH_TIMEOUT (R527, Table 17-2): T_INR has passed on path `p`. -/
def execInrushTimeout (p : Nat) (s : State) : Host.Outcome State Fault Refusal :=
  .next (s.act (fun h => h.tripWhen p (h.pathInrush p) [caInrTmo]))

/-! Trips. -/

/-- BREAKER_TRIP (R530): a timer of the curve reaches its limit; in inrush the curve is not evaluated (R527). -/
def execBreakerTrip (p : Nat) (s : State) : Host.Outcome State Fault Refusal :=
  .next (s.act (fun h => h.tripWhen p (h.pathOn p) [caCurve]))

/-- INSTANT_TRIP (R531): `curve` where the curve trips on the same cycle. -/
def execInstantTrip (p : Nat) (curve : Bool) (s : State) : Host.Outcome State Fault Refusal :=
  .next (s.act (fun h => h.tripWhen p (h.pathInrush p || h.pathOn p)
    (if curve && h.pathOn p then [caCurve, caItrip] else [caItrip])))

/-- OC_TRIP (R531). -/
def execOcTrip (p : Nat) (s : State) : Host.Outcome State Fault Refusal :=
  .next (s.act (fun h => h.tripWhen p
    ((h.pathInrush p || h.pathOn p) && if p < 16 then h.flag (R.stgOcEn p) else h.flag (R.feedOcEn (p - 16))) [caOc]))

/-- GATE_FAIL (R531): GATE_OK has stayed low for 2 µs. -/
def execGateFail (p : Nat) (s : State) : Host.Outcome State Fault Refusal :=
  .next (s.act (fun h => h.tripWhen p (h.pathOn p) [caGateFail]))

/-- OVP_TRIP (R531): the output of cable port `n` has stayed 10 % above its set-point for 10 µs. -/
def execOvpTrip (n : Nat) (s : State) : Host.Outcome State Fault Refusal :=
  .next (s.act (fun h => h.tripWhen n
    (decide (n < 16) && !h.isSlot n && (h.pathInrush n || h.pathOn n)) [caOvp]))

/-! What follows. -/

/-- POWER_GOOD (R532, R533): the conditions have held for PG_DG; `fault` where the fault timer starts or runs. -/
def execPowerGood (n : Nat) (fault : Bool) (s : State) : Host.Outcome State Fault Refusal :=
  .next (s.act (fun h => h.when (decide (n < 16)) (fun h => h.powerGood n fault)))

/-- RETRY_EXPIRY (R528). -/
def execRetryExpiry (n : Nat) (s : State) : Host.Outcome State Fault Refusal :=
  .next (s.act (fun h => h.when (decide (n < 16)) (fun h => h.retryExpiry n)))

/-- TRIES_RESET (R528). -/
def execTriesReset (n : Nat) (s : State) : Host.Outcome State Fault Refusal :=
  .next (s.act (fun h => h.when (decide (n < 16)) (fun h => h.triesReset n)))

/-- START_STALL (R525). -/
def execStartStall (n : Nat) (s : State) : Host.Outcome State Fault Refusal :=
  .next (s.act (fun h => h.when (decide (n < 16)) (fun h => h.startStall n)))

/-- VSET_TIMEOUT (R535): the output of cable port `n` is not within 5 % 275 ms after a change. -/
def execVsetTimeout (n : Nat) (s : State) : Host.Outcome State Fault Refusal :=
  .next (s.act (fun h => h.when (decide (n < 16) && !h.isSlot n && h.stageIs n sgOn) (fun h => h.vsetTimeout n)))

end Sys2Proof.Machine
end

