-- ==== Sys2Proof/Machine/PsFam.lean ====
section
/-!
DEFINITION. Meanings: wake, return and entry of the power states (chapter 20), mailboxes and the SMBus port (chapter 21).
-/

namespace Sys2Proof.Machine

open Sys2Proof

/-! Power states. -/

/-- WAKE (R587, R601): the sources that are active, as CTL_PS_WAKESRC lays them out, and RESET_N. -/
def execWake (hi lo : Nat) (rstn : Bool) (s : State) : Host.Outcome State Fault Refusal :=
  .next (s.act (fun h => h.wake hi lo rstn))

/-- RETURN_STAGE_READY (R593, R594): at stage 3 of a return from ember, `answers` is false where the LP5 devices do not
answer: their contents are lost, and `training` is the outcome of the training that follows. `dp` has a bit for each DP
output that trains. -/
def execReturnStageReady (answers : Bool) (training : Option (Nat × Bool × Nat)) (dp : Nat) (s : State) :
    Host.Outcome State Fault Refusal :=
  .next (s.actAll (fun s =>
    let lost := !answers && s.hub.psIs psReturning && s.hub.get R.psStage == 3 && s.hub.ctl.fromEmber
    { s with hub := s.hub.returnStage (if lost then some training else none) dp
             mem := if lost then s.mem.filter (fun c => isEp c.1) else s.mem }))

/-- RETURN_STAGE_TIMEOUT (R594): a ready signal has not risen within 100 ms, and the chip enters ember. -/
def execReturnStageTimeout (s : State) : Host.Outcome State Fault Refusal :=
  .next (s.actAll (fun s =>
    { s with hub := s.hub.returnTimeout, mem := if s.hub.psIs psReturning then memEmber s.mem else s.mem }))

/-- HANDSHAKE_ANSWER (R584): the block with this code of Table 20-2 answers; `wake` where an enabled wake source is
active. -/
def execHandshakeAnswer (code : Nat) (wake : Bool) (s : State) : Host.Outcome State Fault Refusal :=
  .next (s.act (fun h => h.handshake code wake))

/-- ENTRY_MAX_TIMEOUT (R584). -/
def execEntryMaxTimeout (s : State) : Host.Outcome State Fault Refusal := .next (s.act (fun h => h.entryMax))

/-- ENTRY_SEQUENCE (R585): past the point of no return the entry runs to its end; ember loses endpoint memory. -/
def execEntrySequence (s : State) : Host.Outcome State Fault Refusal :=
  .next (s.actAll (fun s =>
    let ember := match s.hub.ctl.entry with | some e => e.past.isSome && e.target != 2 | none => false
    { s with hub := s.hub.entrySequence, mem := if ember then memEmber s.mem else s.mem }))

/-! Mailboxes. -/

/-- DOORBELL (R605): master `m` writes SEQ to its doorbell. -/
def execDoorbell (m seq tag : Nat) (posted : Bool) (s : State) : Host.Outcome State Fault Refusal :=
  .next (s.act (fun h => h.when (decide (m < 8)) (fun h => h.directWord m ⟨tag, posted⟩ (0x7010800 + m * 0x1000) (seq % 65536))))

/-- The hardware action of a waiting command ends (R616): the completion step joins the service order. A message, a
restore and an entry end by themselves; `ok` says how the others end, or that a restore fails. -/
def Hub.actionEnd (h : Hub) (m : Nat) (ok : Bool) : Hub :=
  match h.parkedOf m with
  | none => h
  | some (_, p) =>
    let due := !h.ctl.order.contains m && match p with
      | .pd n => (h.cc n).txRes.isSome
      | .spare c l => !ok || (h.port c).restore != some l
      | .enter => h.ctl.entryEnd.isSome
      | _ => true
    if !due then h
    else
      let h := match p with | .advance d => h.fuseBlown d | _ => h
      h.modCtl (fun c => { c with order := c.order ++ [m], ended := tabSet c.ended (k1 m) (if ok then 1 else 2) 0 })

/-- PARKED_COMPLETION (R616). -/
def execParkedCompletion (m : Nat) (ok : Bool) (s : State) : Host.Outcome State Fault Refusal :=
  .next (s.act (fun h => h.actionEnd m ok))

/-! The SMBus management port. -/

/-- SMBUS_SET_POINTER (R621). -/
def execSmbusSetPointer (v : Nat) (pecOk : Bool) (s : State) : Host.Outcome State Fault Refusal :=
  .next (s.act (fun h => h.smbPointer v pecOk))

/-- SMBUS_BLOCK_WRITE (R621). -/
def execSmbusBlockWrite (data : List Byte) (pecOk : Bool) (s : State) : Host.Outcome State Fault Refusal :=
  .next (s.act (fun h => h.smbWrite data pecOk))

/-- SMBUS_BLOCK_READ (R621). -/
def execSmbusBlockRead (s : State) : Host.Outcome State Fault Refusal := .next (s.act (fun h => h.smbRead))

/-- SMBUS_READ_SUMMARY (R621). -/
def execSmbusReadSummary (s : State) : Host.Outcome State Fault Refusal := .next (s.act (fun h => h.smbSummary))

end Sys2Proof.Machine
end

