-- ==== Sys2Proof/WellFormed.lean ====
section
/-!
DEFINITION. Which commands are well formed: every operand fits the field, or the range of indexes, that the rule of the
command gives it. The meanings are total: where an operand is out of range they have no effect, or answer BAD_ARG.
-/

namespace Sys2Proof

/-- A master that gives commands: 0 to 7 by mailbox, 14 the test access port (Table 1-11). -/
def okMaster (m : Nat) : Bool := decide (m < 8) || m == 14

/-- Port code of a trunk or line port. -/
def okLink (c : Nat) : Bool := decide (1 ≤ c) && decide (c ≤ 20)

/-- Port code. -/
def okCode (c : Nat) : Bool := decide (1 ≤ c) && decide (c ≤ 24)

/-- Words of 32 bits. -/
def words32 (ws : List Nat) : Bool := ws.all (fun w => decide (w < 2 ^ 32))

/-- Does what is there, if anything is, satisfy `p`? -/
def optAll {α : Type} (p : α → Bool) : Option α → Bool
  | some a => p a
  | none => true

/-- An outcome of LP5 training: a rate of Table 14-11 and a density code. -/
def lp5Ok (r : Nat × Bool × Nat) : Bool := decide (r.1 < 3) && decide (r.2.2 < 16)

/-- Fields of a node-bus header (Table 11-7). -/
def NbHead.wf (x : NbHead) : Bool :=
  decide (x.op < 16) && decide (x.status < 16) && decide (x.tag < 256) && decide (x.rlen < 512) && decide (x.addr < 2 ^ 64)

/-- Fields of a frame header (Table 4-9). -/
def Frame.wf (f : Frame) : Bool :=
  decide (f.tid < 4096) && decide (f.gen < 16) && decide (f.cls < 8) && decide (f.seq < 65536) && decide (f.tag < 65536) &&
  decide (f.op < 16) && decide (f.status < 16) && decide (f.rlen < 16384) && decide (f.addr < 2 ^ 64) &&
  decide (f.len < 16384) && optAll NbHead.wf f.nb

/-- A received block: a lane, a sync header of two bits and 64 payload bits (R106). -/
def Block.wf (b : Block) : Bool := decide (b.lane < 5) && decide (b.hdr < 4) && decide (b.w < 2 ^ 64)

/-- Well-formed commands. -/
def Instr.wf : Instr → Bool
  | .powerOn lkind lsnk _ smbadr => decide (lkind < 65536) && decide (lsnk < 65536) && decide (smbadr < 4)
  | .firmwareReady fails lp5 => decide (fails < 256) && optAll lp5Ok lp5
  | .brownOut lkind lsnk _ smbadr => decide (lkind < 65536) && decide (lsnk < 65536) && decide (smbadr < 4)
  | .supplyOutOfRange lkind lsnk _ smbadr => decide (lkind < 65536) && decide (lsnk < 65536) && decide (smbadr < 4)
  | .resetNLow => true
  | .resetNRelease => true
  | .warmReset => true
  | .errorLineRise i detail => decide (i < 256) && decide (detail < 65536)
  | .quench i => decide (i < 256)
  | .faultNPulseEnd => true
  | .coreWdog => true
  | .regionStatusClear m r mask tag _ => okMaster m && decide (r < 8) && decide (mask < 2 ^ 32) && decide (tag < 65536)
  | .registerWrite m addr _ tag _ => okMaster m && decide (addr < 2 ^ 27) && decide (tag < 65536)
  | .queueCounterReadClear m addr _ tag => okMaster m && decide (addr < 2 ^ 27) && decide (tag < 65536)
  | .tickBoundary => true
  | .tickOverrun => true
  | .strikeSummaryBuild => true
  | .strikeSummaryPlaced => true
  | .faultCollectorSweep => true
  | .notificationQueueing => true
  | .queueSampling => true
  | .timeExchangeService => true
  | .tempering .. => true
  | .telemetryMirrorSend => true
  | .rasterFetchAccounting => true
  | .keyRotationPreparation => true
  | .twiopCommandService .. => true
  | .serviceSlotEnd => true
  | .timeRequest m _ => decide (m < 4)
  | .timeReport m _ => decide (m < 4)
  | .frameIngress c k f _ => okCode c && decide (k < 4) && (okLink c == f.isNone) && optAll Frame.wf f
  | .fenceRelease c => okCode c
  | .heldFrameRejudge => true
  | .holdTimeout c k => okCode c && decide (k < 4)
  | .ctWaitTimeout t dir => decide (t < 4096) && decide (dir < 2)
  | .scrubSweep reads differ => reads.2.all (fun a => decide (a < 131072)) && differ.all (fun k => decide (k < 2 * 4117))
  | .egressSelect e ecc => okCode e && decide (ecc < 4)
  | .bellowsReady t dir => decide (t < 4096) && decide (dir < 2)
  | .guardExpiry e => okCode e
  | .schStarve e => okCode e
  | .drainComplete t => decide (t < 4096)
  | .drainTimeout t => decide (t < 4096)
  | .quarantineEnd t => decide (t < 4096)
  | .signalDetect c => okLink c
  | .trainReceived c l _ => okLink c && decide (l < 5)
  | .fomMeasurement c l _ => okLink c && decide (l < 5)
  | .capTimeout c => okLink c
  | .eqTimeout c => okLink c
  | .readyTimeout c => okLink c
  | .linkUnitReceived c ccls seq _ cnt crc blocks last => okLink c && decide (ccls < 4) && decide (seq < 2 ^ 15) &&
    decide (cnt < 64) && decide (crc < 2 ^ 32) && blocks.all Block.wf && optAll (fun p => decide (p.1 < 5) && decide (p.2 < 4)) last
  | .ackReceived c k ackSeq => okLink c && decide (k < 4) && decide (ackSeq < 2 ^ 15)
  | .nakReceived c k ackSeq nseq => okLink c && decide (k < 4) && decide (ackSeq < 2 ^ 15) && decide (nseq < 2 ^ 15)
  | .creditReceived c ctl iso rtx blk =>
    okLink c && decide (ctl < 2 ^ 14) && decide (iso < 2 ^ 14) && decide (rtx < 2 ^ 14) && decide (blk < 2 ^ 14)
  | .csyncReceived c iso blk => okLink c && decide (iso < 2 ^ 14) && decide (blk < 2 ^ 14)
  | .probeReceived c pid _ => okLink c && decide (pid < 2 ^ 16)
  | .alignReceived c _ _ marks => okLink c && marks.all Block.wf
  | .eidleReceived c => okLink c
  | .ackPeriod c => okLink c
  | .nakResend c k => okLink c && decide (k < 4)
  | .replayTimeout c k => okLink c && decide (k < 4)
  | .creditPeriod c => okLink c
  | .csyncPeriod c => okLink c
  | .linkSilent c => okLink c
  | .linkUnitBoundary c ecc => okLink c && decide (ecc < 4)
  | .ident n host _ => decide (n < 4) && decide (host < 16)
  | .proof n _ => decide (n < 4)
  | .proofTimeout n => decide (n < 4)
  | .electricalIdleEntry c => okLink c
  | .electricalIdleExit c _ _ => okLink c
  | .lossOfSignal c l => okLink c && decide (l < 5)
  | .lossOfLock c bad => okLink c && decide (bad.1 < 5) && decide (bad.2 ≤ 64)
  | .lossOfAlignment c l => okLink c && decide (l < 5)
  | .failedEye c l => okLink c && decide (l < 5)
  | .spareMism c rows => okLink c && rows.all (fun r => optAll (fun j => decide (j < 4)) r.1)
  | .temperUndo c l => okLink c && decide (l < 5)
  | .laneRestoreSwitch c => okLink c
  | .trigInEdge i _ _ => decide (i < 32)
  | .strikeReceived c copies => okLink c && copies.all Block.wf
  | .strikeRowSend c => okLink c
  | .pulseEnd k => decide (k < 32)
  | .pulseCrossingAck ch => decide (ch < 256)
  | .summaryReconcile n via _ => decide (n < 4) && decide (via < 5)
  | .summaryTimeout n k => decide (n < 4) && decide (k < 2 ^ 48)
  | .creditStall n k => decide (n < 4) && decide (k < 4)
  | .retrainWaitExpiry n => decide (n < 4)
  | .autoReturn n => decide (n < 4)
  | .tunnelReturn t dir => decide (t < 4096) && decide (dir < 2)
  | .deputyTakeover => true
  | .lineAttachCondition n => decide (n < 16)
  | .lineAttachConditionEnd n => decide (n < 16)
  | .nodeinfo n _ => decide (n < 16)
  | .nodeProof n _ => decide (n < 16)
  | .depart n => decide (n < 16)
  | .helloTimeout n => decide (n < 16)
  | .lineRetrainWait n => decide (n < 16)
  | .nodeBusRd n f _ => decide (n < 16) && f.wf
  | .nodeBusWr n f => decide (n < 16) && f.wf
  | .nodeBusPwr n f => decide (n < 16) && f.wf
  | .nodeBusResponse n f => decide (n < 16) && f.wf
  | .nodeBusTimeout n => decide (n < 16)
  | .storageRead f => f.wf
  | .storageWrite f => f.wf
  | .pieceComplete => true
  | .holdExpiry t gen tag => decide (t < 4096) && decide (gen < 16) && decide (tag < 65536)
  | .nodeHoldExpiry n addr len => decide (n < 16) && decide (addr < 2 ^ 40) && decide (len < 257)
  | .telemetryUpdate f => f.wf
  | .latchPoint n => decide (n < 8)
  | .flipArm m n id _ tag _ => okMaster m && decide (n < 8) && decide (id < 65536) && decide (tag < 65536)
  | .flipAddressWrite m n p _ v tag _ =>
    okMaster m && decide (n < 8) && decide (p < 3) && decide (v < 2 ^ 32) && decide (tag < 65536)
  | .pixelPllLock n => decide (n < 8)
  | .underflow n => decide (n < 8)
  | .rasterLineSend n => decide (n < 8)
  | .witnessBandCompare n _ => decide (n < 8)
  | .irqHpd d _ _ => decide (d < 2)
  | .hpdUnplug d => decide (d < 2)
  | .lp5Access client plane _ addr _ _ => decide (client < 11) && decide (plane < 3) && decide (addr < 2 ^ 40)
  | .lp5Refresh bank => decide (bank < 32)
  | .lp5Mr4Read v => decide (v < 256)
  | .lp5ZqCalibration => true
  | .lp5WckCheck .. => true
  | .lp5StateEntry => true
  | .lp5StateExit => true
  | .dmaMove c ecc => decide (c < 64) && decide (ecc < 3)
  | .dmaLoop c => decide (c < 64)
  | .dmaEndloop c => decide (c < 64)
  | .dmaWait c => decide (c < 64)
  | .dmaSignal c => decide (c < 64)
  | .dmaFence c => decide (c < 64)
  | .dmaEnd c => decide (c < 64)
  | .dmaWriteResponse c => decide (c < 64)
  | .dmaRequest l => decide (l < 104)
  | .dmaWaitTimeout c => decide (c < 64)
  | .doorbellStart m c tag _ => okMaster m && decide (c < 64) && decide (tag < 65536)
  | .doorbellStop m c tag _ => okMaster m && decide (c < 64) && decide (tag < 65536)
  | .usbBusReset bus _ _ => decide (bus < 2)
  | .usbSuspend bus => decide (bus < 2)
  | .usbHostResume bus _ => decide (bus < 2)
  | .usbRemoteWake d _ => decide (d < 3)
  | .setAddress d a => decide (d < 3) && decide (a < 128)
  | .setConfiguration d v => decide (d < 3) && decide (v < 256)
  | .setInterface d itf alt => decide (d < 3) && decide (itf < 256) && decide (alt < 256)
  | .getTunnelGen => true
  | .logSelect d v => decide (d < 3) && decide (v < 256)
  | .setPortFeaturePortPower p => decide (p < 17)
  | .clearPortFeaturePortPower p => decide (p < 17)
  | .setPortFeaturePortReset p => decide (p < 17)
  | .setPortFeaturePortSuspend p => decide (p < 17)
  | .clearPortFeaturePortSuspend p => decide (p < 17)
  | .usbManagementTransfer d f => decide (d < 3) && optAll Frame.wf f
  | .isochronousReport .. => true
  | .usbOverCurrent p => decide (p < 17)
  | .vbusLoss p => decide (p < 17)
  | .serviceSessionEnd => true
  | .ccCombinationChange n w1 w2 _ rplvl => decide (n < 16) && decide (w1 < 4) && decide (w2 < 4) && decide (rplvl < 4)
  | .ccDebounceExpiry n => decide (n < 16)
  | .ccDetach n => decide (n < 16)
  | .detachInTransition n => decide (n < 16)
  | .errorRecoveryEnd n => decide (n < 16)
  | .vconnOverCurrent n => decide (n < 16)
  | .pdMessageReceived n sopt hdr _ _ => decide (n < 16) && decide (sopt < 7) && decide (hdr < 65536)
  | .goodcrcTimeout n => decide (n < 16)
  | .hardReset n _ => decide (n < 16)
  | .hardResetSourceOff n => decide (n < 16)
  | .hardResetRecover n => decide (n < 16)
  | .hardResetSinkTimeout n => decide (n < 16)
  | .fastRoleSwapSignal n => decide (n < 16)
  | .frsSourceOn n => decide (n < 16)
  | .frsTimeout n => decide (n < 16)
  | .frsPartnerGone n => decide (n < 16)
  | .eprKeepaliveTimeout n => decide (n < 16)
  | .policyTimerExpiry n t => decide (n < 16) && decide (t < 4)
  | .ccPollWindow n _ => decide (n < 16)
  | .feedHealthChange f _ _ => decide (f < 2)
  | .feedInrushEnd f => decide (f < 2)
  | .deadTimeExpiry => true
  | .feedRevert => true
  | .feedGateFail => true
  | .feedBarExpiry f => decide (f < 2)
  | .feedNone => true
  | .feedWarn => true
  | .feedWarnRelease => true
  | .seatingDebounce n => decide (n < 16)
  | .insertionDelay n => decide (n < 16)
  | .startRequest n => decide (n < 16)
  | .budgetAdmit l => l.all (fun p => decide (p.1 ≤ 37) && decide (p.2 < 2 ^ 12))
  | .stageRemoval n _ _ => decide (n < 16)
  | .inrushEnd n => decide (n < 16)
  | .inrushTimeout p => decide (p < 18)
  | .breakerTrip p => decide (p < 18)
  | .instantTrip p _ => decide (p < 18)
  | .ocTrip p => decide (p < 18)
  | .gateFail p => decide (p < 18)
  | .ovpTrip n => decide (n < 16)
  | .powerGood n _ => decide (n < 16)
  | .retryExpiry n => decide (n < 16)
  | .triesReset n => decide (n < 16)
  | .startStall n => decide (n < 16)
  | .vsetTimeout n => decide (n < 16)
  | .wake hi lo _ => decide (hi < 16) && decide (lo < 2 ^ 24)
  | .returnStageReady _ training dp => optAll lp5Ok training && decide (dp < 4)
  | .returnStageTimeout => true
  | .handshakeAnswer code _ => decide (1 ≤ code) && decide (code ≤ 11)
  | .entryMaxTimeout => true
  | .entrySequence => true
  | .doorbell m seq tag _ => okMaster m && decide (seq < 65536) && decide (tag < 65536)
  | .parkedCompletion m _ => okMaster m
  | .smbusSetPointer v _ => decide (v < 65536)
  | .smbusBlockWrite .. => true
  | .smbusBlockRead => true
  | .smbusReadSummary => true
  | .sysInfo m => okMaster m
  | .sysClaimChallenge m => okMaster m
  | .sysClaimProve m po => okMaster m && words32 po
  | .sysClaimRelease m => okMaster m
  | .sysDeputy m deputy hold => okMaster m && decide (deputy < 16) && decide (hold < 65536)
  | .sysResetWarm m => okMaster m
  | .sysResetHost m who => okMaster m && decide (who < 16)
  | .sysResetPort m code => okMaster m && decide (code < 32)
  | .gateSet m t w _ => okMaster m && decide (t < 128) && words32 [w]
  | .gateGet m t => okMaster m && decide (t < 128)
  | .tunnelOpen m t ws => okMaster m && decide (t < 4096) && words32 ws
  | .tunnelClose m t gen _ _ => okMaster m && decide (t < 4096) && decide (gen < 16)
  | .tunnelModify m t gen ws => okMaster m && decide (t < 4096) && decide (gen < 16) && words32 ws
  | .tunnelQuery m t gen _ _ => okMaster m && decide (t < 4096) && decide (gen < 16)
  | .planBegin m => okMaster m
  | .planStage m pid _ => okMaster m && decide (pid < 65536)
  | .planCheck m pid => okMaster m && decide (pid < 65536)
  | .planArm m pid k => okMaster m && decide (pid < 65536) && decide (k < 2 ^ 48)
  | .planAbort m pid => okMaster m && decide (pid < 65536)
  | .planStatus m _ who => okMaster m && decide (who < 16)
  | .portTrainConfig m code ws => okMaster m && decide (code < 32) && words32 ws
  | .portTrainTrain m code ws => okMaster m && decide (code < 32) && words32 ws
  | .portTrainDisable m code => okMaster m && decide (code < 32)
  | .portTrainReturn m code => okMaster m && decide (code < 32)
  | .portState m code _ first cnt => okMaster m && decide (code < 32) && decide (first < 256) && decide (cnt < 64)
  | .portSpareRestore m code lane => okMaster m && decide (code < 32) && decide (lane < 8)
  | .portSpareRetire m code lane => okMaster m && decide (code < 32) && decide (lane < 8)
  | .portRoute m _ => okMaster m
  | .tickSet m code k => okMaster m && decide (code < 256) && decide (k < 2 ^ 48)
  | .timeSync m mode ref => okMaster m && decide (mode < 2) && decide (ref < 4)
  | .timeSyncStep m mode ref _ => okMaster m && decide (mode < 2) && decide (ref < 4)
  | .pwrFeedConfig m f ws => okMaster m && decide (f < 2) && words32 ws
  | .pwrFeedSelect m w0 w1 => okMaster m && words32 [w0] && words32 [w1]
  | .pwrFeedQuery m f => okMaster m && decide (f < 2)
  | .pwrPortConfig m n ws => okMaster m && decide (n < 16) && words32 ws
  | .pwrPortQuery m n => okMaster m && decide (n < 16)
  | .pwrPortRestart m n => okMaster m && decide (n < 16)
  | .pwrPortOff m n => okMaster m && decide (n < 16)
  | .pwrPortVset m n v => okMaster m && decide (n < 16) && decide (v < 4096)
  | .pwrCurve m p ws => okMaster m && decide (p < 32) && words32 ws
  | .pwrBudget m w => okMaster m && words32 [w]
  | .pdTx m n ws => okMaster m && decide (n < 16) && words32 ws
  | .pdRx m n _ max _ => okMaster m && decide (n < 16) && decide (max < 16)
  | .pdTimerSet m n w => okMaster m && decide (n < 16) && words32 [w]
  | .pdTimerStart m n t ms => okMaster m && decide (n < 16) && decide (t < 4) && decide (ms < 65536)
  | .pdTimerCancel m n t => okMaster m && decide (n < 16) && decide (t < 4)
  | .pdRoleClaim m n => okMaster m && decide (n < 16)
  | .pdRoleRelease m n => okMaster m && decide (n < 16)
  | .pdRoleRp m n v => okMaster m && decide (n < 16) && decide (v < 4096)
  | .pdRoleDrole m n v => okMaster m && decide (n < 16) && decide (v < 4096)
  | .pdRoleVconnOn m n => okMaster m && decide (n < 16)
  | .pdRoleVconnOff m n => okMaster m && decide (n < 16)
  | .pdRoleSwapToSink m n => okMaster m && decide (n < 16)
  | .pdRoleSwapToSource m n => okMaster m && decide (n < 16)
  | .pdRoleFrsArm m n v => okMaster m && decide (n < 16) && decide (v < 4096)
  | .pdRoleEpr m n v => okMaster m && decide (n < 16) && decide (v < 4096)
  | .pdRoleErrorRecovery m n => okMaster m && decide (n < 16)
  | .pdRoleVconnIlim m n v => okMaster m && decide (n < 16) && decide (v < 4096)
  | .rasterSetup m n ws _ => okMaster m && decide (n < 8) && words32 ws
  | .rasterSetupQuery m n d => okMaster m && decide (n < 8) && decide (d < 2)
  | .rasterWitnessSet m n _ action => okMaster m && decide (n < 8) && decide (action < 4)
  | .rasterWitnessResume m n => okMaster m && decide (n < 8)
  | .rasterWitnessQuery m n => okMaster m && decide (n < 8)
  | .dmaLoad m c burst _ _ addr len =>
    okMaster m && decide (c < 64) && decide (burst < 8) && decide (addr < 2 ^ 40) && words32 [len]
  | .dmaStart m c => okMaster m && decide (c < 64)
  | .dmaStop m c _ => okMaster m && decide (c < 64)
  | .dmaStopQuery m c => okMaster m && decide (c < 64)
  | .usbCarve m _ => okMaster m
  | .usbFuncItems m t lo hi => okMaster m && decide (t < 128) && words32 [lo] && words32 [hi]
  | .usbFuncVerbosity m t v => okMaster m && decide (t < 128) && decide (v < 4096)
  | .usbFuncQuery m t => okMaster m && decide (t < 128)
  | .usbConnectChallenge m => okMaster m
  | .usbConnectProve m dur ps => okMaster m && decide (dur < 2048) && words32 ps
  | .usbConnectDisconnect m => okMaster m
  | .faultRead m what sel first count =>
    okMaster m && decide (what < 4) && decide (sel < 32) && decide (first < 256) && decide (count < 64)
  | .faultConfig m _ _ => okMaster m
  | .faultForceSet m i d => okMaster m && decide (i < 256) && decide (d < 65536)
  | .faultForceClear m i => okMaster m && decide (i < 256)
  | .faultForcePulse m i d => okMaster m && decide (i < 256) && decide (d < 65536)
  | .faultClear m _ _ _ masks => okMaster m && words32 masks
  | .keyDerive m parent purpose inst kint ver =>
    okMaster m && decide (parent < 128) && decide (purpose < 16) && decide (inst < 32) && decide (kint < 32) && words32 [ver]
  | .keyDeriveAdvance m d => okMaster m && decide (d < 8)
  | .keyRevoke m k => okMaster m && decide (k < 128)
  | .keyCheck m k n => okMaster m && decide (k < 128) && words32 n
  | .keyCheckPatch m addr len => okMaster m && decide (addr < 2 ^ 40) && words32 [len]
  | .stateEnter m target _ => okMaster m && decide (target < 4)
  | .stateEnterConfig m w1 w2 => okMaster m && words32 [w1] && words32 [w2]
  | .stateEnterQuery m => okMaster m
  | .testObsSet m pin region signal _ => okMaster m && decide (pin < 8) && decide (region < 8) && decide (signal < 256)
  | .testObsQuery m => okMaster m
  | .testLogicReset => true
  | .bypass => true
  | .idcode => true
  | .samplePreload .. => true
  | .extest .. => true
  | .clamp => true
  | .highz => true
  | .extestPulse .. => true
  | .extestTrain .. => true
  | .debugEn .. => true
  | .memacc _ addr w => decide (addr < 2 ^ 40) && decide (w < 2 ^ 32)
  | .linkUnitWithoutLuEnd c => okLink c
  | .errorLineFall i => decide (i < 256)
  | .hpdPlug d => decide (d < 2)
  | .lp5ExitComplete => true
  | .lp5ReadReturn client ecc => decide (client < 11) && decide (ecc < 3)
  | .crossingPulse ch => decide (ch < 256)
  | .cutThroughCell t dir c => decide (t < 4096) && decide (dir < 2) && okCode c
  | .downstreamConnect p => decide (p < 17)
  | .downstreamDisconnect p => decide (p < 17)
  | .downstreamRemoteWake p => decide (p < 17)
  | .portResetComplete p speed => decide (p < 17) && decide (speed < 3)
  | .downstreamResumeEnd p => decide (p < 17)
  | .setFeature d feature => decide (d < 3) && decide (feature < 65536)
  | .clearPortFeatureChange p b => decide (p < 17) && decide (b < 5)
  | .upstreamVbusValid bus _ => decide (bus < 2)
  | .vbusLevelReached n lvl => decide (n < 16) && decide (lvl < 4)
  | .sinkVbusLoss n => decide (n < 16)

end Sys2Proof
end

