-- ==== Sys2Proof/Machine/CommandFam.lean ====
section
/-!
DEFINITION. Meanings: the Twiop commands of Tables 21-7 to 21-10, each served for master `m` (R614, R615). A master
without a mailbox, master 14, is answered on its own path.
-/

namespace Sys2Proof.Machine

open Sys2Proof

/-- BAD_ARG for operands that no argument block spells (R609, R610); `f` otherwise. -/
def Hub.within (h : Hub) (c : Bool) (f : Hub → Ans × Hub) : Ans × Hub := if c then f h else h.refuse stBadArg

/-! SYS and GATE (Table 21-7). -/

/-- SYS_INFO (R622). -/
def execSysInfo (m : Nat) (s : State) : Host.Outcome State Fault Refusal :=
  .next (s.run m 0x0101 (fun h => h.sysInfo m))

/-- SYS_CLAIM_CHALLENGE (R571, R572). -/
def execSysClaimChallenge (m : Nat) (s : State) : Host.Outcome State Fault Refusal :=
  .next (s.run m 0x0102 (fun h => h.claimChallenge m))

/-- SYS_CLAIM_PROVE (R571, R572): the four words of PO. -/
def execSysClaimProve (m : Nat) (po : List Nat) (s : State) : Host.Outcome State Fault Refusal :=
  .next (s.run m 0x0102 (fun h => h.within (words32 po) (fun h => h.claimProve m po)))

/-- SYS_CLAIM_RELEASE (R573). -/
def execSysClaimRelease (m : Nat) (s : State) : Host.Outcome State Fault Refusal :=
  .next (s.run m 0x0102 (fun h => h.claimRelease m))

/-- SYS_DEPUTY (R573): the deputy, 15 for none, and DEP_HOLD. -/
def execSysDeputy (m : Nat) (deputy hold : Nat) (s : State) : Host.Outcome State Fault Refusal :=
  .next (s.run m 0x0103 (fun h => h.setDeputy m deputy hold))

/-- SYS_RESET_WARM (R620). -/
def execSysResetWarm (m : Nat) (s : State) : Host.Outcome State Fault Refusal :=
  .next (s.run m 0x0104 (fun h => h.askWarm m))

/-- SYS_RESET_HOST (R91, R599, R623): a host tunnel-layer reset of master `who`. -/
def execSysResetHost (m : Nat) (who : Nat) (s : State) : Host.Outcome State Fault Refusal :=
  .next (s.resetHost m who)

/-- SYS_RESET_PORT (R599): the port with this code. -/
def execSysResetPort (m : Nat) (code : Nat) (s : State) : Host.Outcome State Fault Refusal :=
  .next (s.run m 0x0104 (fun h => h.askPort m code))

/-- GATE_SET (R576, R434): target `t`, its gate word, and for an LP5 window the two window words. -/
def execGateSet (m : Nat) (t w : Nat) (win : Option (Nat × Nat)) (s : State) : Host.Outcome State Fault Refusal :=
  .next (s.run m 0x0201
    (fun h => h.within (words32 (w :: (match win with | some (a, b) => [a, b] | none => []))) (fun h => h.gateSet m t w win)))

/-- GATE_GET (R577). -/
def execGateGet (m : Nat) (t : Nat) (s : State) : Host.Outcome State Fault Refusal :=
  .next (s.run m 0x0202 (fun h => h.gateGet m t))

/-! TUNNEL (Table 21-8). -/

/-- TUNNEL_OPEN (R79, R83, R85): the ID and descriptor words 0 to 7. -/
def execTunnelOpen (m : Nat) (t : Nat) (ws : List Nat) (s : State) : Host.Outcome State Fault Refusal :=
  .next (s.run m 0x0301
    (fun h => h.within (decide (t < 4096) && ws.length == 8 && words32 ws) (fun h => h.tunnelOpen m t ws)))

/-- TUNNEL_CLOSE (R82, R84): drain or `abort`, and FORCE. -/
def execTunnelClose (m : Nat) (t gen : Nat) (abort force : Bool) (s : State) : Host.Outcome State Fault Refusal :=
  .next (s.run m 0x0302
    (fun h => h.within (decide (t < 4096) && decide (gen < 16)) (fun h => h.tunnelClose m t gen abort force)))

/-- TUNNEL_MODIFY (R82, R83, R100): the complete descriptor after the change. -/
def execTunnelModify (m : Nat) (t gen : Nat) (ws : List Nat) (s : State) : Host.Outcome State Fault Refusal :=
  .next (s.run m 0x0303
    (fun h => h.within (decide (t < 4096) && decide (gen < 16) && ws.length == 8 && words32 ws) (fun h => h.tunnelModify m t gen ws)))

/-- TUNNEL_QUERY (R82, R104): `named` where GEN is named; `clear` resets the counters. -/
def execTunnelQuery (m : Nat) (t gen : Nat) (named clear : Bool) (s : State) : Host.Outcome State Fault Refusal :=
  .next (s.run m 0x0304
    (fun h => h.within (decide (t < 4096) && decide (gen < 16)) (fun h => h.tunnelQuery m t gen named clear)))

/-! PLAN (Table 21-9). -/

/-- PLAN_BEGIN (R293). -/
def execPlanBegin (m : Nat) (s : State) : Host.Outcome State Fault Refusal :=
  .next (s.run m 0x0401 (fun h => h.planBegin m))

/-- PLAN_STAGE (R295, R296, R302): records of ten words. -/
def execPlanStage (m : Nat) (pid : Nat) (recs : List (List Nat)) (s : State) : Host.Outcome State Fault Refusal :=
  .next (s.run m 0x0402
    (fun h => h.within (decide (pid < 65536) && recs.all (fun r => r.length == 10 && words32 r)) (fun h => h.planStage m pid recs)))

/-- PLAN_CHECK (R304, R305). -/
def execPlanCheck (m : Nat) (pid : Nat) (s : State) : Host.Outcome State Fault Refusal :=
  .next (s.run m 0x0403 (fun h => h.within (decide (pid < 65536)) (fun h => h.planCheck m pid)))

/-- PLAN_ARM (R307): for tick `k`. -/
def execPlanArm (m : Nat) (pid k : Nat) (s : State) : Host.Outcome State Fault Refusal :=
  .next (s.run m 0x0404 (fun h => h.within (decide (pid < 65536) && decide (k < 2 ^ 48)) (fun h => h.planArm m pid k)))

/-- PLAN_ABORT (R312, R624). -/
def execPlanAbort (m : Nat) (pid : Nat) (s : State) : Host.Outcome State Fault Refusal :=
  .next (s.run m 0x0405 (fun h => h.within (decide (pid < 65536)) (fun h => h.planAbort m pid)))

/-- PLAN_STATUS (R317): with `shares`, those of master `who`. -/
def execPlanStatus (m : Nat) (shares : Bool) (who : Nat) (s : State) : Host.Outcome State Fault Refusal :=
  .next (s.run m 0x0406
    (fun h => h.within (decide (who < 16)) (fun h => h.planStatus m shares who)))

/-! PORT, TICK and TIME (Table 21-10). -/

/-- PORT_TRAIN_CONFIG (R625): the images of Table 21-11. -/
def execPortTrainConfig (m : Nat) (code : Nat) (ws : List Nat) (s : State) : Host.Outcome State Fault Refusal :=
  .next (s.run m 0x0501 (fun h => h.within (words32 ws) (fun h => h.portConfigure m code ws)))

/-- PORT_TRAIN_TRAIN (R625). -/
def execPortTrainTrain (m : Nat) (code : Nat) (ws : List Nat) (s : State) : Host.Outcome State Fault Refusal :=
  .next (s.run m 0x0501 (fun h => h.within (words32 ws) (fun h => h.portTrain m code ws)))

/-- PORT_TRAIN_DISABLE (R625). -/
def execPortTrainDisable (m : Nat) (code : Nat) (s : State) : Host.Outcome State Fault Refusal :=
  .next (s.run m 0x0501 (fun h => h.portDisableLink m code))

/-- PORT_TRAIN_RETURN (R337, R625). -/
def execPortTrainReturn (m : Nat) (code : Nat) (s : State) : Host.Outcome State Fault Refusal :=
  .next (s.run m 0x0501 (fun h => h.portReturn m code))

/-- PORT_STATE (R622): for the flash path, port code 0, the first channel and the count of routing entries. -/
def execPortState (m : Nat) (code : Nat) (clr : Bool) (first cnt : Nat) (s : State) :
    Host.Outcome State Fault Refusal :=
  .next (s.run m 0x0502 (fun h => h.portState m code clr first cnt))

/-- PORT_SPARE_RESTORE (R198, R616): it waits for the lane. -/
def execPortSpareRestore (m : Nat) (code lane : Nat) (s : State) : Host.Outcome State Fault Refusal :=
  .next (s.runParked m 0x0503 (.spare code lane) (fun h => h.spareRestore m code lane))

/-- PORT_SPARE_RETIRE (R626). -/
def execPortSpareRetire (m : Nat) (code lane : Nat) (s : State) : Host.Outcome State Fault Refusal :=
  .next (s.runFree m 0x0503 (.spare code lane) (fun h => h.spareRetire m code lane))

/-- PORT_ROUTE (R219): entries of five words. -/
def execPortRoute (m : Nat) (l : List (List Nat)) (s : State) : Host.Outcome State Fault Refusal :=
  .next (s.run m 0x0504 (fun h => h.within (l.all words32) (fun h => h.portRoute m l)))

/-- TICK_SET (R49, R626): the period code, and the boundary `k`. -/
def execTickSet (m : Nat) (code k : Nat) (s : State) : Host.Outcome State Fault Refusal :=
  .next (s.run m 0x0601 (fun h => h.tickSet m code k))

/-- TIME_SYNC (R56): reference mode and host. -/
def execTimeSync (m : Nat) (mode ref : Nat) (s : State) : Host.Outcome State Fault Refusal :=
  .next (s.run m 0x0701
    (fun h => h.within (decide (mode < 2) && decide (ref < 4)) (fun h => h.timeSync m mode ref none)))

/-- TIME_SYNC_STEP (R58, R626): a step of forge time in ns. -/
def execTimeSyncStep (m : Nat) (mode ref : Nat) (step : Int) (s : State) : Host.Outcome State Fault Refusal :=
  .next (s.run m 0x0701
    (fun h => h.within
      (decide (mode < 2) && decide (ref < 4) && decide (step < 2 ^ 63) && decide (-(2 ^ 63) ≤ step))
      (fun h => h.timeSync m mode ref (some step))))

end Sys2Proof.Machine
end

