-- ==== Sys2Proof/Machine/Command2Fam.lean ====
section
/-!
DEFINITION. Meanings: the Twiop commands of Tables 21-12 to 21-14.
-/

namespace Sys2Proof.Machine

open Sys2Proof

/-- BAD_ARG for operands that no argument block spells; `f` otherwise. -/
def State.within (s : State) (c : Bool) (f : State → Ans × State) : Ans × State :=
  if c then f s else ({ status := stBadArg }, s)

/-- A Twiop command of master `m` that reads memory is served. -/
def State.runAll (s : State) (m opcode : Nat) (f : State → Ans × State) : State :=
  if !s.hub.serves m opcode then s
  else s.actAll (fun s =>
    let (a, s) := f { s with hub := s.hub.serving m }
    { s with hub := s.hub.complete m opcode a })

/-- The same for one that may then wait; `f` tells for what. -/
def State.runPatch (s : State) (m opcode : Nat) (f : State → Ans × Parked × State) : State :=
  if !s.hub.serves m opcode then s
  else s.actAll (fun s =>
    let (a, p, s) := f { s with hub := s.hub.serving m }
    { s with hub := s.hub.finish m opcode p a })

/-! PWR (Table 21-12). -/

/-- PWR_FEED_CONFIG (R517): five register images of feed `f`. -/
def execPwrFeedConfig (m : Nat) (f : Nat) (ws : List Nat) (s : State) : Host.Outcome State Fault Refusal :=
  .next (s.run m 0x0801 (fun h => h.within (decide (f < 2) && words32 ws) (fun h => h.feedConfig m f ws)))

/-- PWR_FEED_SELECT (R517): the images of PWR_FEED_SEL and PWR_BUS_SCALE. -/
def execPwrFeedSelect (m : Nat) (w0 w1 : Nat) (s : State) : Host.Outcome State Fault Refusal :=
  .next (s.run m 0x0801 (fun h => h.within (words32 [w0, w1]) (fun h => h.feedSelect m w0 w1)))

/-- PWR_FEED_QUERY (R622). -/
def execPwrFeedQuery (m : Nat) (f : Nat) (s : State) : Host.Outcome State Fault Refusal :=
  .next (s.run m 0x0801 (fun h => h.within (decide (f < 2)) (fun h => h.feedQuery f)))

/-- PWR_PORT_CONFIG (R517): six register images of stage `n`. -/
def execPwrPortConfig (m : Nat) (n : Nat) (ws : List Nat) (s : State) : Host.Outcome State Fault Refusal :=
  .next (s.run m 0x0802 (fun h => h.within (decide (n < 16) && words32 ws) (fun h => h.portConfig m n ws)))

/-- PWR_PORT_QUERY (R622). -/
def execPwrPortQuery (m : Nat) (n : Nat) (s : State) : Host.Outcome State Fault Refusal :=
  .next (s.run m 0x0802 (fun h => h.within (decide (n < 16)) (fun h => h.portQuery m n)))

/-- PWR_PORT_RESTART (R528). -/
def execPwrPortRestart (m : Nat) (n : Nat) (s : State) : Host.Outcome State Fault Refusal :=
  .next (s.run m 0x0802 (fun h => h.within (decide (n < 16)) (fun h => h.portRestart m n)))

/-- PWR_PORT_OFF (R627). -/
def execPwrPortOff (m : Nat) (n : Nat) (s : State) : Host.Outcome State Fault Refusal :=
  .next (s.run m 0x0802 (fun h => h.within (decide (n < 16)) (fun h => h.portOff m n)))

/-- PWR_PORT_VSET (R535): in units of 20 mV. -/
def execPwrPortVset (m : Nat) (n v : Nat) (s : State) : Host.Outcome State Fault Refusal :=
  .next (s.run m 0x0802 (fun h => h.within (decide (n < 16)) (fun h => h.portVset m n v)))

/-- PWR_CURVE (R530): the eight points of path `p`. -/
def execPwrCurve (m : Nat) (p : Nat) (ws : List Nat) (s : State) : Host.Outcome State Fault Refusal :=
  .next (s.run m 0x0803 (fun h => h.within (words32 ws) (fun h => h.pwrCurve m p ws)))

/-- PWR_BUDGET (R525). -/
def execPwrBudget (m : Nat) (w : Nat) (s : State) : Host.Outcome State Fault Refusal :=
  .next (s.run m 0x0804 (fun h => h.within (words32 [w]) (fun h => h.pwrBudget m w)))

/-! PD (Table 21-12). -/

/-- PD_TX (R499, R500): the ten words of a message entry. -/
def execPdTx (m : Nat) (n : Nat) (ws : List Nat) (s : State) : Host.Outcome State Fault Refusal :=
  .next (s.runParked m 0x0901 (.pd n) (fun h => h.within (decide (n < 16) && words32 ws) (fun h => h.pdTx m n ws)))

/-- PD_RX (R498): up to `max` entries, with `state` the registers; `clr` clears the counters. -/
def execPdRx (m : Nat) (n : Nat) (state : Bool) (max : Nat) (clr : Bool) (s : State) :
    Host.Outcome State Fault Refusal :=
  .next (s.runFree m 0x0902 (.pd n) (fun h => h.within (decide (n < 16)) (fun h => h.pdRx m n state max clr)))

/-- PD_TIMER_SET (R509). -/
def execPdTimerSet (m : Nat) (n w : Nat) (s : State) : Host.Outcome State Fault Refusal :=
  .next (s.runFree m 0x0903 (.pd n) (fun h => h.within (decide (n < 16) && words32 [w]) (fun h => h.timerSet m n w)))

/-- PD_TIMER_START (R509): timer `t` for `ms` milliseconds. -/
def execPdTimerStart (m : Nat) (n t ms : Nat) (s : State) : Host.Outcome State Fault Refusal :=
  .next (s.runFree m 0x0903 (.pd n) (fun h => h.within (decide (n < 16)) (fun h => h.timerStart m n t ms)))

/-- PD_TIMER_CANCEL (R509). -/
def execPdTimerCancel (m : Nat) (n t : Nat) (s : State) : Host.Outcome State Fault Refusal :=
  .next (s.runFree m 0x0903 (.pd n) (fun h => h.within (decide (n < 16)) (fun h => h.timerCancel m n t)))

/-- PD_ROLE_CLAIM (R495). -/
def execPdRoleClaim (m : Nat) (n : Nat) (s : State) : Host.Outcome State Fault Refusal :=
  .next (s.runFree m 0x0904 (.pd n) (fun h => h.within (decide (n < 16)) (fun h => h.roleClaim m n)))

/-- PD_ROLE_RELEASE (R495). -/
def execPdRoleRelease (m : Nat) (n : Nat) (s : State) : Host.Outcome State Fault Refusal :=
  .next (s.runFree m 0x0904 (.pd n) (fun h => h.within (decide (n < 16)) (fun h => h.roleRelease m n)))

/-- PD_ROLE_RP (R492). -/
def execPdRoleRp (m : Nat) (n v : Nat) (s : State) : Host.Outcome State Fault Refusal :=
  .next (s.runFree m 0x0904 (.pd n) (fun h => h.within (decide (n < 16)) (fun h => h.roleRp m n v)))

/-- PD_ROLE_DROLE (R490). -/
def execPdRoleDrole (m : Nat) (n v : Nat) (s : State) : Host.Outcome State Fault Refusal :=
  .next (s.runFree m 0x0904 (.pd n) (fun h => h.within (decide (n < 16)) (fun h => h.roleDrole m n v)))

/-- PD_ROLE_VCONN_ON (R493). -/
def execPdRoleVconnOn (m : Nat) (n : Nat) (s : State) : Host.Outcome State Fault Refusal :=
  .next (s.runFree m 0x0904 (.pd n) (fun h => h.within (decide (n < 16)) (fun h => h.roleVconn m n true)))

/-- PD_ROLE_VCONN_OFF (R493). -/
def execPdRoleVconnOff (m : Nat) (n : Nat) (s : State) : Host.Outcome State Fault Refusal :=
  .next (s.runFree m 0x0904 (.pd n) (fun h => h.within (decide (n < 16)) (fun h => h.roleVconn m n false)))

/-- PD_ROLE_SWAP_TO_SINK (R505). -/
def execPdRoleSwapToSink (m : Nat) (n : Nat) (s : State) : Host.Outcome State Fault Refusal :=
  .next (s.runFree m 0x0904 (.pd n) (fun h => h.within (decide (n < 16)) (fun h => h.roleToSink m n)))

/-- PD_ROLE_SWAP_TO_SOURCE (R505). -/
def execPdRoleSwapToSource (m : Nat) (n : Nat) (s : State) : Host.Outcome State Fault Refusal :=
  .next (s.runFree m 0x0904 (.pd n) (fun h => h.within (decide (n < 16)) (fun h => h.roleToSource m n)))

/-- PD_ROLE_FRS_ARM (R506): 1 arms, 0 disarms. -/
def execPdRoleFrsArm (m : Nat) (n v : Nat) (s : State) : Host.Outcome State Fault Refusal :=
  .next (s.runFree m 0x0904 (.pd n) (fun h => h.within (decide (n < 16)) (fun h => h.roleFrsArm m n v)))

/-- PD_ROLE_EPR (R508). -/
def execPdRoleEpr (m : Nat) (n v : Nat) (s : State) : Host.Outcome State Fault Refusal :=
  .next (s.runFree m 0x0904 (.pd n) (fun h => h.within (decide (n < 16)) (fun h => h.roleEpr m n v)))

/-- PD_ROLE_ERROR_RECOVERY (R491). -/
def execPdRoleErrorRecovery (m : Nat) (n : Nat) (s : State) : Host.Outcome State Fault Refusal :=
  .next (s.runFree m 0x0904 (.pd n) (fun h => h.within (decide (n < 16)) (fun h => h.roleRecover m n)))

/-- PD_ROLE_VCONN_ILIM (R494). -/
def execPdRoleVconnIlim (m : Nat) (n v : Nat) (s : State) : Host.Outcome State Fault Refusal :=
  .next (s.runFree m 0x0904 (.pd n) (fun h => h.within (decide (n < 16)) (fun h => h.roleIlim m n v)))

/-! RASTER, DMA and USB (Table 21-13). -/

/-- What a RASTER.SETUP waits for (R616): head `n`, its image, and the DP output with its word where the command has one. -/
def rasterWait (n : Nat) (ws : List Nat) (dp : Option (Nat × Nat)) : Parked :=
  match dp with
  | some (d, w) => .raster n d w ws
  | none => .raster n 0 0 ws

/-- RASTER_SETUP (R398, R628): 17 register images of head `n`; with `dp` an output and its image, it waits for the
link. -/
def execRasterSetup (m : Nat) (n : Nat) (ws : List Nat) (dp : Option (Nat × Nat)) (s : State) :
    Host.Outcome State Fault Refusal :=
  .next (s.runParked m 0x0A01 (rasterWait n ws dp)
    (fun h => h.within
      (decide (n < 8) && words32 ws && (match dp with | some (d, w) => decide (d < 2) && words32 [w] | none => true))
      (fun h => h.rasterSetup m n ws dp)))

/-- RASTER_SETUP_QUERY (R622): head `n` and output `d`. -/
def execRasterSetupQuery (m : Nat) (n d : Nat) (s : State) : Host.Outcome State Fault Refusal :=
  .next (s.runFree m 0x0A01 (.raster n 0 0 [])
    (fun h => h.within (decide (n < 8) && decide (d < 2)) (fun h => h.rasterQuery m n d)))

/-- RASTER_WITNESS_SET (R419). -/
def execRasterWitnessSet (m : Nat) (n : Nat) (en : Bool) (action : Nat) (s : State) :
    Host.Outcome State Fault Refusal :=
  .next (s.runFree m 0x0A02 (.raster n 0 0 [])
    (fun h => h.within (decide (n < 8)) (fun h => h.witnessSet m n en action)))

/-- RASTER_WITNESS_RESUME (R421). -/
def execRasterWitnessResume (m : Nat) (n : Nat) (s : State) : Host.Outcome State Fault Refusal :=
  .next (s.runFree m 0x0A02 (.raster n 0 0 []) (fun h => h.within (decide (n < 8)) (fun h => h.witnessResume m n)))

/-- RASTER_WITNESS_QUERY (R622). -/
def execRasterWitnessQuery (m : Nat) (n : Nat) (s : State) : Host.Outcome State Fault Refusal :=
  .next (s.runFree m 0x0A02 (.raster n 0 0 []) (fun h => h.within (decide (n < 8)) (fun h => h.witnessQuery m n)))

/-- DMA_LOAD (R444 to R446, R628): `len` instructions at `addr` for channel `c`. -/
def execDmaLoad (m : Nat) (c burst : Nat) (prio note : Bool) (addr len : Nat) (s : State) :
    Host.Outcome State Fault Refusal :=
  .next (s.runAll m 0x0B01
    (fun s => s.within (decide (c < 64) && decide (burst < 8) && decide (addr < 2 ^ 40)) (fun s => s.dmaLoad m c burst prio note addr len)))

/-- DMA_START (R456). -/
def execDmaStart (m : Nat) (c : Nat) (s : State) : Host.Outcome State Fault Refusal :=
  .next (s.run m 0x0B02 (fun h => h.within (decide (c < 64)) (fun h => h.dmaStartCmd m c)))

/-- DMA_STOP (R456, R628). -/
def execDmaStop (m : Nat) (c : Nat) (force : Bool) (s : State) : Host.Outcome State Fault Refusal :=
  .next (s.run m 0x0B03 (fun h => h.within (decide (c < 64)) (fun h => h.dmaStopCmd m c force)))

/-- DMA_STOP_QUERY (R622). -/
def execDmaStopQuery (m : Nat) (c : Nat) (s : State) : Host.Outcome State Fault Refusal :=
  .next (s.run m 0x0B03 (fun h => h.within (decide (c < 64)) (fun h => h.dmaQuery m c)))

/-- USB_CARVE (R476): pairs of a buffer and its image. -/
def execUsbCarve (m : Nat) (l : List (Nat × Nat)) (s : State) : Host.Outcome State Fault Refusal :=
  .next (s.run m 0x0C01 (fun h => h.within (words32 (l.map (fun p => p.2))) (fun h => h.usbCarve m l)))

/-- USB_FUNC_ITEMS (R471): target `t` and the mask of items in two words. -/
def execUsbFuncItems (m : Nat) (t lo hi : Nat) (s : State) : Host.Outcome State Fault Refusal :=
  .next (s.run m 0x0C02 (fun h => h.usbItems m t lo hi))

/-- USB_FUNC_VERBOSITY (R473). -/
def execUsbFuncVerbosity (m : Nat) (t v : Nat) (s : State) : Host.Outcome State Fault Refusal :=
  .next (s.run m 0x0C02 (fun h => h.usbVerbosity m t v))

/-- USB_FUNC_QUERY (R622). -/
def execUsbFuncQuery (m : Nat) (t : Nat) (s : State) : Host.Outcome State Fault Refusal :=
  .next (s.run m 0x0C02 (fun h => h.usbQuery m t))

/-- USB_CONNECT_CHALLENGE (R478, R479). -/
def execUsbConnectChallenge (m : Nat) (s : State) : Host.Outcome State Fault Refusal :=
  .next (s.run m 0x0C03 (fun h => h.connectChallenge m))

/-- USB_CONNECT_PROVE (R478, R479): DUR in minutes and the four words of PS. -/
def execUsbConnectProve (m : Nat) (dur : Nat) (ps : List Nat) (s : State) : Host.Outcome State Fault Refusal :=
  .next (s.run m 0x0C03 (fun h => h.within (words32 ps) (fun h => h.connectProve m dur ps)))

/-- USB_CONNECT_DISCONNECT (R480). -/
def execUsbConnectDisconnect (m : Nat) (s : State) : Host.Outcome State Fault Refusal :=
  .next (s.run m 0x0C03 (fun h => h.connectEnd m))

/-! FAULT, KEY, STATE and TEST (Table 21-14). -/

/-- FAULT_READ (R556): WHAT, the log selector, first item and count. -/
def execFaultRead (m : Nat) (what sel first count : Nat) (s : State) : Host.Outcome State Fault Refusal :=
  .next (s.run m 0x0D01 (fun h => h.faultRead m what sel first count))

/-- FAULT_CONFIG (R543): the FAULT_N image, where PIN is 1, and pairs of a source and its image. -/
def execFaultConfig (m : Nat) (pin : Option Nat) (l : List (Nat × Nat)) (s : State) :
    Host.Outcome State Fault Refusal :=
  .next (s.run m 0x0D02
    (fun h => h.within (words32 (pin.getD 0 :: l.map (fun p => p.2))) (fun h => h.faultConfig m pin l)))

/-- FAULT_FORCE_SET (R550): source `i` with DETAIL `d`. -/
def execFaultForceSet (m : Nat) (i d : Nat) (s : State) : Host.Outcome State Fault Refusal :=
  .next (s.run m 0x0D03 (fun h => h.within (decide (d < 65536)) (fun h => h.forceSet m i d)))

/-- FAULT_FORCE_CLEAR (R550). -/
def execFaultForceClear (m : Nat) (i : Nat) (s : State) : Host.Outcome State Fault Refusal :=
  .next (s.run m 0x0D03 (fun h => h.forceClear m i))

/-- FAULT_FORCE_PULSE (R550). -/
def execFaultForcePulse (m : Nat) (i d : Nat) (s : State) : Host.Outcome State Fault Refusal :=
  .next (s.run m 0x0D03 (fun h => h.within (decide (d < 65536)) (fun h => h.forcePulse m i d)))

/-- FAULT_CLEAR (R549): a log to empty, FAULTN_REL, RESET_CNT and the masks of the eight regions. -/
def execFaultClear (m : Nat) (log : Option Nat) (release resetCnt : Bool) (masks : List Nat) (s : State) :
    Host.Outcome State Fault Refusal :=
  .next (s.run m 0x0D04 (fun h => h.within (words32 masks) (fun h => h.faultClear m log release resetCnt masks)))

/-- KEY_DERIVE (R564). -/
def execKeyDerive (m : Nat) (parent purpose inst kint ver : Nat) (s : State) : Host.Outcome State Fault Refusal :=
  .next (s.run m 0x0E01 (fun h => h.within (words32 [ver]) (fun h => h.keyDerive m parent purpose inst kint ver)))

/-- KEY_DERIVE_ADVANCE (R565, R616): domain `d`; it waits for the fuse. -/
def execKeyDeriveAdvance (m : Nat) (d : Nat) (s : State) : Host.Outcome State Fault Refusal :=
  .next (s.runParked m 0x0E01 (.advance d) (fun h => h.keyAdvance m d))

/-- KEY_REVOKE (R567): slot `k`. -/
def execKeyRevoke (m : Nat) (k : Nat) (s : State) : Host.Outcome State Fault Refusal :=
  .next (s.run m 0x0E02 (fun h => h.keyRevoke m k))

/-- KEY_CHECK (R566): slot `k` and the four words of N. -/
def execKeyCheck (m : Nat) (k : Nat) (n : List Nat) (s : State) : Host.Outcome State Fault Refusal :=
  .next (s.run m 0x0E03 (fun h => h.within (words32 n) (fun h => h.keyCheck m k n)))

/-- KEY_CHECK_PATCH (R570, R629, R616): the image of `len` bytes at `addr`; it waits for the checks. -/
def execKeyCheckPatch (m : Nat) (addr len : Nat) (s : State) : Host.Outcome State Fault Refusal :=
  .next (s.runPatch m 0x0E03
    (fun s => if decide (addr < 2 ^ 40) then s.patchStart m addr len else ({ status := stBadArg }, .patch 64 0 0 0, s)))

/-- STATE_ENTER (R583, R616): to banked or ember it waits for the entry. -/
def execStateEnter (m : Nat) (target : Nat) (force : Bool) (s : State) : Host.Outcome State Fault Refusal :=
  .next (s.runParked m 0x0F01 .enter (fun h => h.within (decide (target < 4)) (fun h => h.stateEnter m target force)))

/-- STATE_ENTER_CONFIG (R583, R622): the images of CTL_PS_CFG and CTL_PS_WAKE_EN. -/
def execStateEnterConfig (m : Nat) (w1 w2 : Nat) (s : State) : Host.Outcome State Fault Refusal :=
  .next (s.run m 0x0F01 (fun h => h.within (words32 [w1, w2]) (fun h => h.stateConfig m w1 w2)))

/-- STATE_ENTER_QUERY (R622). -/
def execStateEnterQuery (m : Nat) (s : State) : Host.Outcome State Fault Refusal :=
  .next (s.run m 0x0F01 (fun h => h.stateQuery))

/-- TEST_OBS_SET (R661): pin, region, signal and EN. -/
def execTestObsSet (m : Nat) (pin region signal : Nat) (en : Bool) (s : State) : Host.Outcome State Fault Refusal :=
  .next (s.run m 0x1001 (fun h => h.obsSet m pin region signal en))

/-- TEST_OBS_QUERY (R663). -/
def execTestObsQuery (m : Nat) (s : State) : Host.Outcome State Fault Refusal :=
  .next (s.run m 0x1001 (fun h => h.obsQuery m))

end Sys2Proof.Machine
end

