-- ==== Sys2Proof/Machine/TestFam.lean ====
section
/-!
DEFINITION. Meanings: the test access port (chapter 23).
-/

namespace Sys2Proof.Machine

open Sys2Proof

/-- TEST_LOGIC_RESET (R657): IDCODE is selected. -/
def execTestLogicReset (s : State) : Host.Outcome State Fault Refusal := .next (s.act (fun h => h.jtagLoad 0x01))

/-- BYPASS (R657). -/
def execBypass (s : State) : Host.Outcome State Fault Refusal := .next (s.act (fun h => h.jtagLoad 0xFF))

/-- IDCODE (R657): the register reads 0x1512_056B. -/
def execIdcode (s : State) : Host.Outcome State Fault Refusal :=
  .next (s.act (fun h => (h.jtagLoad 0x01).emit (.words "JTAG_IDCODE" 0 [0x1512056B])))

/-- SAMPLE_PRELOAD (R658): the boundary register captures the balls, and `cells` are loaded into it. -/
def execSamplePreload (cells : List Nat) (s : State) : Host.Outcome State Fault Refusal :=
  .next (s.act (fun h => (h.jtagLoad 0x02).modJtag (fun j => { j with cells := cells })))

/-- EXTEST (R658): the boundary register drives the balls. -/
def execExtest (cells : List Nat) (s : State) : Host.Outcome State Fault Refusal :=
  .next (s.act (fun h => h.jtagPins 0x03 "JTAG_EXTEST" cells))

/-- CLAMP (R658): the cells loaded before keep driving. -/
def execClamp (s : State) : Host.Outcome State Fault Refusal :=
  .next (s.act (fun h => h.jtagPins 0x04 "JTAG_CLAMP" h.ctl.jtag.cells))

/-- HIGHZ (R658). -/
def execHighz (s : State) : Host.Outcome State Fault Refusal :=
  .next (s.act (fun h => h.jtagPins 0x05 "JTAG_HIGHZ" h.ctl.jtag.cells))

/-- EXTEST_PULSE (R658): AC-coupled lanes, one pulse. -/
def execExtestPulse (cells : List Nat) (s : State) : Host.Outcome State Fault Refusal :=
  .next (s.act (fun h => h.jtagPins 0x06 "JTAG_EXTEST_PULSE" cells))

/-- EXTEST_TRAIN (R658): AC-coupled lanes, a train of pulses. -/
def execExtestTrain (cells : List Nat) (s : State) : Host.Outcome State Fault Refusal :=
  .next (s.act (fun h => h.jtagPins 0x06 "JTAG_EXTEST_TRAIN" cells))

/-- DEBUG_EN (R659): the update with the bit given; a 0 has no effect. -/
def execDebugEn (on : Bool) (s : State) : Host.Outcome State Fault Refusal :=
  .next (s.act (fun h => (h.jtagLoad 0x10).when on (fun h => h.debugOn)))

/-- MEMACC (R660): one access of 32 bits with master ID 14. -/
def execMemacc (wr : Bool) (addr w : Nat) (s : State) : Host.Outcome State Fault Refusal :=
  .next (s.actAll (fun s =>
    ({ s with hub := s.hub.jtagLoad 0x11 } : State).memacc wr (addr % 2 ^ 40) (w % 2 ^ 32)))

end Sys2Proof.Machine
end

