-- ==== Sys2Proof/Machine/Mailbox.lean ====
section
/-!
DEFINITION. The argument blocks of the Twiop commands (R608, R609, Tables 21-7 to 21-14): which command an opcode and its
argument words spell, and what a service of the mailbox then does.
-/

namespace Sys2Proof.Machine

open Sys2Proof

/-- What a command does. -/
abbrev Meaning := State → Host.Outcome State Fault Refusal

/-- `c` where only the bits of `mask` are set in `w`: every other bit is reserved (R10). -/
def onlyBits (w mask : Nat) (c : Option Meaning) : Option Meaning := if Nat.land w mask = w then c else none

/-- `ws` in pieces of `k` words, at most `n` of them. -/
def chunks (k : Nat) : Nat → List Nat → List (List Nat)
  | 0, _ => []
  | n + 1, ws => ws.take k :: chunks k n (ws.drop k)

/-- Pairs of words. -/
def wordPairs : List Nat → List (Nat × Nat)
  | a :: b :: l => (a, b) :: wordPairs l
  | _ => []

/-- A value of two words. -/
def wide (lo hi : Nat) : Nat := lo + hi * 2 ^ 32

/-- A signed value of two words. -/
def wideInt (lo hi : Nat) : Int := if hi < 2 ^ 31 then (wide lo hi : Nat) else ((wide lo hi : Nat) : Int) - 2 ^ 64

/-- SYS and GATE commands (Table 21-7). -/
def sysCommand (m op : Nat) (ws : List Nat) : Option Meaning :=
  match op, ws with
  | 0x0101, [] => some (execSysInfo m)
  | 0x0102, [w] => if w = 0 then some (execSysClaimChallenge m) else if w = 2 then some (execSysClaimRelease m) else none
  | 0x0102, w :: po => if w = 1 ∧ po.length = 4 then some (execSysClaimProve m po) else none
  | 0x0103, [w] => onlyBits w 0xFFFF000F (some (execSysDeputy m (bits w 3 0) (bits w 31 16)))
  | 0x0104, [w] =>
    match bits w 1 0 with
    | 1 => onlyBits w 3 (some (execSysResetWarm m))
    | 2 => onlyBits w 0xF3 (some (execSysResetHost m (bits w 7 4)))
    | 3 => onlyBits w 0x1F0003 (some (execSysResetPort m (bits w 20 16)))
    | _ => none
  | 0x0201, [t, w] => onlyBits t 0x7F (some (execGateSet m t w none))
  | 0x0201, [t, w, a, b] => onlyBits t 0x7F (some (execGateSet m t w (some (a, b))))
  | 0x0202, [t] => onlyBits t 0x7F (some (execGateGet m t))
  | _, _ => none

/-- TUNNEL and PLAN commands (Tables 21-8 and 21-9). -/
def tunnelCommand (m op : Nat) (ws : List Nat) : Option Meaning :=
  match op, ws with
  | 0x0301, w :: d => onlyBits w 0xFFF (if d.length = 8 then some (execTunnelOpen m w d) else none)
  | 0x0302, [w] => onlyBits w 0x3FFFF (some (execTunnelClose m (bits w 11 0) (bits w 15 12) (bit w 16) (bit w 17)))
  | 0x0303, w :: d =>
    onlyBits w 0xFFFF (if d.length = 8 then some (execTunnelModify m (bits w 11 0) (bits w 15 12) d) else none)
  | 0x0304, [w] => onlyBits w 0x3FFFF (some (execTunnelQuery m (bits w 11 0) (bits w 15 12) (bit w 16) (bit w 17)))
  | 0x0401, [] => some (execPlanBegin m)
  | 0x0402, w :: l =>
    let n := bits w 20 16
    onlyBits w 0x1FFFFF (if l.length = 10 * n then some (execPlanStage m (bits w 15 0) (chunks 10 n l)) else none)
  | 0x0403, [w] => onlyBits w 0xFFFF (some (execPlanCheck m w))
  | 0x0404, [w, a, b] => onlyBits w 0xFFFF (onlyBits b 0xFFFF (some (execPlanArm m w (wide a b))))
  | 0x0405, [w] => onlyBits w 0xFFFF (some (execPlanAbort m w))
  | 0x0406, [w] => onlyBits w 0xF1 (some (execPlanStatus m (bit w 0) (bits w 7 4)))
  | _, _ => none

/-- PORT, TICK and TIME commands (Table 21-10). -/
def portCommand (m op : Nat) (ws : List Nat) : Option Meaning :=
  match op, ws with
  | 0x0501, w :: l =>
    let c := bits w 4 0
    onlyBits w 0x31F (match bits w 9 8, l with
      | 0, l => some (execPortTrainConfig m c l)
      | 1, l => some (execPortTrainTrain m c l)
      | 2, [] => some (execPortTrainDisable m c)
      | 3, [] => some (execPortTrainReturn m c)
      | _, _ => none)
  | 0x0502, [w] => onlyBits w 0x11F (if bits w 4 0 = 0 then none else some (execPortState m (bits w 4 0) (bit w 8) 0 0))
  | 0x0502, [w, v] =>
    onlyBits w 0x11F (onlyBits v 0x3FFF (if bits w 4 0 ≠ 0 then none
      else some (execPortState m 0 (bit w 8) (bits v 7 0) (bits v 13 8))))
  | 0x0503, [w] =>
    onlyBits w 0x371F (match bits w 13 12 with
      | 0 => some (execPortSpareRestore m (bits w 4 0) (bits w 10 8))
      | 1 => some (execPortSpareRetire m (bits w 4 0) (bits w 10 8))
      | _ => none)
  | 0x0504, w :: l => onlyBits w 0x3F (if l.length = 5 * w then some (execPortRoute m (chunks 5 w l)) else none)
  | 0x0601, [w, a, b] => onlyBits w 0xFF (onlyBits b 0xFFFF (some (execTickSet m w (wide a b))))
  | 0x0701, [w, a, b] =>
    onlyBits w 0x131 (some (if bit w 8 then execTimeSyncStep m (bits w 0 0) (bits w 5 4) (wideInt a b)
      else execTimeSync m (bits w 0 0) (bits w 5 4)))
  | _, _ => none

/-- PWR commands (Table 21-12). -/
def powerCommand (m op : Nat) (ws : List Nat) : Option Meaning :=
  match op, ws with
  | 0x0801, w :: l =>
    let f := bits w 0 0
    onlyBits w 0x31 (match bits w 5 4, l with
      | 0, l => if l.length = 5 then some (execPwrFeedConfig m f l) else none
      | 1, [a, b] => some (execPwrFeedSelect m a b)
      | 2, [] => some (execPwrFeedQuery m f)
      | _, _ => none)
  | 0x0802, w :: l =>
    let n := bits w 3 0
    onlyBits w 0x70F (match bits w 10 8, l with
      | 0, l => if l.length = 6 then some (execPwrPortConfig m n l) else none
      | 1, [] => some (execPwrPortQuery m n)
      | 2, [] => some (execPwrPortRestart m n)
      | 3, [] => some (execPwrPortOff m n)
      | 4, [v] => onlyBits v 0xFFF (some (execPwrPortVset m n v))
      | _, _ => none)
  | 0x0803, w :: l => onlyBits w 0x1F (if l.length = 8 then some (execPwrCurve m w l) else none)
  | 0x0804, [w] => some (execPwrBudget m w)
  | _, _ => none

/-- PD commands (Table 21-12). -/
def pdCommand (m op : Nat) (ws : List Nat) : Option Meaning :=
  match op, ws with
  | 0x0901, w :: l => onlyBits w 0xF (if l.length = 10 then some (execPdTx m w l) else none)
  | 0x0902, [w] => onlyBits w 0x3F0F (some (execPdRx m (bits w 3 0) (bit w 8) (bits w 12 9) (bit w 13)))
  | 0x0903, [w, v] =>
    let n := bits w 3 0
    onlyBits w 0x30F (match bits w 9 8 with
      | 0 => some (execPdTimerSet m n v)
      | 1 => onlyBits v 0xFFFF0003 (some (execPdTimerStart m n (bits v 1 0) (bits v 31 16)))
      | 2 => onlyBits v 3 (some (execPdTimerCancel m n v))
      | _ => none)
  | 0x0904, w :: l =>
    let n := bits w 3 0
    onlyBits w 0xF0F (match bits w 11 8, l with
      | 0, [] => some (execPdRoleClaim m n)
      | 1, [] => some (execPdRoleRelease m n)
      | 2, [v] => onlyBits v 3 (some (execPdRoleRp m n v))
      | 3, [v] => onlyBits v 1 (some (execPdRoleDrole m n v))
      | 4, [] => some (execPdRoleVconnOn m n)
      | 5, [] => some (execPdRoleVconnOff m n)
      | 6, [] => some (execPdRoleSwapToSink m n)
      | 7, [] => some (execPdRoleSwapToSource m n)
      | 8, [v] => onlyBits v 1 (some (execPdRoleFrsArm m n v))
      | 9, [v] => onlyBits v 1 (some (execPdRoleEpr m n v))
      | 10, [] => some (execPdRoleErrorRecovery m n)
      | 11, [v] => onlyBits v 0x1F (some (execPdRoleVconnIlim m n v))
      | _, _ => none)
  | _, _ => none

/-- RASTER and DMA commands (Table 21-13). -/
def mediaCommand (m op : Nat) (ws : List Nat) : Option Meaning :=
  match op, ws with
  | 0x0A01, w :: l =>
    let n := bits w 2 0
    onlyBits w 0x707 (
      if bit w 8 then (if l.isEmpty then some (execRasterSetupQuery m n (bits w 10 10)) else none)
      else if bit w 9 then
        (if l.length = 18 then some (execRasterSetup m n (l.take 17) (some (bits w 10 10, l.getD 17 0))) else none)
      else if l.length = 17 then some (execRasterSetup m n l none) else none)
  | 0x0A02, w :: l =>
    let n := bits w 2 0
    onlyBits w 0x307 (match bits w 9 8, l with
      | 0, [v] => onlyBits v 7 (some (execRasterWitnessSet m n (bit v 0) (bits v 2 1)))
      | 1, [] => some (execRasterWitnessResume m n)
      | 2, [] => some (execRasterWitnessQuery m n)
      | _, _ => none)
  | 0x0B01, [w, a, b, k] =>
    onlyBits w 0x373F (onlyBits b 0xFF (onlyBits k 0x1FFF
      (some (execDmaLoad m (bits w 5 0) (bits w 10 8) (bit w 12) (bit w 13) (wide a b) k))))
  | 0x0B02, [w] => onlyBits w 0x3F (some (execDmaStart m w))
  | 0x0B03, [w] =>
    onlyBits w 0x33F (some (if bit w 9 then execDmaStopQuery m (bits w 5 0) else execDmaStop m (bits w 5 0) (bit w 8)))
  | _, _ => none

/-- USB commands (Table 21-13). -/
def usbCommand (m op : Nat) (ws : List Nat) : Option Meaning :=
  match op, ws with
  | 0x0C01, w :: l => onlyBits w 0x3F (if l.length = 2 * w then some (execUsbCarve m (wordPairs l)) else none)
  | 0x0C02, w :: l =>
    let t := bits w 6 0
    onlyBits w 0x37F (match bits w 9 8, l with
      | 0, [a, b] => some (execUsbFuncItems m t a b)
      | 1, [v] => onlyBits v 3 (some (execUsbFuncVerbosity m t v))
      | 2, [] => some (execUsbFuncQuery m t)
      | _, _ => none)
  | 0x0C03, w :: l =>
    match w, l with
    | 0, [] => some (execUsbConnectChallenge m)
    | 1, v :: ps => onlyBits v 0x7FF (if ps.length = 4 then some (execUsbConnectProve m v ps) else none)
    | 2, [] => some (execUsbConnectDisconnect m)
    | _, _ => none
  | _, _ => none

/-- FAULT commands (Table 21-14). -/
def faultCommand (m op : Nat) (ws : List Nat) : Option Meaning :=
  match op, ws with
  | 0x0D01, w :: l =>
    match w, l with
    | 0, [] => some (execFaultRead m 0 0 0 0)
    | 1, [v] => onlyBits v 0x3FFF (some (execFaultRead m 1 0 (bits v 7 0) (bits v 13 8)))
    | 2, [v] => onlyBits v 0x3FFF1F (some (execFaultRead m 2 (bits v 4 0) (bits v 15 8) (bits v 21 16)))
    | 3, [] => some (execFaultRead m 3 0 0 0)
    | _, _ => none
  | 0x0D02, w :: v :: l =>
    onlyBits w 0x8000007F (if l.length = 2 * bits w 6 0 ∧ (v = 0 ∨ imageLegal rowsFcol 0x7000048 v) then
      some (execFaultConfig m (if bit w 31 then some v else none) (wordPairs l)) else none)
  | 0x0D03, [w] =>
    onlyBits w 0xFFFF03FF (match bits w 9 8 with
      | 0 => some (execFaultForceSet m (bits w 7 0) (bits w 31 16))
      | 1 => some (execFaultForceClear m (bits w 7 0))
      | 2 => some (execFaultForcePulse m (bits w 7 0) (bits w 31 16))
      | _ => none)
  | 0x0D04, w :: l =>
    onlyBits w 0x1F07 (if l.length = 8 then
      some (execFaultClear m (if bit w 2 then some (bits w 12 8) else none) (bit w 1) (bit w 0) l) else none)
  | _, _ => none

/-- KEY, STATE and TEST commands (Table 21-14). -/
def keyCommand (m op : Nat) (ws : List Nat) : Option Meaning :=
  match op, ws with
  | 0x0E01, [w, v] =>
    onlyBits w 0x3FFF7F00 (some (execKeyDerive m (bits w 14 8) (bits w 19 16) (bits w 24 20) (bits w 29 25) v))
  | 0x0E01, [w] => if bits w 1 0 = 1 then onlyBits w 0x703 (some (execKeyDeriveAdvance m (bits w 10 8))) else none
  | 0x0E02, [w] => onlyBits w 0x7F (some (execKeyRevoke m w))
  | 0x0E03, [w, a, b, k] => if w = 1 then onlyBits b 0xFF (some (execKeyCheckPatch m (wide a b) k)) else none
  | 0x0E03, w :: n => onlyBits w 0x7F00 (if n.length = 4 then some (execKeyCheck m (bits w 14 8) n) else none)
  | 0x0F01, w :: l =>
    onlyBits w 0x37 (match bits w 5 4, l with
      | 0, [] => some (execStateEnter m (bits w 1 0) (bit w 2))
      | 1, [a, b] => some (execStateEnterConfig m a b)
      | 2, [] => some (execStateEnterQuery m)
      | _, _ => none)
  | 0x1001, [w] =>
    if w = 1 then some (execTestObsQuery m)
    else onlyBits w 0x1FF7700 (some (execTestObsSet m (bits w 10 8) (bits w 14 12) (bits w 23 16) (bit w 24)))
  | _, _ => none

/-- The command of master `m` that an opcode and its argument words spell, or none: a reserved opcode, a wrong length or a
reserved bit (R609). -/
def mailboxCommand (m op : Nat) (ws : List Nat) : Option Meaning :=
  match op / 256 with
  | 1 | 2 => sysCommand m op ws
  | 3 | 4 => tunnelCommand m op ws
  | 5 | 6 | 7 => portCommand m op ws
  | 8 => powerCommand m op ws
  | 9 => pdCommand m op ws
  | 10 | 11 => mediaCommand m op ws
  | 12 => usbCommand m op ws
  | 13 => faultCommand m op ws
  | 14 | 15 | 16 => keyCommand m op ws
  | _ => none

end Sys2Proof.Machine
end

