-- ==== Sys2Proof/Machine/Service.lean ====
section
/-!
DEFINITION. Meaning: the command service slot (task 11 of Table 2-4, R62, R614 to R616).
-/

namespace Sys2Proof.Machine

open Sys2Proof

/-- The state after a meaning, which always answers one. -/
def after (o : Host.Outcome State Fault Refusal) (s : State) : State :=
  match o with
  | .next t => t
  | _ => s

/-- The completion step of a command that has waited (R616). -/
def Hub.completionStep (h : Hub) (m op : Nat) (p : Parked) : Hub :=
  let ok := tabGet h.ctl.ended (k1 m) 0 == 1
  let (a, h) := match p with
    | .pd n => (match h.pdTxDone n with | (some a, h) => (a, h) | (none, h) => h.ok [])
    | .raster n d w ws => h.rasterSetupDone n ws d w ok
    | .spare c l => h.spareDone c l
    | .advance d => h.keyAdvanced d
    | .patch i seq len fail => h.patchDone i seq len fail
    | .enter => ({ status := h.ctl.entryEnd.getD stOk }, h.modCtl (fun c => { c with entryEnd := none }))
  h.complete m op a

/-- Opcode in the command buffer of mailbox `m`. -/
def Hub.bufferOp (h : Hub) (m : Nat) : Nat := bits (h.get (R.mbxCmdWord m 0)) 31 16

/-- The command that mailbox `m` holds is served: its opcode and argument block say which it is, and anything that they do
not spell is answered with BAD_ARG (R608, R609). -/
def State.serveMailbox (s : State) (m : Nat) : State :=
  let w := s.hub.get (R.mbxCmdWord m 0)
  let op := s.hub.bufferOp m
  let n := bits w 9 0
  let ws := (List.range (n / 4)).map (fun k => s.hub.get (R.mbxCmdWord m (2 + k)))
  let c := if n % 4 = 0 ∧ n ≤ 1016 ∧ bits w 14 10 = 0 then mailboxCommand m op ws else none
  match c with
  | some f => after (f s) s
  | none => s.run m op (fun h => h.refuse stBadArg)


/-- The mailbox that is served next: the first in the service order, of those that the firmware serves at all (R597). -/
def Hub.nextServed (h : Hub) : Option Nat := h.ctl.order.find? (fun m => (h.parkedOf m).isSome || h.serves m (h.bufferOp m))

/-- The next command of the service order: `done` where it completes within this slot, otherwise it resumes first in the
next (R63, R614). -/
def State.serveFirst (s : State) (done : Bool) : State :=
  match s.hub.nextServed with
  | none => s
  | some m =>
    match s.hub.parkedOf m with
    | some (op, p) => if done then s.act (fun h => h.completionStep m op p) else s
    | none =>
      if done then s.serveMailbox m else s.act (fun h => h.serving m)

/-- TWIOP_COMMAND_SERVICE (R62, R614 to R617): task 11, until the slot ends at 0.8 × P, serves the first command of the
service order; `done` where it completes in this slot. -/
def execTwiopCommandService (done : Bool) (s : State) : Host.Outcome State Fault Refusal :=
  if s.hub.tick.slotEnded ∨ ¬ s.hub.domainsOn then .next s
  else .next (({ s with hub := { s.hub with tick := { s.hub.tick with task := 11 } } } : State).serveFirst done)

end Sys2Proof.Machine
end

