-- ==== Sys2Proof/Machine/StartFam.lean ====
section
/-!
DEFINITION. Meanings: start-up and resets (R592, R596 to R599, R642), and the fault collector (R23, R542 to R551).
-/

namespace Sys2Proof.Machine

open Sys2Proof

/-- POWER_ON (R596): cold start; the straps are sampled (R341, R638). -/
def execPowerOn (lkind lsnk : Nat) (hbcompat : Bool) (smbadr : Nat) (s : State) : Host.Outcome State Fault Refusal :=
  .next (s.cold 0 lkind lsnk hbcompat smbadr)

/-- FIRMWARE_READY (R596): the self-test's failing regions, and the outcome of LP5 training of a cold start: data rate
code, second rank and density code, or none where no rate trains. -/
def execFirmwareReady (fails : Nat) (lp5 : Option (Nat × Bool × Nat)) (s : State) : Host.Outcome State Fault Refusal :=
  .next (s.act (fun h => h.firmwareReady fails lp5))

/-- BROWN_OUT (R592): the always-on supply falls below its threshold. -/
def execBrownOut (lkind lsnk : Nat) (hbcompat : Bool) (smbadr : Nat) (s : State) : Host.Outcome State Fault Refusal :=
  .next (s.cold 1 lkind lsnk hbcompat smbadr)

/-- Is the hub in a state in which the supplies of groups 2 to 4 are watched: lit, idle, or an entry before its point of
no return (R642)? -/
def Hub.suppliesWatched (h : Hub) : Bool :=
  h.psIs psLit || h.psIs psIdle ||
  (h.psIs psEntering && (match h.ctl.entry with | some e => e.past.isNone | none => true))

/-- SUPPLY_OUT_OF_RANGE (R642). -/
def execSupplyOutOfRange (lkind lsnk : Nat) (hbcompat : Bool) (smbadr : Nat) (s : State) :
    Host.Outcome State Fault Refusal :=
  .next (if s.hub.suppliesWatched then s.cold 1 lkind lsnk hbcompat smbadr else s)

/-- RESET_N_LOW (R598, R601). -/
def execResetNLow (s : State) : Host.Outcome State Fault Refusal := .next (s.act Hub.resetLow)

/-- RESET_N_RELEASE (R598, R658). -/
def execResetNRelease (s : State) : Host.Outcome State Fault Refusal := .next (s.act Hub.resetRises)

/-- WARM_RESET (R599): the warm reset that a SYS.RESET or the containment of CORE_WDOG has made due begins. -/
def execWarmReset (s : State) : Host.Outcome State Fault Refusal :=
  .next (match s.hub.ctl.resetDue with
    | some cause => s.act (fun h => h.warmBegin cause)
    | none => s)

/-- ERROR_LINE_RISE (R23): the line of source `i` rises with a DETAIL. -/
def execErrorLineRise (i detail : Nat) (s : State) : Host.Outcome State Fault Refusal :=
  .next (s.act (fun h => h.lineRise i detail))

/-- QUENCH (R547): the quench timer of source `i` reaches QPER. -/
def execQuench (i : Nat) (s : State) : Host.Outcome State Fault Refusal := .next (s.act (fun h => h.quench i))

/-- FAULT_N_PULSE_END (R551). -/
def execFaultNPulseEnd (s : State) : Host.Outcome State Fault Refusal := .next (s.act Hub.pulseOver)

/-- CORE_WDOG (R542). -/
def execCoreWdog (s : State) : Host.Outcome State Fault Refusal := .next (s.act Hub.coreWdog)

/-- ERROR_LINE_FALL (R547): the signal of source `i` falls, and its quench timer starts. -/
def execErrorLineFall (i : Nat) (s : State) : Host.Outcome State Fault Refusal := .next (s.act (fun h => h.lineFall i))

/-- REGION_STATUS_CLEAR (R549): master `m` writes a mask of ones to the status word of region `r`. -/
def execRegionStatusClear (m r mask tag : Nat) (posted : Bool) (s : State) : Host.Outcome State Fault Refusal :=
  .next (s.act (fun h => h.directWord m { tag := tag, posted := posted } (r * 0x1000000) mask))

/-- REGISTER_WRITE (R43): a direct write of master `m`. -/
def execRegisterWrite (m addr : Nat) (data : List Byte) (tag : Nat) (posted : Bool) (s : State) :
    Host.Outcome State Fault Refusal :=
  .next (s.act (fun h => h.directWrite m { tag := tag, posted := posted } addr data))

/-- QUEUE_COUNTER_READ_CLEAR (R285): a direct read of `n` bytes of the queue counter window. -/
def execQueueCounterReadClear (m addr n tag : Nat) (s : State) : Host.Outcome State Fault Refusal :=
  .next (s.act (fun h => h.directRead m { tag := tag, posted := false } addr n))

end Sys2Proof.Machine
end

