-- ==== Sys2Proof/Machine/TickFam.lean ====
section
/-!
DEFINITION. Meanings: the tick sequence (R61 to R68) and time exchange (R53 to R57). A task runs once per tick and in
the order of Table 2-4.
-/

namespace Sys2Proof.Machine

open Sys2Proof

/-- TICK_BOUNDARY (R61, R69). -/
def execTickBoundary (s : State) : Host.Outcome State Fault Refusal := .next (s.act Hub.tickBoundary)

/-- TICK_OVERRUN (R67, R68). -/
def execTickOverrun (s : State) : Host.Outcome State Fault Refusal := .next (s.act Hub.tickOverrun)

/-- STRIKE_SUMMARY_BUILD (R225): task 2. -/
def execStrikeSummaryBuild (s : State) : Host.Outcome State Fault Refusal :=
  .next (s.act (fun h => h.task 2 false Hub.buildSummaries))

/-- STRIKE_SUMMARY_PLACED (R65): the summaries built go ahead of every other band 0 frame. -/
def execStrikeSummaryPlaced (s : State) : Host.Outcome State Fault Refusal := .next (s.act Hub.placeSummaries)

/-- FAULT_COLLECTOR_SWEEP (R555): task 3. -/
def execFaultCollectorSweep (s : State) : Host.Outcome State Fault Refusal :=
  .next (s.act (fun h => h.task 3 true Hub.sweep))

/-- NOTIFICATION_QUEUEING (R61): task 4. -/
def execNotificationQueueing (s : State) : Host.Outcome State Fault Refusal :=
  .next (s.act (fun h => h.task 4 true Hub.notifyTask))

/-- QUEUE_SAMPLING (R284): task 5. -/
def execQueueSampling (s : State) : Host.Outcome State Fault Refusal :=
  .next (s.act (fun h => h.task 5 false Hub.sampleAll))

/-- TIME_EXCHANGE_SERVICE (R54): task 6. -/
def execTimeExchangeService (s : State) : Host.Outcome State Fault Refusal :=
  .next (s.act (fun h => h.task 6 true Hub.timeTask))

/-- The trial eyes of one trunk lane: port code, lane, and height and width of the eye one code up and one code down. -/
abbrev TrialEyes := Nat × Nat × (Nat × Nat) × (Nat × Nat)

/-- Tempering of one trunk lane by its trial eyes (R195, R197). -/
def Hub.temperOne (h : Hub) (p : TrialEyes) : Hub :=
  let (c, l, up, dn) := p
  if isTrunk c && decide (l < 5) && !h.temperSkipped c then h.temperLane c l (fomOf up.1 up.2) (fomOf dn.1 dn.2) else h

/-- Task 7 (R192, R194, R422, R536): trial eyes by trunk code and lane, each lane once; every port with a free spare rotates
it, tempered or not; what the converter visit finds (offset and gain errors, lost); DP lanes whose swing is off, with the
direction that lessens the error. -/
def Hub.tempering (h : Hub) (eyes : List TrialEyes) (adc : Int × Int × Bool) (trims : List (Nat × Nat × Bool)) : Hub :=
  let h := h.each [1, 2, 3, 4] (fun h c => h.modPort c (fun p => { p with tempered := true }))
  let once := eyes.foldl (fun (l : List TrialEyes) x =>
    if l.any (fun y => y.1 == x.1 && y.2.1 == x.2.1) then l else l ++ [x]) []
  let h := h.each once Hub.temperOne
  let h := h.each [1, 2, 3, 4] (fun h c => h.rotateSpare c)
  let h := h.adcTrim adc.1 adc.2.1 adc.2.2
  h.each trims (fun h t => h.when (decide (t.1 < 2) && decide (t.2.1 < 4)) (fun h => h.trimLane t.1 t.2.1 t.2.2))

/-- TEMPERING (R194): task 7. -/
def execTempering (eyes : List TrialEyes) (adc : Int × Int × Bool) (trims : List (Nat × Nat × Bool))
    (s : State) : Host.Outcome State Fault Refusal :=
  .next (s.act (fun h => h.task 7 false (fun h => h.tempering eyes adc trims)))

/-- TELEMETRY_MIRROR_SEND (R392): task 8. -/
def execTelemetryMirrorSend (s : State) : Host.Outcome State Fault Refusal :=
  .next (s.act (fun h => h.task 8 true Hub.mirrorTask))

/-- RASTER_FETCH_ACCOUNTING (R61): task 9. -/
def execRasterFetchAccounting (s : State) : Host.Outcome State Fault Refusal :=
  .next (s.act (fun h => h.task 9 false Hub.fetchAccount))

/-- KEY_ROTATION_PREPARATION (R160): task 10. -/
def execKeyRotationPreparation (s : State) : Host.Outcome State Fault Refusal :=
  .next (s.act (fun h => h.task 10 false Hub.keyPrepare))

/-- SERVICE_SLOT_END (R62). -/
def execServiceSlotEnd (s : State) : Host.Outcome State Fault Refusal := .next (s.act Hub.slotEnd)

/-- TIME_REQUEST (R55): a time frame of host `m` on tunnel 0x00E that holds a request. -/
def execTimeRequest (m : Nat) (payload : List Byte) (s : State) : Host.Outcome State Fault Refusal :=
  .next (s.act (fun h => h.when (decide (m < 4)) (fun h => h.timeFrame m payload)))

/-- TIME_REPORT (R57): a time frame of host `m` on tunnel 0x00E that holds a report. -/
def execTimeReport (m : Nat) (payload : List Byte) (s : State) : Host.Outcome State Fault Refusal :=
  .next (s.act (fun h => h.when (decide (m < 4)) (fun h => h.timeFrame m payload)))

end Sys2Proof.Machine
end

