-- ==== Sys2Proof/Machine/Dispatch.lean ====
section
/-!
DEFINITION. One arm per command: the arm calls that command's meaning.
-/

namespace Sys2Proof.Machine

open Sys2Proof

def exec (instr : Instr) (s : State) : Host.Outcome State Fault Refusal :=
  match instr with
  | .powerOn lkind lsnk hbcompat smbadr => Sys2Proof.Machine.execPowerOn lkind lsnk hbcompat smbadr s
  | .firmwareReady fails lp5 => Sys2Proof.Machine.execFirmwareReady fails lp5 s
  | .brownOut lkind lsnk hbcompat smbadr => Sys2Proof.Machine.execBrownOut lkind lsnk hbcompat smbadr s
  | .supplyOutOfRange lkind lsnk hbcompat smbadr => Sys2Proof.Machine.execSupplyOutOfRange lkind lsnk hbcompat smbadr s
  | .resetNLow => Sys2Proof.Machine.execResetNLow s
  | .resetNRelease => Sys2Proof.Machine.execResetNRelease s
  | .warmReset => Sys2Proof.Machine.execWarmReset s
  | .errorLineRise i detail => Sys2Proof.Machine.execErrorLineRise i detail s
  | .quench i => Sys2Proof.Machine.execQuench i s
  | .faultNPulseEnd => Sys2Proof.Machine.execFaultNPulseEnd s
  | .coreWdog => Sys2Proof.Machine.execCoreWdog s
  | .regionStatusClear m r mask tag posted => Sys2Proof.Machine.execRegionStatusClear m r mask tag posted s
  | .registerWrite m addr data tag posted => Sys2Proof.Machine.execRegisterWrite m addr data tag posted s
  | .queueCounterReadClear m addr n tag => Sys2Proof.Machine.execQueueCounterReadClear m addr n tag s
  | .tickBoundary => Sys2Proof.Machine.execTickBoundary s
  | .tickOverrun => Sys2Proof.Machine.execTickOverrun s
  | .strikeSummaryBuild => Sys2Proof.Machine.execStrikeSummaryBuild s
  | .strikeSummaryPlaced => Sys2Proof.Machine.execStrikeSummaryPlaced s
  | .faultCollectorSweep => Sys2Proof.Machine.execFaultCollectorSweep s
  | .notificationQueueing => Sys2Proof.Machine.execNotificationQueueing s
  | .queueSampling => Sys2Proof.Machine.execQueueSampling s
  | .timeExchangeService => Sys2Proof.Machine.execTimeExchangeService s
  | .tempering eyes adc trims => Sys2Proof.Machine.execTempering eyes adc trims s
  | .telemetryMirrorSend => Sys2Proof.Machine.execTelemetryMirrorSend s
  | .rasterFetchAccounting => Sys2Proof.Machine.execRasterFetchAccounting s
  | .keyRotationPreparation => Sys2Proof.Machine.execKeyRotationPreparation s
  | .twiopCommandService done => Sys2Proof.Machine.execTwiopCommandService done s
  | .serviceSlotEnd => Sys2Proof.Machine.execServiceSlotEnd s
  | .timeRequest m payload => Sys2Proof.Machine.execTimeRequest m payload s
  | .timeReport m payload => Sys2Proof.Machine.execTimeReport m payload s
  | .frameIngress c k f arrived => Sys2Proof.Machine.execFrameIngress c k f arrived s
  | .fenceRelease c => Sys2Proof.Machine.execFenceRelease c s
  | .heldFrameRejudge => Sys2Proof.Machine.execHeldFrameRejudge s
  | .holdTimeout c k => Sys2Proof.Machine.execHoldTimeout c k s
  | .ctWaitTimeout t dir => Sys2Proof.Machine.execCtWaitTimeout t dir s
  | .scrubSweep reads differ => Sys2Proof.Machine.execScrubSweep reads differ s
  | .egressSelect e ecc => Sys2Proof.Machine.execEgressSelect e ecc s
  | .bellowsReady t dir => Sys2Proof.Machine.execBellowsReady t dir s
  | .guardExpiry e => Sys2Proof.Machine.execGuardExpiry e s
  | .schStarve e => Sys2Proof.Machine.execSchStarve e s
  | .drainComplete t => Sys2Proof.Machine.execDrainComplete t s
  | .drainTimeout t => Sys2Proof.Machine.execDrainTimeout t s
  | .quarantineEnd t => Sys2Proof.Machine.execQuarantineEnd t s
  | .signalDetect c => Sys2Proof.Machine.execSignalDetect c s
  | .trainReceived c l w => Sys2Proof.Machine.execTrainReceived c l w s
  | .fomMeasurement c l eye => Sys2Proof.Machine.execFomMeasurement c l eye s
  | .capTimeout c => Sys2Proof.Machine.execCapTimeout c s
  | .eqTimeout c => Sys2Proof.Machine.execEqTimeout c s
  | .readyTimeout c => Sys2Proof.Machine.execReadyTimeout c s
  | .linkUnitReceived c ccls seq fs cnt crc blocks last => Sys2Proof.Machine.execLinkUnitReceived c ccls seq fs cnt crc blocks last s
  | .ackReceived c k ackSeq => Sys2Proof.Machine.execAckReceived c k ackSeq s
  | .nakReceived c k ackSeq nseq => Sys2Proof.Machine.execNakReceived c k ackSeq nseq s
  | .creditReceived c ctl iso rtx blk => Sys2Proof.Machine.execCreditReceived c ctl iso rtx blk s
  | .csyncReceived c iso blk => Sys2Proof.Machine.execCsyncReceived c iso blk s
  | .probeReceived c pid resp => Sys2Proof.Machine.execProbeReceived c pid resp s
  | .alignReceived c skew restart marks => Sys2Proof.Machine.execAlignReceived c skew restart marks s
  | .eidleReceived c => Sys2Proof.Machine.execEidleReceived c s
  | .ackPeriod c => Sys2Proof.Machine.execAckPeriod c s
  | .nakResend c k => Sys2Proof.Machine.execNakResend c k s
  | .replayTimeout c k => Sys2Proof.Machine.execReplayTimeout c k s
  | .creditPeriod c => Sys2Proof.Machine.execCreditPeriod c s
  | .csyncPeriod c => Sys2Proof.Machine.execCsyncPeriod c s
  | .linkSilent c => Sys2Proof.Machine.execLinkSilent c s
  | .linkUnitBoundary c ecc => Sys2Proof.Machine.execLinkUnitBoundary c ecc s
  | .ident n host payload => Sys2Proof.Machine.execIdent n host payload s
  | .proof n payload => Sys2Proof.Machine.execProof n payload s
  | .proofTimeout n => Sys2Proof.Machine.execProofTimeout n s
  | .electricalIdleEntry c => Sys2Proof.Machine.execElectricalIdleEntry c s
  | .electricalIdleExit c rx unlocked => Sys2Proof.Machine.execElectricalIdleExit c rx unlocked s
  | .lossOfSignal c l => Sys2Proof.Machine.execLossOfSignal c l s
  | .lossOfLock c bad => Sys2Proof.Machine.execLossOfLock c bad s
  | .lossOfAlignment c l => Sys2Proof.Machine.execLossOfAlignment c l s
  | .failedEye c l => Sys2Proof.Machine.execFailedEye c l s
  | .spareMism c rows => Sys2Proof.Machine.execSpareMism c rows s
  | .temperUndo c l => Sys2Proof.Machine.execTemperUndo c l s
  | .laneRestoreSwitch c => Sys2Proof.Machine.execLaneRestoreSwitch c s
  | .trigInEdge i level half => Sys2Proof.Machine.execTrigInEdge i level half s
  | .strikeReceived c copies => Sys2Proof.Machine.execStrikeReceived c copies s
  | .strikeRowSend c => Sys2Proof.Machine.execStrikeRowSend c s
  | .pulseEnd k => Sys2Proof.Machine.execPulseEnd k s
  | .pulseCrossingAck ch => Sys2Proof.Machine.execPulseCrossingAck ch s
  | .summaryReconcile n via payload => Sys2Proof.Machine.execSummaryReconcile n via payload s
  | .summaryTimeout n k => Sys2Proof.Machine.execSummaryTimeout n k s
  | .creditStall n k => Sys2Proof.Machine.execCreditStall n k s
  | .retrainWaitExpiry n => Sys2Proof.Machine.execRetrainWaitExpiry n s
  | .autoReturn n => Sys2Proof.Machine.execAutoReturn n s
  | .tunnelReturn t dir => Sys2Proof.Machine.execTunnelReturn t dir s
  | .deputyTakeover => Sys2Proof.Machine.execDeputyTakeover s
  | .lineAttachCondition n => Sys2Proof.Machine.execLineAttachCondition n s
  | .lineAttachConditionEnd n => Sys2Proof.Machine.execLineAttachConditionEnd n s
  | .nodeinfo n payload => Sys2Proof.Machine.execNodeinfo n payload s
  | .nodeProof n payload => Sys2Proof.Machine.execNodeProof n payload s
  | .depart n => Sys2Proof.Machine.execDepart n s
  | .helloTimeout n => Sys2Proof.Machine.execHelloTimeout n s
  | .lineRetrainWait n => Sys2Proof.Machine.execLineRetrainWait n s
  | .nodeBusRd n f inTime => Sys2Proof.Machine.execNodeBusRd n f inTime s
  | .nodeBusWr n f => Sys2Proof.Machine.execNodeBusWr n f s
  | .nodeBusPwr n f => Sys2Proof.Machine.execNodeBusPwr n f s
  | .nodeBusResponse n f => Sys2Proof.Machine.execNodeBusResponse n f s
  | .nodeBusTimeout n => Sys2Proof.Machine.execNodeBusTimeout n s
  | .storageRead f => Sys2Proof.Machine.execStorageRead f s
  | .storageWrite f => Sys2Proof.Machine.execStorageWrite f s
  | .pieceComplete => Sys2Proof.Machine.execPieceComplete s
  | .holdExpiry t gen tag => Sys2Proof.Machine.execHoldExpiry t gen tag s
  | .nodeHoldExpiry n addr len => Sys2Proof.Machine.execNodeHoldExpiry n addr len s
  | .telemetryUpdate f => Sys2Proof.Machine.execTelemetryUpdate f s
  | .latchPoint n => Sys2Proof.Machine.execLatchPoint n s
  | .flipArm m n id arm tag posted => Sys2Proof.Machine.execFlipArm m n id arm tag posted s
  | .flipAddressWrite m n p hi v tag posted => Sys2Proof.Machine.execFlipAddressWrite m n p hi v tag posted s
  | .pixelPllLock n => Sys2Proof.Machine.execPixelPllLock n s
  | .underflow n => Sys2Proof.Machine.execUnderflow n s
  | .rasterLineSend n => Sys2Proof.Machine.execRasterLineSend n s
  | .witnessBandCompare n seen => Sys2Proof.Machine.execWitnessBandCompare n seen s
  | .irqHpd d lockLost retrained => Sys2Proof.Machine.execIrqHpd d lockLost retrained s
  | .hpdUnplug d => Sys2Proof.Machine.execHpdUnplug d s
  | .lp5Access client plane wr addr len data => Sys2Proof.Machine.execLp5Access client plane wr addr len data s
  | .lp5Refresh bank => Sys2Proof.Machine.execLp5Refresh bank s
  | .lp5Mr4Read v => Sys2Proof.Machine.execLp5Mr4Read v s
  | .lp5ZqCalibration => Sys2Proof.Machine.execLp5ZqCalibration s
  | .lp5WckCheck osc => Sys2Proof.Machine.execLp5WckCheck osc s
  | .lp5StateEntry => Sys2Proof.Machine.execLp5StateEntry s
  | .lp5StateExit => Sys2Proof.Machine.execLp5StateExit s
  | .dmaMove c ecc => Sys2Proof.Machine.execDmaMove c ecc s
  | .dmaLoop c => Sys2Proof.Machine.execDmaLoop c s
  | .dmaEndloop c => Sys2Proof.Machine.execDmaEndloop c s
  | .dmaWait c => Sys2Proof.Machine.execDmaWait c s
  | .dmaSignal c => Sys2Proof.Machine.execDmaSignal c s
  | .dmaFence c => Sys2Proof.Machine.execDmaFence c s
  | .dmaEnd c => Sys2Proof.Machine.execDmaEnd c s
  | .dmaWriteResponse c => Sys2Proof.Machine.execDmaWriteResponse c s
  | .dmaRequest l => Sys2Proof.Machine.execDmaRequest l s
  | .dmaWaitTimeout c => Sys2Proof.Machine.execDmaWaitTimeout c s
  | .doorbellStart m c tag posted => Sys2Proof.Machine.execDoorbellStart m c tag posted s
  | .doorbellStop m c tag posted => Sys2Proof.Machine.execDoorbellStop m c tag posted s
  | .usbBusReset bus during hs => Sys2Proof.Machine.execUsbBusReset bus during hs s
  | .usbSuspend bus => Sys2Proof.Machine.execUsbSuspend bus s
  | .usbHostResume bus done => Sys2Proof.Machine.execUsbHostResume bus done s
  | .usbRemoteWake d seenK => Sys2Proof.Machine.execUsbRemoteWake d seenK s
  | .setAddress d a => Sys2Proof.Machine.execSetAddress d a s
  | .setConfiguration d v => Sys2Proof.Machine.execSetConfiguration d v s
  | .setInterface d itf alt => Sys2Proof.Machine.execSetInterface d itf alt s
  | .getTunnelGen => Sys2Proof.Machine.execGetTunnelGen s
  | .logSelect d v => Sys2Proof.Machine.execLogSelect d v s
  | .setPortFeaturePortPower p => Sys2Proof.Machine.execSetPortFeaturePortPower p s
  | .clearPortFeaturePortPower p => Sys2Proof.Machine.execClearPortFeaturePortPower p s
  | .setPortFeaturePortReset p => Sys2Proof.Machine.execSetPortFeaturePortReset p s
  | .setPortFeaturePortSuspend p => Sys2Proof.Machine.execSetPortFeaturePortSuspend p s
  | .clearPortFeaturePortSuspend p => Sys2Proof.Machine.execClearPortFeaturePortSuspend p s
  | .usbManagementTransfer d f => Sys2Proof.Machine.execUsbManagementTransfer d f s
  | .isochronousReport rebuilt held => Sys2Proof.Machine.execIsochronousReport rebuilt held s
  | .usbOverCurrent p => Sys2Proof.Machine.execUsbOverCurrent p s
  | .vbusLoss p => Sys2Proof.Machine.execVbusLoss p s
  | .serviceSessionEnd => Sys2Proof.Machine.execServiceSessionEnd s
  | .ccCombinationChange n w1 w2 vbus rplvl => Sys2Proof.Machine.execCcCombinationChange n w1 w2 vbus rplvl s
  | .ccDebounceExpiry n => Sys2Proof.Machine.execCcDebounceExpiry n s
  | .ccDetach n => Sys2Proof.Machine.execCcDetach n s
  | .detachInTransition n => Sys2Proof.Machine.execDetachInTransition n s
  | .errorRecoveryEnd n => Sys2Proof.Machine.execErrorRecoveryEnd n s
  | .vconnOverCurrent n => Sys2Proof.Machine.execVconnOverCurrent n s
  | .pdMessageReceived n sopt hdr data crcOk => Sys2Proof.Machine.execPdMessageReceived n sopt hdr data crcOk s
  | .goodcrcTimeout n => Sys2Proof.Machine.execGoodcrcTimeout n s
  | .hardReset n sent => Sys2Proof.Machine.execHardReset n sent s
  | .hardResetSourceOff n => Sys2Proof.Machine.execHardResetSourceOff n s
  | .hardResetRecover n => Sys2Proof.Machine.execHardResetRecover n s
  | .hardResetSinkTimeout n => Sys2Proof.Machine.execHardResetSinkTimeout n s
  | .fastRoleSwapSignal n => Sys2Proof.Machine.execFastRoleSwapSignal n s
  | .frsSourceOn n => Sys2Proof.Machine.execFrsSourceOn n s
  | .frsTimeout n => Sys2Proof.Machine.execFrsTimeout n s
  | .frsPartnerGone n => Sys2Proof.Machine.execFrsPartnerGone n s
  | .eprKeepaliveTimeout n => Sys2Proof.Machine.execEprKeepaliveTimeout n s
  | .policyTimerExpiry n t => Sys2Proof.Machine.execPolicyTimerExpiry n t s
  | .ccPollWindow n seen => Sys2Proof.Machine.execCcPollWindow n seen s
  | .feedHealthChange f healthy excess => Sys2Proof.Machine.execFeedHealthChange f healthy excess s
  | .feedInrushEnd f => Sys2Proof.Machine.execFeedInrushEnd f s
  | .deadTimeExpiry => Sys2Proof.Machine.execDeadTimeExpiry s
  | .feedRevert => Sys2Proof.Machine.execFeedRevert s
  | .feedGateFail => Sys2Proof.Machine.execFeedGateFail s
  | .feedBarExpiry f => Sys2Proof.Machine.execFeedBarExpiry f s
  | .feedNone => Sys2Proof.Machine.execFeedNone s
  | .feedWarn => Sys2Proof.Machine.execFeedWarn s
  | .feedWarnRelease => Sys2Proof.Machine.execFeedWarnRelease s
  | .seatingDebounce n => Sys2Proof.Machine.execSeatingDebounce n s
  | .insertionDelay n => Sys2Proof.Machine.execInsertionDelay n s
  | .startRequest n => Sys2Proof.Machine.execStartRequest n s
  | .budgetAdmit samples => Sys2Proof.Machine.execBudgetAdmit s samples
  | .stageRemoval n seated pres => Sys2Proof.Machine.execStageRemoval n seated pres s
  | .inrushEnd n => Sys2Proof.Machine.execInrushEnd n s
  | .inrushTimeout p => Sys2Proof.Machine.execInrushTimeout p s
  | .breakerTrip p => Sys2Proof.Machine.execBreakerTrip p s
  | .instantTrip p curve => Sys2Proof.Machine.execInstantTrip p curve s
  | .ocTrip p => Sys2Proof.Machine.execOcTrip p s
  | .gateFail p => Sys2Proof.Machine.execGateFail p s
  | .ovpTrip n => Sys2Proof.Machine.execOvpTrip n s
  | .powerGood n fault => Sys2Proof.Machine.execPowerGood n fault s
  | .retryExpiry n => Sys2Proof.Machine.execRetryExpiry n s
  | .triesReset n => Sys2Proof.Machine.execTriesReset n s
  | .startStall n => Sys2Proof.Machine.execStartStall n s
  | .vsetTimeout n => Sys2Proof.Machine.execVsetTimeout n s
  | .wake hi lo rstn => Sys2Proof.Machine.execWake hi lo rstn s
  | .returnStageReady answers training dp => Sys2Proof.Machine.execReturnStageReady answers training dp s
  | .returnStageTimeout => Sys2Proof.Machine.execReturnStageTimeout s
  | .handshakeAnswer code wake => Sys2Proof.Machine.execHandshakeAnswer code wake s
  | .entryMaxTimeout => Sys2Proof.Machine.execEntryMaxTimeout s
  | .entrySequence => Sys2Proof.Machine.execEntrySequence s
  | .doorbell m seq tag posted => Sys2Proof.Machine.execDoorbell m seq tag posted s
  | .parkedCompletion m ok => Sys2Proof.Machine.execParkedCompletion m ok s
  | .smbusSetPointer v pecOk => Sys2Proof.Machine.execSmbusSetPointer v pecOk s
  | .smbusBlockWrite data pecOk => Sys2Proof.Machine.execSmbusBlockWrite data pecOk s
  | .smbusBlockRead => Sys2Proof.Machine.execSmbusBlockRead s
  | .smbusReadSummary => Sys2Proof.Machine.execSmbusReadSummary s
  | .sysInfo m => Sys2Proof.Machine.execSysInfo m s
  | .sysClaimChallenge m => Sys2Proof.Machine.execSysClaimChallenge m s
  | .sysClaimProve m po => Sys2Proof.Machine.execSysClaimProve m po s
  | .sysClaimRelease m => Sys2Proof.Machine.execSysClaimRelease m s
  | .sysDeputy m deputy hold => Sys2Proof.Machine.execSysDeputy m deputy hold s
  | .sysResetWarm m => Sys2Proof.Machine.execSysResetWarm m s
  | .sysResetHost m who => Sys2Proof.Machine.execSysResetHost m who s
  | .sysResetPort m code => Sys2Proof.Machine.execSysResetPort m code s
  | .gateSet m t w win => Sys2Proof.Machine.execGateSet m t w win s
  | .gateGet m t => Sys2Proof.Machine.execGateGet m t s
  | .tunnelOpen m t ws => Sys2Proof.Machine.execTunnelOpen m t ws s
  | .tunnelClose m t gen abort force => Sys2Proof.Machine.execTunnelClose m t gen abort force s
  | .tunnelModify m t gen ws => Sys2Proof.Machine.execTunnelModify m t gen ws s
  | .tunnelQuery m t gen named clear => Sys2Proof.Machine.execTunnelQuery m t gen named clear s
  | .planBegin m => Sys2Proof.Machine.execPlanBegin m s
  | .planStage m pid recs => Sys2Proof.Machine.execPlanStage m pid recs s
  | .planCheck m pid => Sys2Proof.Machine.execPlanCheck m pid s
  | .planArm m pid k => Sys2Proof.Machine.execPlanArm m pid k s
  | .planAbort m pid => Sys2Proof.Machine.execPlanAbort m pid s
  | .planStatus m shares who => Sys2Proof.Machine.execPlanStatus m shares who s
  | .portTrainConfig m code ws => Sys2Proof.Machine.execPortTrainConfig m code ws s
  | .portTrainTrain m code ws => Sys2Proof.Machine.execPortTrainTrain m code ws s
  | .portTrainDisable m code => Sys2Proof.Machine.execPortTrainDisable m code s
  | .portTrainReturn m code => Sys2Proof.Machine.execPortTrainReturn m code s
  | .portState m code clr first cnt => Sys2Proof.Machine.execPortState m code clr first cnt s
  | .portSpareRestore m code lane => Sys2Proof.Machine.execPortSpareRestore m code lane s
  | .portSpareRetire m code lane => Sys2Proof.Machine.execPortSpareRetire m code lane s
  | .portRoute m l => Sys2Proof.Machine.execPortRoute m l s
  | .tickSet m code k => Sys2Proof.Machine.execTickSet m code k s
  | .timeSync m mode ref => Sys2Proof.Machine.execTimeSync m mode ref s
  | .timeSyncStep m mode ref step => Sys2Proof.Machine.execTimeSyncStep m mode ref step s
  | .pwrFeedConfig m f ws => Sys2Proof.Machine.execPwrFeedConfig m f ws s
  | .pwrFeedSelect m w0 w1 => Sys2Proof.Machine.execPwrFeedSelect m w0 w1 s
  | .pwrFeedQuery m f => Sys2Proof.Machine.execPwrFeedQuery m f s
  | .pwrPortConfig m n ws => Sys2Proof.Machine.execPwrPortConfig m n ws s
  | .pwrPortQuery m n => Sys2Proof.Machine.execPwrPortQuery m n s
  | .pwrPortRestart m n => Sys2Proof.Machine.execPwrPortRestart m n s
  | .pwrPortOff m n => Sys2Proof.Machine.execPwrPortOff m n s
  | .pwrPortVset m n v => Sys2Proof.Machine.execPwrPortVset m n v s
  | .pwrCurve m p ws => Sys2Proof.Machine.execPwrCurve m p ws s
  | .pwrBudget m w => Sys2Proof.Machine.execPwrBudget m w s
  | .pdTx m n ws => Sys2Proof.Machine.execPdTx m n ws s
  | .pdRx m n state max clr => Sys2Proof.Machine.execPdRx m n state max clr s
  | .pdTimerSet m n w => Sys2Proof.Machine.execPdTimerSet m n w s
  | .pdTimerStart m n t ms => Sys2Proof.Machine.execPdTimerStart m n t ms s
  | .pdTimerCancel m n t => Sys2Proof.Machine.execPdTimerCancel m n t s
  | .pdRoleClaim m n => Sys2Proof.Machine.execPdRoleClaim m n s
  | .pdRoleRelease m n => Sys2Proof.Machine.execPdRoleRelease m n s
  | .pdRoleRp m n v => Sys2Proof.Machine.execPdRoleRp m n v s
  | .pdRoleDrole m n v => Sys2Proof.Machine.execPdRoleDrole m n v s
  | .pdRoleVconnOn m n => Sys2Proof.Machine.execPdRoleVconnOn m n s
  | .pdRoleVconnOff m n => Sys2Proof.Machine.execPdRoleVconnOff m n s
  | .pdRoleSwapToSink m n => Sys2Proof.Machine.execPdRoleSwapToSink m n s
  | .pdRoleSwapToSource m n => Sys2Proof.Machine.execPdRoleSwapToSource m n s
  | .pdRoleFrsArm m n v => Sys2Proof.Machine.execPdRoleFrsArm m n v s
  | .pdRoleEpr m n v => Sys2Proof.Machine.execPdRoleEpr m n v s
  | .pdRoleErrorRecovery m n => Sys2Proof.Machine.execPdRoleErrorRecovery m n s
  | .pdRoleVconnIlim m n v => Sys2Proof.Machine.execPdRoleVconnIlim m n v s
  | .rasterSetup m n ws dp => Sys2Proof.Machine.execRasterSetup m n ws dp s
  | .rasterSetupQuery m n d => Sys2Proof.Machine.execRasterSetupQuery m n d s
  | .rasterWitnessSet m n en action => Sys2Proof.Machine.execRasterWitnessSet m n en action s
  | .rasterWitnessResume m n => Sys2Proof.Machine.execRasterWitnessResume m n s
  | .rasterWitnessQuery m n => Sys2Proof.Machine.execRasterWitnessQuery m n s
  | .dmaLoad m c burst prio note addr len => Sys2Proof.Machine.execDmaLoad m c burst prio note addr len s
  | .dmaStart m c => Sys2Proof.Machine.execDmaStart m c s
  | .dmaStop m c force => Sys2Proof.Machine.execDmaStop m c force s
  | .dmaStopQuery m c => Sys2Proof.Machine.execDmaStopQuery m c s
  | .usbCarve m l => Sys2Proof.Machine.execUsbCarve m l s
  | .usbFuncItems m t lo hi => Sys2Proof.Machine.execUsbFuncItems m t lo hi s
  | .usbFuncVerbosity m t v => Sys2Proof.Machine.execUsbFuncVerbosity m t v s
  | .usbFuncQuery m t => Sys2Proof.Machine.execUsbFuncQuery m t s
  | .usbConnectChallenge m => Sys2Proof.Machine.execUsbConnectChallenge m s
  | .usbConnectProve m dur ps => Sys2Proof.Machine.execUsbConnectProve m dur ps s
  | .usbConnectDisconnect m => Sys2Proof.Machine.execUsbConnectDisconnect m s
  | .faultRead m what sel first count => Sys2Proof.Machine.execFaultRead m what sel first count s
  | .faultConfig m pin l => Sys2Proof.Machine.execFaultConfig m pin l s
  | .faultForceSet m i d => Sys2Proof.Machine.execFaultForceSet m i d s
  | .faultForceClear m i => Sys2Proof.Machine.execFaultForceClear m i s
  | .faultForcePulse m i d => Sys2Proof.Machine.execFaultForcePulse m i d s
  | .faultClear m log release resetCnt masks => Sys2Proof.Machine.execFaultClear m log release resetCnt masks s
  | .keyDerive m parent purpose inst kint ver => Sys2Proof.Machine.execKeyDerive m parent purpose inst kint ver s
  | .keyDeriveAdvance m d => Sys2Proof.Machine.execKeyDeriveAdvance m d s
  | .keyRevoke m k => Sys2Proof.Machine.execKeyRevoke m k s
  | .keyCheck m k n => Sys2Proof.Machine.execKeyCheck m k n s
  | .keyCheckPatch m addr len => Sys2Proof.Machine.execKeyCheckPatch m addr len s
  | .stateEnter m target force => Sys2Proof.Machine.execStateEnter m target force s
  | .stateEnterConfig m w1 w2 => Sys2Proof.Machine.execStateEnterConfig m w1 w2 s
  | .stateEnterQuery m => Sys2Proof.Machine.execStateEnterQuery m s
  | .testObsSet m pin region signal en => Sys2Proof.Machine.execTestObsSet m pin region signal en s
  | .testObsQuery m => Sys2Proof.Machine.execTestObsQuery m s
  | .testLogicReset => Sys2Proof.Machine.execTestLogicReset s
  | .bypass => Sys2Proof.Machine.execBypass s
  | .idcode => Sys2Proof.Machine.execIdcode s
  | .samplePreload cells => Sys2Proof.Machine.execSamplePreload cells s
  | .extest cells => Sys2Proof.Machine.execExtest cells s
  | .clamp => Sys2Proof.Machine.execClamp s
  | .highz => Sys2Proof.Machine.execHighz s
  | .extestPulse cells => Sys2Proof.Machine.execExtestPulse cells s
  | .extestTrain cells => Sys2Proof.Machine.execExtestTrain cells s
  | .debugEn on => Sys2Proof.Machine.execDebugEn on s
  | .memacc wr addr w => Sys2Proof.Machine.execMemacc wr addr w s
  | .linkUnitWithoutLuEnd c => Sys2Proof.Machine.execLinkUnitWithoutLuEnd c s
  | .errorLineFall i => Sys2Proof.Machine.execErrorLineFall i s
  | .hpdPlug d => Sys2Proof.Machine.execHpdPlug d s
  | .lp5ExitComplete => Sys2Proof.Machine.execLp5ExitComplete s
  | .lp5ReadReturn client ecc => Sys2Proof.Machine.execLp5ReadReturn client ecc s
  | .crossingPulse ch => Sys2Proof.Machine.execCrossingPulse ch s
  | .cutThroughCell t dir c => Sys2Proof.Machine.execCutThroughCell t dir c s
  | .downstreamConnect p => Sys2Proof.Machine.execDownstreamConnect p s
  | .downstreamDisconnect p => Sys2Proof.Machine.execDownstreamDisconnect p s
  | .downstreamRemoteWake p => Sys2Proof.Machine.execDownstreamRemoteWake p s
  | .portResetComplete p speed => Sys2Proof.Machine.execPortResetComplete p speed s
  | .downstreamResumeEnd p => Sys2Proof.Machine.execDownstreamResumeEnd p s
  | .setFeature d feature => Sys2Proof.Machine.execSetFeature d feature s
  | .clearPortFeatureChange p b => Sys2Proof.Machine.execClearPortFeatureChange p b s
  | .upstreamVbusValid bus ok => Sys2Proof.Machine.execUpstreamVbusValid bus ok s
  | .vbusLevelReached n lvl => Sys2Proof.Machine.execVbusLevelReached n lvl s
  | .sinkVbusLoss n => Sys2Proof.Machine.execSinkVbusLoss n s

end Sys2Proof.Machine
end

