-- ==== Sys2Proof/Safety.lean ====
section
/-!
DEFINITION. What counts as a safe step and a sound state, in the words of the statements.
-/

namespace Sys2Proof.Machine

open Sys2Proof

/-- The outcome is a next state. -/
def Answers (o : Host.Outcome State Fault Refusal) : Prop := ∃ t, o = .next t

/-- Memory is in its canonical form: addresses strictly rising, no byte listed that an unlisted address reads as. -/
def State.memSound (s : State) : Prop := Memory.wf s.mem = true

/-! How a Twiop command is answered once the firmware serves it (R607, R614 to R616). -/

/-- The command's operation is done and its answer left in the mailbox of master `m`. -/
def Hub.answered (h : Hub) (m op : Nat) (f : Hub → Ans × Hub) : Hub :=
  let r := f (h.serving m)
  r.2.complete m op r.1

/-- The same for a command that may go on to WAITING for `p`. -/
def Hub.answeredOrParked (h : Hub) (m op : Nat) (p : Parked) (f : Hub → Ans × Hub) : Hub :=
  let r := f (h.serving m)
  r.2.finish m op p r.1

/-- The same for a command that reads memory. -/
def State.answeredAll (s : State) (m op : Nat) (f : State → Ans × State) : State :=
  let r := f { s with hub := s.hub.serving m }
  { r.2 with hub := r.2.hub.complete m op r.1 }

/-- The same for a command that reads memory and may then wait. -/
def State.answeredPatch (s : State) (m op : Nat) (f : State → Ans × Parked × State) : State :=
  let r := f { s with hub := s.hub.serving m }
  { r.2.2 with hub := r.2.2.hub.finish m op r.2.1 r.1 }

/-- A table is in its canonical form: keys strictly rising. -/
def keysRise {α : Type} : Tab α → Bool
  | [] => true
  | [_] => true
  | (k, _) :: (k', v) :: t => k.lt k' && keysRise ((k', v) :: t)

end Sys2Proof.Machine
end

