-- ==== Sys2Proof/Certificates/Slice0/Obligations.lean ====
section
/-!
DEFINITION. The statements: what the queue of commands does, what memory and the registers hold, the rules of the
chapters, and, last, that every command of the table completes and with which next state. Guards of the last part name
no more than the event or the checks that a command needs: an event can happen only where its cause stands, a command
of a mailbox is served only while the firmware runs and no command of its mailbox waits.
-/

open Sys2Proof Sys2Proof.Machine

/-! The queue of commands. -/

/-- A step takes the command at the front of the queue and runs it on the state with the queue's rest. -/
def Obligations.StepRunsFrontCommand : Prop :=
  ∀ (c : Instr) (rest : List Instr) (s : State), s.pending = c :: rest → step s = exec c { s with pending := rest }

/-- Every command of the table, with any operands, answers a next state in every state. -/
def Obligations.EveryCommandAnswers : Prop := ∀ (c : Instr) (s : State), Answers (exec c s)

/-- As many steps as there are waiting commands run exactly these commands, first in first out, each on the state that
the one before it left, and leave the queue empty. -/
def Obligations.QueueRunsFirstInFirstOut : Prop :=
  ∀ (cs : List Instr) (s : State),
    Host.Core.run Sys2Proof.core cs.length ({ s with pending := cs } : State) =
      .next ({ cs.foldl (fun t c => after (exec c t) t) s with pending := [] } : State)

/-! Memory. -/

/-- Memory keeps its canonical form through every step: addresses strictly rising, no byte 0 listed. -/
def Obligations.StepKeepsMemoryCanonical : Prop :=
  ∀ s t : State, s.memSound → step s = .next t → t.memSound

/-- Memory is in its canonical form at reset. -/
def Obligations.ResetMemoryIsCanonical : Prop := State.reset.memSound

/-- A byte reads as it was last written, and writing it leaves every other byte as it was. -/
def Obligations.MemoryByteReadsAsWritten : Prop :=
  ∀ (m : Memory) (a a' : Nat) (b : Byte), Memory.wf m = true →
    memByte (memSet m a b) a' = if a = a' then b else memByte m a'

/-! Reset and register fields. -/

/-- The machine right after reset: every field of every register at the reset value of its table, the alternates of the
four summary tunnels as R72 gives them, tick number and forge time 0, nothing in memory, nothing waiting. Written out
beside the tables: the period code, the link's shares, the lane thresholds, the owner, the power defaults. The reset
values of the board straps (LIN_KIND and its fellows) are those of assumption 2. -/
def Obligations.ResetHoldsTheTablesValues : Prop :=
  State.reset.pending = [] ∧ State.reset.mem = [] ∧
  State.reset.hub.tick.num = 0 ∧ State.reset.hub.tick.now = 0 ∧
  (∀ f : Fld, (∀ t, 6 ≤ t → t ≤ 9 → f.key ≠ (R.ttAltEgr t).key) → State.reset.hub.get f = f.reset % 2 ^ f.width) ∧
  State.reset.hub.get (R.ttAltEgr 6) = 2 ∧ State.reset.hub.get (R.ttAltEgr 7) = 3 ∧
  State.reset.hub.get (R.ttAltEgr 8) = 4 ∧ State.reset.hub.get (R.ttAltEgr 9) = 1 ∧
  State.reset.hub.get R.tickPeriod = 50 ∧ State.reset.hub.get R.tickSynced = 1 ∧
  (∀ n, State.reset.hub.get (R.linkKint n) = 12 ∧ State.reset.hub.get (R.linkCtl n) = 4 ∧
    State.reset.hub.get (R.linkIso n) = 24 ∧ State.reset.hub.get (R.linkRtx n) = 40 ∧ State.reset.hub.get (R.linkBlk n) = 12 ∧
    State.reset.hub.get (R.laneFomTgt n) = 0xA0 ∧ State.reset.hub.get (R.laneFomMin n) = 0x40 ∧
    State.reset.hub.get (R.laneFomFail n) = 0x28 ∧ State.reset.hub.get (R.laneMinw n) = 3) ∧
  (∀ t, State.reset.hub.get (R.ttState t) = 0 ∧ State.reset.hub.get (R.ttGen t) = 0) ∧
  State.reset.hub.get R.secOwned = 0 ∧ State.reset.hub.get R.secOwner = 15 ∧ State.reset.hub.get R.secDeputy = 15 ∧
  State.reset.hub.get R.fcolPw = 100 ∧ State.reset.hub.get R.pwrDead = 10 ∧ State.reset.hub.get R.pwrPmax = 1000 ∧
  (∀ m, State.reset.hub.get (R.mbxState m) = 0 ∧ State.reset.hub.get (R.mbxFail m) = 0xFFFF)

/-! Gates, ownership and keys (chapter 19). -/

/-- Master 15 holds no level anywhere and no gate word can give it one; the field of master 14 may hold any level and
counts only while debug is enabled. -/
def Obligations.Master15HoldsNothingAndMaster14OnlyUnderDebug : Prop :=
  ∀ h : Hub,
    (∀ (m t w : Nat) (win : Option (Nat × Nat)), bits w 31 30 ≠ 0 →
      (h.gateSet m t w win).2 = h ∧ (h.gateSet m t w win).1.status ≠ stOk ∧
      (h.isOwner m = true → h.gateSet m t w win = ({ status := stBadArg }, h))) ∧
    (∀ t, h.level 15 t = 0) ∧
    (∀ m t w, h.isOwner m = true → Config.gateExists t = true → isWinTgt t = false →
      bits w 15 14 = 3 → bits w 31 30 = 0 → (h.gateSet m t w none).1.status = stOk) ∧
    (h.flag R.secDebug = false → ∀ t, h.level 14 t = 0) ∧
    (h.flag R.secDebug = true → ∀ t, h.level 14 t = bits (h.get (R.gateWord t)) 29 28)

/-- GATE.GET: the owner, or a master that holds read at the target, is answered with the gate word and for a window its
geometry; any other is refused with DENIED. Nothing is changed. -/
def Obligations.GateGetNeedsReadUnlessOwner : Prop :=
  ∀ (h : Hub) (m t : Nat), Config.gateExists t = true →
    ((h.isOwner m = true ∨ h.holds m t 1 = true) →
      h.gateGet m t = ({ resp := h.get (R.gateWord t) ::
        (if isWinTgt t then h.wordsAt rowsWin (0x3200100 + (t - 0x40) * 8) 2 else [0, 0]) }, h)) ∧
    (h.isOwner m = false → h.holds m t 1 = false → h.gateGet m t = ({ status := stDenied }, h))

/-- GATE.SET: from any master but the owner it is refused with NOT_OWNER and changes nothing; a legal gate word of the
owner for a target that is no window is in the gate at once, so every master below 14 but the Ohmale core holds from
then on the level of its field, and no other register is changed. -/
def Obligations.GateSetIsTheOwnersAlone : Prop :=
  ∀ (h : Hub) (m t w : Nat),
    (∀ win, h.isOwner m = false → h.gateSet m t w win = ({ status := stNotOwner }, h)) ∧
    (h.isOwner m = true → Config.gateExists t = true → isWinTgt t = false → bits w 15 14 = 3 → bits w 31 30 = 0 →
      (h.gateSet m t w none).1 = { resp := [0, 0] } ∧
      (h.gateSet m t w none).2.get (R.gateWord t) = w % 2 ^ 32 ∧
      (∀ k, k < 14 → k ≠ 7 → (h.gateSet m t w none).2.level k t = bits w (2 * k + 1) (2 * k)) ∧
      (∀ f : Fld, f.key ≠ (R.gateWord t).key → (h.gateSet m t w none).2.get f = h.get f) ∧
      { (h.gateSet m t w none).2 with regs := h.regs } = h)

/-- A bad or expired proof of ownership: DENIED, counted, and a hold-off of 100 ms that doubles with each further bad
proof up to 12.8 s, during which CHALLENGE is answered BUSY; a good proof makes the issuer owner, and ends the hold-off
and the count. -/
def Obligations.BadOwnershipProofStartsAHoldOff : Prop :=
  ∀ (h : Hub) (m : Nat) (po : List Nat), m ≤ 4 →
    (po.length = 4 → h.claimBarred m = false → h.claimProof m ≠ some (wordBytes po) →
      (h.claimProve m po).1 = { status := stDenied } ∧
      (h.claimProve m po).2.get R.secBadClaim = min (h.get R.secBadClaim + 1) 65535 ∧
      tabGet (h.claimProve m po).2.sec.bad (k1 m) 0 = tabGet h.sec.bad (k1 m) 0 + 1 ∧
      tabGet (h.claimProve m po).2.sec.holdUntil (k1 m) 0 =
        h.now + min (100000000 * 2 ^ tabGet h.sec.bad (k1 m) 0) 12800000000 ∧
      (∀ f : Fld, f.key ≠ R.secBadClaim.key → (h.claimProve m po).2.get f = h.get f)) ∧
    (po.length = 4 → h.claimBarred m = false → h.claimProof m = some (wordBytes po) →
      (h.claimProve m po).1.status = stOk ∧ (h.claimProve m po).2.isOwner m = true ∧
      tabGet (h.claimProve m po).2.sec.bad (k1 m) 0 = 0 ∧ tabGet (h.claimProve m po).2.sec.holdUntil (k1 m) 0 = 0) ∧
    (h.now < tabGet h.sec.holdUntil (k1 m) 0 → h.claimChallenge m = ({ status := stBusy }, h))

/-- KEY.CHECK: with read on the key store's gate, the AES-256-CMAC of "CHK", the nonce and HUBID under the slot's key and the slot's status, or
only the status where the slot is not VALID; without it DENIED. Nothing is changed. -/
def Obligations.KeyCheckAnswersTheCmacOfAValidSlot : Prop :=
  ∀ (h : Hub) (m k : Nat) (n : List Nat),
    (h.holds m tgtKeys 1 = false → h.keyCheck m k n = ({ status := stDenied }, h)) ∧
    (h.holds m tgtKeys 1 = true → 6 ≤ k → k ≤ 127 → n.length = 4 → h.get (R.keyState k) = 1 →
      h.keyCheck m k n = ({ resp := bytesWords (aesCmac (keyBytes (h.keyMat k))
        (labelBytes "CHK" ++ wordBytes n ++ leBytes 8 h.sec.hubId)) ++ h.slotStatus k }, h)) ∧
    (h.holds m tgtKeys 1 = true → 6 ≤ k → k ≤ 127 → n.length = 4 → h.get (R.keyState k) ≠ 1 →
      h.keyCheck m k n = ({ resp := h.slotStatus k }, h))

/-- KEY.DERIVE of a purpose key, whose purpose is 1, below a domain key: the lowest FREE slot becomes VALID with the derived key, its level,
domain, parent, purpose and version; the answer is the slot; no register of another slot and no other part of the hub is
changed. An instance key of a link or a node below a purpose key does the same with the version of the key above it. Any
other master than the owner is refused with NOT_OWNER. -/
def Obligations.KeyDeriveFillsTheLowestFreeSlot : Prop :=
  ∀ (h : Hub) (m parent ver k : Nat),
    (h.isOwner m = false → ∀ p i kint, h.keyDerive m parent p i kint ver = ({ status := stNotOwner }, h)) ∧
    (h.isOwner m = true → h.holds m tgtKeys 3 = true → parent ≤ 127 → h.get (R.keyState parent) = 1 →
      h.get (R.keyLevel parent) = 1 → h.findKey (h.get (R.keyDomain parent)) 2 1 0 = none → h.freeSlot = some k →
      let r := h.keyDerive m parent 1 0 0 ver
      r.1 = { resp := [k] } ∧ r.2.get (R.keyState k) = 1 ∧ r.2.get (R.keyLevel k) = 2 ∧
      r.2.get (R.keyDomain k) = h.get (R.keyDomain parent) ∧ r.2.get (R.keyParent k) = parent ∧
      r.2.get (R.keyPurpose k) = 1 ∧ r.2.get (R.keyVer k) = ver % 2 ^ 32 ∧
      r.2.keyMat k = .kdf (h.keyMat parent) "HBPK" (leBytes 4 1 ++ leBytes 4 ver) ∧
      (∀ x, x ≠ k → r.2.keyMat x = h.keyMat x ∧ r.2.get (R.keyState x) = h.get (R.keyState x)) ∧
      (∀ f : Fld, f.key ∉ [(R.keyState k).key, (R.keyLevel k).key, (R.keyDomain k).key, (R.keyParent k).key,
          (R.keyPurpose k).key, (R.keyInst k).key, (R.keyKint k).key, (R.keyDefault k).key, (R.keyVer k).key] →
        r.2.get f = h.get f) ∧
      { r.2 with regs := h.regs, sec := { r.2.sec with mat := h.sec.mat } } = h) ∧
    (∀ inst kint, h.isOwner m = true → h.holds m tgtKeys 3 = true → parent ≤ 127 → h.get (R.keyState parent) = 1 →
      h.get (R.keyLevel parent) = 2 →
      ((h.get (R.keyDomain parent) = domLink ∧ inst ≤ 3) ∨ (h.get (R.keyDomain parent) = domNode ∧ inst ≤ 15)) →
      4 ≤ kint → kint ≤ 16 → h.findKey (h.get (R.keyDomain parent)) 3 1 inst = none → h.freeSlot = some k →
      let r := h.keyDerive m parent 1 inst kint ver
      r.1 = { resp := [k] } ∧ r.2.get (R.keyState k) = 1 ∧ r.2.get (R.keyLevel k) = 3 ∧
      r.2.get (R.keyDomain k) = h.get (R.keyDomain parent) ∧ r.2.get (R.keyParent k) = parent ∧
      r.2.get (R.keyPurpose k) = 1 ∧ r.2.get (R.keyInst k) = inst ∧ r.2.get (R.keyKint k) = kint ∧
      r.2.get (R.keyVer k) = h.get (R.keyVer parent) ∧
      r.2.keyMat k = .kdf (h.keyMat parent) "HBIK" (leBytes 4 inst ++ leBytes 4 (h.get (R.keyVer parent))) ∧
      (∀ x, x ≠ k → r.2.keyMat x = h.keyMat x ∧ r.2.get (R.keyState x) = h.get (R.keyState x)) ∧
      { r.2 with regs := h.regs, sec := { r.2.sec with mat := h.sec.mat } } = h)

/-! Fault collection (chapters 1 and 18). -/

/-- A rise of a source that is not latched latches it: its status bit sets, its reaction severity is its configured
severity, its DETAIL is the rise's, it becomes sticky exactly where RCNT equals LIMIT, and no other source's bit, severity, DETAIL, OCC or RCNT but
those of LOG_OVF (231, the full log's own source) changes. A rise of a latched source sets no bit and counts in OCC. -/
def Obligations.RisingSourceLatches : Prop :=
  ∀ (h : Hub) (i detail : Nat) (forced : Bool), i < 256 →
    (h.latched i = false →
      (h.rise i detail forced).1 = true ∧ (h.rise i detail forced).2.latched i = true ∧
      (h.rise i detail forced).2.get (R.srcRsev i) = h.get (R.srcSev i) ∧
      (h.rise i detail forced).2.get (R.srcDetail i) = detail % 2 ^ 16 ∧
      (h.rise i detail forced).2.sticky i = (h.get (R.srcRcnt i) == h.get (R.srcLimit i)) ∧
      (∀ j, j < 256 → j ≠ i → j ≠ 231 → (h.rise i detail forced).2.latched j = h.latched j ∧
        ∀ f ∈ [R.srcRsev j, R.srcDetail j, R.srcSticky j, R.srcOcc j, R.srcRcnt j],
          (h.rise i detail forced).2.get f = h.get f)) ∧
    (h.latched i = true →
      (h.rise i detail forced).1 = false ∧
      (h.rise i detail forced).2.get (R.srcOcc i) = min (h.get (R.srcOcc i) + 1) 255 ∧
      (∀ j, (h.rise i detail forced).2.latched j = h.latched j) ∧
      (∀ f : Fld, f.key ≠ (R.srcDetail i).key → f.key ≠ (R.srcOcc i).key → (h.rise i detail forced).2.get f = h.get f))

/-- Leaving a source clears its own status bit and stickiness and no other source's bit; a clear of a source whose line
is still high, or that is not latched, changes nothing, and a source may quench only while it is latched, its line and
FORCE are low, it is not sticky and its quench period is not 0. -/
def Obligations.OnlyItsOwnBitIsClearedAndNeverUnderAHighLine : Prop :=
  ∀ (h : Hub) (i : Nat), i < 256 →
    ((h.unlatch i).latched i = false ∧ (h.unlatch i).sticky i = false ∧
      ∀ j, j < 256 → j ≠ i → (h.unlatch i).latched j = h.latched j) ∧
    (h.flag (R.srcActive i) = true → h.clearSource i = h) ∧
    (h.latched i = false → h.clearSource i = h) ∧
    ((h.latched i = false ∨ h.flag (R.srcActive i) = true ∨ h.flag (R.srcForce i) = true ∨ h.sticky i = true ∨
        h.get (R.srcQper i) = 0) → h.quench i = h)

/-- CTL_FC_SUMMARY: PEND bit r is set exactly while a bit of region r's status word is set, NOTIFY and CONTAIN while a
latched source of the region reacts at severity 1 or more, and 2 or more; SAFE exactly while some latched source reacts
at severity 3. -/
def Obligations.SummaryWordFollowsTheRegions : Prop :=
  ∀ h : Hub,
    (∀ r, r < 8 → (bit h.summary r = true ↔ h.get (R.fcStatus r) ≠ 0)) ∧
    (∀ r, r < 8 → (bit h.summary (8 + r) = true ↔
      ∃ b, b < 32 ∧ h.latched (32 * r + b) = true ∧ 1 ≤ h.get (R.srcRsev (32 * r + b)))) ∧
    (∀ r, r < 8 → (bit h.summary (16 + r) = true ↔
      ∃ b, b < 32 ∧ h.latched (32 * r + b) = true ∧ 2 ≤ h.get (R.srcRsev (32 * r + b)))) ∧
    (bit h.summary 24 = true ↔ ∃ i, i < 256 ∧ h.latched i = true ∧ h.get (R.srcRsev i) = 3) ∧
    h.summary < 2 ^ 25

/-! Mailboxes (chapter 21). -/

/-- Completion of a command in the mailbox of its master: DONE with the status and the command's SEQ; the response
words, their length, the opcode, the failing item and the command's tag as the command left them; the mailbox waits for
nothing; state, sequence number, status and response words of every other mailbox are unchanged, and so are the command
words of all. -/
def Obligations.CompletionFillsTheMailbox : Prop :=
  ∀ (h : Hub) (m op : Nat) (a : Ans), m < 8 → a.resp.length ≤ 256 →
    (h.complete m op a).get (R.mbxState m) = 4 ∧
    (h.complete m op a).get (R.mbxStatus m) = a.status % 2 ^ 8 ∧
    (h.complete m op a).get (R.mbxDoneSeq m) = h.get (R.mbxSeq m) ∧
    (h.complete m op a).get (R.mbxOpcode m) = op % 2 ^ 16 ∧
    (h.complete m op a).get (R.mbxRlen m) = 4 * a.resp.length ∧
    (h.complete m op a).get (R.mbxFail m) = a.fail % 2 ^ 16 ∧
    (h.complete m op a).get (R.mbxCtag m) = h.get (R.mbxCmdWord m 1) ∧
    (∀ k, k < a.resp.length → (h.complete m op a).get (R.mbxRspWord m k) = a.resp.getD k 0 % 2 ^ 32) ∧
    (∀ k, a.resp.length ≤ k → (h.complete m op a).get (R.mbxRspWord m k) = h.get (R.mbxRspWord m k)) ∧
    (h.complete m op a).get (R.mbxDoneCnt m) = min (h.get (R.mbxDoneCnt m) + 1) 65535 ∧
    (h.complete m op a).parkedOf m = none ∧
    (∀ m' k, (h.complete m op a).get (R.mbxCmdWord m' k) = h.get (R.mbxCmdWord m' k)) ∧
    (∀ m' k, m' ≠ m → (h.complete m op a).get (R.mbxState m') = h.get (R.mbxState m') ∧
      (h.complete m op a).get (R.mbxSeq m') = h.get (R.mbxSeq m') ∧
      (h.complete m op a).get (R.mbxStatus m') = h.get (R.mbxStatus m') ∧
      (h.complete m op a).get (R.mbxRspWord m' k) = h.get (R.mbxRspWord m' k))

/-- A doorbell is accepted exactly where the mailbox is IDLE or DONE and SEQ differs from MBX_SEQ: then MBX_SEQ takes
SEQ, the state is QUEUED, the command buffer is locked and the mailbox is last in the service order. In every other case
it is counted in DB_IGNORED and nothing else is changed. The master's write of its own doorbell is refused in neither
case. -/
def Obligations.DoorbellIsAcceptedOnceOrCounted : Prop :=
  ∀ (h : Hub) (m seq : Nat), seq < 2 ^ 16 →
    ((h.get (R.mbxState m) = 0 ∨ h.get (R.mbxState m) = 4) → h.get (R.mbxSeq m) ≠ seq →
      (h.doorbell m seq).get (R.mbxSeq m) = seq ∧ (h.doorbell m seq).get (R.mbxState m) = 1 ∧
      (h.doorbell m seq).mbLocked m = true ∧ (h.doorbell m seq).ctl.order = h.ctl.order ++ [m] ∧
      (∀ f : Fld, f.key ≠ (R.mbxSeq m).key → f.key ≠ (R.mbxState m).key → (h.doorbell m seq).get f = h.get f) ∧
      { h.doorbell m seq with regs := h.regs, out := h.out, ctl := { (h.doorbell m seq).ctl with order := h.ctl.order } } = h) ∧
    ((h.get (R.mbxState m) ≠ 0 ∧ h.get (R.mbxState m) ≠ 4) ∨ h.get (R.mbxSeq m) = seq →
      (h.doorbell m seq).get (R.mbxDbIgnored m) = min (h.get (R.mbxDbIgnored m) + 1) 65535 ∧
      (∀ f : Fld, f.key ≠ (R.mbxDbIgnored m).key → (h.doorbell m seq).get f = h.get f) ∧
      { h.doorbell m seq with regs := h.regs } = h) ∧
    (m < 7 → h.wordAllowed m true (0x7010800 + m * 0x1000) = true)

/-- From a doorbell's acceptance until DONE the command buffer takes no write, and it can be read all the time, by its
own master alone. -/
def Obligations.CommandBufferIsLockedUntilDone : Prop :=
  ∀ (h : Hub) (m k : Nat), m < 7 → k < 256 →
    (h.mbLocked m = true → h.wordAllowed m true (0x7010000 + m * 0x1000 + 4 * k) = false) ∧
    (h.mbLocked m = false → h.wordAllowed m true (0x7010000 + m * 0x1000 + 4 * k) = true) ∧
    h.wordAllowed m false (0x7010000 + m * 0x1000 + 4 * k) = true ∧
    (∀ m' wr, m' ≠ m → h.wordAllowed m' wr (0x7010000 + m * 0x1000 + 4 * k) = false)

/-! Tick and tunnels (chapters 2 and 3). -/

/-- TICK.SET: NOT_OWNER, BAD_ARG for a reserved code, IN_PLAN while a plan is armed or in its window, TOO_LATE for a
boundary less than two ahead, each without any effect; otherwise the code and the boundary are pending, an earlier
pending change is replaced, and no other register is changed. -/
def Obligations.TickSetRefusesOrLeavesTheChangePending : Prop :=
  ∀ (h : Hub) (m code n : Nat),
    (h.isOwner m = false → h.tickSet m code n = ({ status := stNotOwner }, h)) ∧
    (h.isOwner m = true → (code < 25 ∨ 200 < code) → h.tickSet m code n = ({ status := stBadArg }, h)) ∧
    (h.isOwner m = true → 25 ≤ code → code ≤ 200 → n < 2 ^ 48 →
      ((∃ s, s < 5 ∧ (h.planState s = pArmed ∨ h.planState s = pWindow)) →
        h.tickSet m code n = ({ status := stInPlan }, h)) ∧
      ((∀ s, s < 5 → h.planState s ≠ pArmed ∧ h.planState s ≠ pWindow ∧ h.planState s ≠ pReverting) →
        (n < h.tickNum + 2 → h.tickSet m code n = ({ status := stTooLate }, h)) ∧
        (h.tickNum + 2 ≤ n →
          (h.tickSet m code n).1 = { resp := [n % 2 ^ 32, n / 2 ^ 32 % 2 ^ 32] } ∧
          (h.tickSet m code n).2.get R.tickPend = 1 ∧ (h.tickSet m code n).2.get R.tickNext = code ∧
          (h.tickSet m code n).2.tick.pendAt = n ∧ (h.tickSet m code n).2.get R.tickPeriod = h.get R.tickPeriod ∧
          (∀ f : Fld, f.key ≠ R.tickPend.key → f.key ≠ R.tickNext.key → (h.tickSet m code n).2.get f = h.get f))))

/-- A pending change takes effect at its own boundary and at no other: there the period is the pending code and nothing
is pending any more. The period in force is the code times 500 ns. -/
def Obligations.PeriodChangesAtItsBoundaryOnly : Prop :=
  ∀ h : Hub,
    (h.get R.tickPend = 1 → h.tick.pendAt = h.tickNum →
      h.periodChange.get R.tickPeriod = h.get R.tickNext ∧ h.periodChange.tickPeriod = h.get R.tickNext * 500 ∧
      h.periodChange.get R.tickPend = 0 ∧
      h.periodChange.tick.changed = some (h.get R.tickNext, h.tickNum) ∧
      (∀ f : Fld, f.key ≠ R.tickPeriod.key → f.key ≠ R.tickPend.key → f.key ≠ R.tickNext.key →
        h.periodChange.get f = h.get f)) ∧
    ((h.get R.tickPend = 0 ∨ h.tick.pendAt ≠ h.tickNum) → h.periodChange = h)

/-- FREE to OPEN: the next generation, sequence state 0, the descriptor's owner, class and ports, and no register of
another tunnel changed. -/
def Obligations.OpeningATunnelGivesItItsNextGeneration : Prop :=
  ∀ (h : Hub) (t pid : Nat) (d : Desc),
    (h.openTunnel t d pid).get (R.ttGen t) = (h.get (R.ttGen t) + 1) % 16 ∧
    (h.openTunnel t d pid).get (R.ttState t) = 1 ∧
    (h.openTunnel t d pid).get (R.ttFailed t) = 0 ∧
    (h.openTunnel t d pid).get (R.runIngSeq t) = 0 ∧ (h.openTunnel t d pid).get (R.runEgrSeq t) = 0 ∧
    ((h.openTunnel t d pid).queue t 1).seqIn = 0 ∧ ((h.openTunnel t d pid).queue t 1).seqOut = 0 ∧
    (h.openTunnel t d pid).get (R.ttOwn t) = d.own % 2 ^ 4 ∧ (h.openTunnel t d pid).get (R.ttClass t) = d.cls % 2 ^ 3 ∧
    (h.openTunnel t d pid).get (R.ttIngr t) = d.ingr % 2 ^ 5 ∧ (h.openTunnel t d pid).get (R.ttEgr t) = d.egr % 2 ^ 5 ∧
    (∀ f : Fld, f.key.i ≠ t → (h.openTunnel t d pid).get f = h.get f)

/-- A TUNNEL command that names a generation which is not the tunnel's is answered STALE, counted in the tunnel's
STALE_CNT, and acts on nothing. -/
def Obligations.StaleGenerationActsOnNothing : Prop :=
  ∀ (h : Hub) (m t gen : Nat), h.get (R.ttGen t) ≠ gen →
    (∀ abort force, isUser t = true → h.holds m (tgtTunnel t) 3 = true →
      h.tunnelClose m t gen abort force = ({ status := stStale }, h.inc (R.runStaleCnt t))) ∧
    (∀ ws, isUser t = true → h.holds m (tgtTunnel t) 3 = true →
      h.tunnelModify m t gen ws = ({ status := stStale }, h.inc (R.runStaleCnt t))) ∧
    (∀ clear, h.holds m (tgtTunnel t) (if clear then 3 else 1) = true →
      h.tunnelQuery m t gen true clear = ({ status := stStale }, h.inc (R.runStaleCnt t))) ∧
    (∀ f : Fld, f.key ≠ (R.runStaleCnt t).key → (h.inc (R.runStaleCnt t)).get f = h.get f)

/-- A well-formed frame of a tunnel that is not OPEN, and repeats no held read, goes no further: it is counted in the
tunnel's NOTOPEN_CNT, no other register, no queue and no output is changed. -/
def Obligations.FrameOfAClosedTunnelIsCountedAndDropped : Prop :=
  ∀ (h : Hub) (f : Frame) (code n : Nat) (nos : List Nat), formatOk f = true → h.noRequest f code = false →
    h.get (R.ttState f.tid) ≠ 1 → h.holdRepeat f = false →
    (h.ingressCells f code n nos).get (R.runNotopenCnt f.tid) = min (h.get (R.runNotopenCnt f.tid) + 1) 65535 ∧
    (∀ g : Fld, g.key ≠ (R.runNotopenCnt f.tid).key → (h.ingressCells f code n nos).get g = h.get g) ∧
    (h.ingressCells f code n nos).hearth = h.hearth ∧ (h.ingressCells f code n nos).out = h.out ∧
    (h.ingressCells f code n nos).links = h.links

/-! Link layer, strike and plans (chapters 4, 6 and 9). -/

/-- An ACK block of a reliable class, bits 9 and 8 its class and 25 to 11 its ACK_SEQ: one that lies before the oldest
unacknowledged link unit is ignored; one that lies beyond the last link unit sent changes nothing of the class and raises
LINK_PROTO of the trunk. With NAK 1 it is counted in NAK_RX beforehand, and in the second case it orders no replay. -/
def Obligations.AckOutsideTheWindowFreesNothing : Prop :=
  ∀ (h : Hub) (c w : Nat), isTrunk c = true → (bits w 9 8 = 0 ∨ bits w 9 8 = 2) →
    let t := h.txc c (bits w 9 8)
    let d := (bits w 25 11 + 32768 - t.oldest) % 32768
    let sent := (t.nextSeq + 32768 - t.oldest) % 32768
    t.oldest < 32768 → sent ≤ 16384 → sent ≤ d →
      (bit w 10 = false → 16384 ≤ d → h.ackArrives c w = h) ∧
      (bit w 10 = false → d < 16384 → h.ackArrives c w = h.raise (8 * (c - 1) + 1) 0) ∧
      (bit w 10 = true → d < 16384 → h.ackArrives c w = (h.inc (R.linkNakRx (c - 1))).raise (8 * (c - 1) + 1) 0) ∧
      Config.srcSeverity (8 * (c - 1) + 1) = 2

/-- A frame costs as many credits as its stored length has cells of 256 bytes, the extension word counted and crypto
word, tag and padding not; the receiver reads the same cost off the first block that the sender sends. -/
def Obligations.CreditCostIsReadOffTheFirstBlock : Prop :=
  ∀ (f : Frame) (c : Nat), f.nb = none → 1 ≤ f.tid → f.tid < 2 ^ 12 → f.gen < 16 → f.cls < 8 → f.seq < 2 ^ 16 →
    f.len < 2 ^ 14 →
    costOfBlock c ((frameHead f).headD 0) = ceilDiv (16 + 8 * b2n f.ext + f.len) 256 ∧
    f.cells = ceilDiv (16 + 8 * b2n f.ext + f.len) 256 ∧
    ∀ (h : Hub) (x : TxFrame), x.f = f → x.cells = f.cells →
      ((h.startTx c x).txc c x.ccls).cc = ((h.txc c x.ccls).cc + ceilDiv (16 + 8 * b2n f.ext + f.len) 256) % 16384

/-- The STRIKE block: what a hub sends, every hub accepts as a valid copy and reads as the micro-frame that was sent,
every field at every value it can have. -/
def Obligations.StrikeBlockReadsAsItWasSent : Prop :=
  ∀ x : Strike, x.chan < 256 → x.edge < 2 → x.hops < 8 → x.tlow < 16 → x.stseq < 1024 → x.toff < 2 ^ 18 →
    (∀ l, copyValid { lane := l, hdr := hdrCtrl, w := strikeWord x } = true) ∧
    strikeOf (strikeWord x) = x ∧ strikeWord x < 2 ^ 64

/-- The scrambler of a lane: bit `n` sent is bit `n` of the payload added to the bits sent 39 and 58 bits before it, and the
state is the 58 bits sent last, the oldest in bit 0. -/
def Obligations.LanesScrambleAsTheirPolynomialSays : Prop :=
  ∀ s w : Nat, s < 2 ^ 58 → w < 2 ^ 64 →
    let sent := s + (scramble s w).1 * 2 ^ 58
    (scramble s w).1 < 2 ^ 64 ∧ (scramble s w).2 = sent / 2 ^ 64 ∧
    ∀ n, n < 64 → sent.testBit (58 + n) = (w.testBit n ^^ (sent.testBit (58 + n - 39) ^^ sent.testBit (58 + n - 58)))

/-- A fresh micro-frame whose channel does not admit its ingress port, and that may still be forwarded, is counted in
DENIED: nothing is driven, no crossing and no other port's strike unit is touched. And an event is never sent back on the
port it came from. -/
def Obligations.StrikeOfAPortNotAdmittedIsDenied : Prop :=
  (∀ (h : Hub) (c : Nat) (x : Strike), ((h.stk c).window.find? (fun p => p.1 == x.stseq)) = none → x.hops ≠ 7 →
    bit (h.get (R.routeSrc x.chan)) (c - 1) = false →
    (h.takeCopy c x).get (R.fpDenied (fpOf c)) = min (h.get (R.fpDenied (fpOf c)) + 1) (2 ^ (R.fpDenied (fpOf c)).width - 1) ∧
    (h.takeCopy c x).out = h.out ∧ (h.takeCopy c x).flash.outs = h.flash.outs ∧
    (h.takeCopy c x).flash.cross = h.flash.cross ∧ (∀ p, p ≠ c → (h.takeCopy c x).stk p = h.stk p) ∧
    (∀ f : Fld, f.key ≠ (R.fpDenied (fpOf c)).key → f.key ≠ (R.fpRx (fpOf c)).key → (h.takeCopy c x).get f = h.get f)) ∧
  (∀ (h : Hub) (ch src : Nat), src ∉ h.strikeDests ch src)

/-- A PLAN command of a master that has no plan slot is refused with DENIED, and one that names another plan than the
slot holds with STALE; neither changes anything. -/
def Obligations.PlanCommandsNeedTheSlotsOwnPlan : Prop :=
  ∀ (h : Hub) (m pid : Nat),
    (4 < m → h.planBegin m = ({ status := stDenied }, h) ∧
      (∀ l, h.planStage m pid l = ({ status := stDenied }, h)) ∧ h.planCheck m pid = ({ status := stDenied }, h) ∧
      (∀ n, h.planArm m pid n = ({ status := stDenied }, h)) ∧ h.planAbort m pid = ({ status := stDenied }, h)) ∧
    (m ≤ 4 → h.planState m ≠ pEmpty → h.planBegin m = ({ status := stBusy }, h)) ∧
    (m ≤ 4 → h.get (R.planPlanId m) ≠ pid →
      (∀ l, h.planStage m pid l = ({ status := stStale }, h)) ∧ h.planCheck m pid = ({ status := stStale }, h) ∧
      (∀ n, h.planArm m pid n = ({ status := stStale }, h)) ∧
      (h.planState m ≠ pEmpty → h.planAbort m pid = ({ status := stStale }, h)))

/-- PLAN.ARM of the slot's own plan: BUSY in any state but CHECKED, TOO_LATE for a tick less than two ahead, BAD_ARG for
one more than 65,536 ahead, IN_PLAN while any slot is in WINDOW or REVERTING, each leaving the slot as it is; where the
checks on arming pass too, the slot is ARMED for the tick named and no other register is changed. -/
def Obligations.PlanArmIsAcceptedOnlyCheckedAndInTime : Prop :=
  ∀ (h : Hub) (m pid n : Nat), m ≤ 4 → pid ≠ 0 → h.get (R.planPlanId m) = pid → n < 2 ^ 48 →
    (h.planState m ≠ pChecked → h.planArm m pid n = ({ status := stBusy }, h)) ∧
    (h.planState m = pChecked → n < h.tickNum + 2 → h.planArm m pid n = ({ status := stTooLate }, h)) ∧
    (h.planState m = pChecked → h.tickNum + 65536 < n → h.planArm m pid n = ({ status := stBadArg }, h)) ∧
    (h.planState m = pChecked → h.tickNum + 2 ≤ n → n ≤ h.tickNum + 65536 →
      ((∃ s, s < 5 ∧ (h.planState s = pWindow ∨ h.planState s = pReverting)) →
        h.planArm m pid n = ({ status := stInPlan }, h)) ∧
      ((∀ s, s < 5 → h.planState s ≠ pWindow ∧ h.planState s ≠ pReverting) → h.armCheck m n = none →
        (h.planArm m pid n).1.status = stOk ∧ (h.planArm m pid n).2.planState m = pArmed ∧
        (h.planArm m pid n).2.get (R.planArmLo m) = n % 2 ^ 32 ∧
        (h.planArm m pid n).2.get (R.planArmHi m) = n / 2 ^ 32 ∧
        (∀ f : Fld, f.key ≠ (R.planState m).key → f.key ≠ (R.planArmLo m).key → f.key ≠ (R.planArmHi m).key →
          (h.planArm m pid n).2.get f = h.get f)))

/-! LP5, line ports, heads, DMA, USB, power (chapters 11 to 17). -/

/-- An access to LP5 is checked when it is issued: one that fails is counted in REFUSED and never reaches the queue nor
memory; one that passes is last in the queue and changes nothing else. It passes only where it lies within the capacity
and wholly within one enabled window whose gate grants its master the access; master 7 passes every gate. -/
def Obligations.MemoryAccessIsCheckedAtIssue : Prop :=
  ∀ (h : Hub) (a : Lp5Acc), h.lp5Down = false →
    (h.lp5Allowed a = true → h.lp5Issue a = { h with lp5 := { h.lp5 with queue := h.lp5.queue ++ [a] } }) ∧
    (h.lp5Allowed a = false →
      (h.lp5Issue a).lp5 = h.lp5 ∧
      (h.lp5Issue a).get R.lp5Refused = min (h.get R.lp5Refused + 1) (2 ^ R.lp5Refused.width - 1) ∧
      (∀ f : Fld, f.key ≠ R.lp5Refused.key → (h.lp5Issue a).get f = h.get f)) ∧
    (h.lp5Allowed a = true ↔
      (0x400000000 ≤ a.addr ∧ a.addr - 0x400000000 + a.len ≤ h.get R.lp5CapMib * 2 ^ 20 ∧
        ∃ w, w < 16 ∧ h.get (R.winEn w) ≠ 0 ∧ h.get (R.winBase w) * 2 ^ 20 ≤ a.addr - 0x400000000 ∧
          a.addr - 0x400000000 + a.len ≤ (h.get (R.winBase w) + h.get (R.winSize w)) * 2 ^ 20 ∧
          h.holds a.master (tgtWin w) (if a.wr then 2 else 1) = true ∧ h.clientMask a w = true)) ∧
    (∀ w, h.holds 7 (tgtWin w) 2 = true)

/-- A frame that arrives on a line port for a tunnel from 0x001 to 0x00F is counted in the port's PRE_DROP, whatever the
port's state, and that is all: no STALE record, no tunnel, no queue. -/
def Obligations.LineFramesNeverReachTheSystemTunnels : Prop :=
  ∀ (h : Hub) (c n : Nat) (f : Frame) (nos : List Nat), 5 ≤ c → c ≤ 20 → f.nb = none → 1 ≤ f.tid → f.tid ≤ 15 →
    (h.lineFrame c f n nos).get (R.lpPreDrop (c - 5)) =
      min (h.get (R.lpPreDrop (c - 5)) + 1) (2 ^ (R.lpPreDrop (c - 5)).width - 1) ∧
    (∀ g : Fld, g.key ≠ (R.lpPreDrop (c - 5)).key → (h.lineFrame c f n nos).get g = h.get g) ∧
    { h.lineFrame c f n nos with regs := h.regs } = h

/-- The latch point of an armed head: pending addresses that pass become the current ones, DONE_ID takes FLIP_ID, ARM
clears and FLIP_CNT counts; where they fail the current addresses stay, ARM clears, ERR sets and ECODE gives the cause. A
write to a pending address clears ARM and the address is taken. A head that is not armed latches nothing. Every other field
of every register is unchanged. -/
def Obligations.FlipLatchesWholeOrNotAtAll : Prop :=
  ∀ (h : Hub) (n : Nat),
    (h.get (R.flipArmBit n) = 0 → h.latchFlip n = h) ∧
    (h.get (R.flipArmBit n) = 1 → h.flipError n = 0 →
      (h.latchFlip n).curAddrs n = h.pendAddrs n ∧ (h.latchFlip n).get (R.flipDoneId n) = h.get (R.flipFlipId n) ∧
      (h.latchFlip n).get (R.flipArmBit n) = 0 ∧
      (h.latchFlip n).get (R.flipCnt n) = (h.get (R.flipCnt n) + 1) % 2 ^ 32 ∧
      (∀ f : Fld, f.key ∉ [(R.flipPCurLo n 0).key, (R.flipPCurHi n 0).key, (R.flipPCurLo n 1).key, (R.flipPCurHi n 1).key,
        (R.flipPCurLo n 2).key, (R.flipPCurHi n 2).key, (R.flipDoneId n).key, (R.flipArmBit n).key, (R.flipCnt n).key] →
        (h.latchFlip n).get f = h.get f) ∧
      { h.latchFlip n with regs := h.regs } = h) ∧
    (h.get (R.flipArmBit n) = 1 → h.flipError n ≠ 0 →
      (h.latchFlip n).curAddrs n = h.curAddrs n ∧ (h.latchFlip n).get (R.flipArmBit n) = 0 ∧
      (h.latchFlip n).get (R.flipErr n) = 1 ∧ (h.latchFlip n).get (R.flipEcode n) = h.flipError n ∧
      (∀ f : Fld, f.key ∉ [(R.flipArmBit n).key, (R.flipErr n).key, (R.flipEcode n).key] →
        (h.latchFlip n).get f = h.get f) ∧
      { h.latchFlip n with regs := h.regs } = h) ∧
    (∀ p w, p < 3 →
      (h.writeFlip n (8 * p) w).get (R.flipArmBit n) = 0 ∧
      (h.writeFlip n (8 * p) w).get (R.flipPLo n p) = bits w 31 8 ∧
      (h.writeFlip n (8 * p + 4) w).get (R.flipArmBit n) = 0 ∧
      (h.writeFlip n (8 * p + 4) w).get (R.flipPHi n p) = bits w 7 0 ∧
      (∀ f : Fld, f.key ≠ (R.flipArmBit n).key →
        (f.key ≠ (R.flipPLo n p).key → (h.writeFlip n (8 * p) w).get f = h.get f) ∧
        (f.key ≠ (R.flipPHi n p).key → (h.writeFlip n (8 * p + 4) w).get f = h.get f)))

/-- LOOP with N 0 goes on behind its matching ENDLOOP and changes nothing else; with another N it loads the counter of
its depth, deepens by one, notes where its body begins and goes on with the body; no other channel and no other register is
changed. -/
def Obligations.LoopOfNoughtSkipsItsBody : Prop :=
  ∀ (h : Hub) (c : Nat) (pre body post : List (List Nat)) (i e : List Nat),
    h.dmaRuns c = true → (h.dmaX c).prog = pre ++ i :: body ++ e :: post → h.get (R.dmaPc c) = pre.length →
    iOp i = 2 → iOp e = 3 → (∀ x ∈ body, iOp x ≠ 2 ∧ iOp x ≠ 3) → (h.dmaX c).prog.length < 4096 →
    (bits (i.headD 0) 23 0 = 0 →
      (h.dmaLoop c).get (R.dmaPc c) = pre.length + body.length + 2 ∧
      (∀ f : Fld, f.key ≠ (R.dmaPc c).key → (h.dmaLoop c).get f = h.get f) ∧
      { h.dmaLoop c with regs := h.regs } = h) ∧
    (bits (i.headD 0) 23 0 ≠ 0 → h.get (R.dmaDepth c) < 4 →
      (h.dmaLoop c).get (R.dmaPc c) = pre.length + 1 ∧ (h.dmaLoop c).get (R.dmaDepth c) = h.get (R.dmaDepth c) + 1 ∧
      (h.dmaLoop c).get (fLoop c (h.get (R.dmaDepth c))) = bits (i.headD 0) 23 0 ∧
      (∀ f : Fld, f.key ≠ (R.dmaPc c).key → f.key ≠ (R.dmaDepth c).key → f.key ≠ (fLoop c (h.get (R.dmaDepth c))).key →
        (h.dmaLoop c).get f = h.get f) ∧
      ((h.dmaLoop c).dmaX c).loops = (h.dmaX c).loops ++ [pre.length + 1] ∧
      (∀ c', c' ≠ c → (h.dmaLoop c).dmaX c' = h.dmaX c') ∧
      { h.dmaLoop c with regs := h.regs, media := { (h.dmaLoop c).media with dma := h.media.dma } } = h)

/-- A rise of PORT_OVER_CURRENT, which reads 1 while the stage is tripped by its breaker or its comparator: the port is
disabled, C_PORT_OVER_CURRENT sets, C_PORT_RESET clears, a reset in progress ends, OC_CNT counts. -/
def Obligations.OverCurrentDisablesThePort : Prop :=
  ∀ (h : Hub) (p : Nat), p < 16 →
    (h.stageOc p = true → h.get (R.usbPortOc p) = 0 →
      (h.portOc p).get (R.usbPortOc p) = 1 ∧ (h.portOc p).get (R.usbPortEn p) = 0 ∧
      (h.portOc p).get (R.usbPortOcCnt p) =
        min (h.get (R.usbPortOcCnt p) + 1) (2 ^ (R.usbPortOcCnt p).width - 1) ∧
      bit ((h.portOc p).usbPort p).change 3 = true ∧ bit ((h.portOc p).usbPort p).change 4 = false ∧
      ((h.portOc p).usbPort p).reset = false ∧
      (∀ f : Fld, f.key.i ≠ p → (h.portOc p).get f = h.get f)) ∧
    (h.stageOc p = false ∨ h.get (R.usbPortOc p) = 1 → h.portOc p = h)

/-- A message that arrives while the receive queue holds eight gets no GoodCRC and is not queued: RX_DROP counts and the
cause RX_FULL sets. -/
def Obligations.FullReceiveQueueDropsTheMessage : Prop :=
  ∀ (h : Hub) (n sopt hdr : Nat) (data : List Byte), h.ccOn n = true → h.ccAttached n = true → sopt ≤ 4 →
    pdCtrl hdr 1 = false → (h.cc n).tx = none → 8 ≤ (h.cc n).rx.length →
    (h.pdReceive n sopt hdr data true).out = h.out ∧
    ((h.pdReceive n sopt hdr data true).cc n).rx = (h.cc n).rx ∧
    (h.pdReceive n sopt hdr data true).get (R.ccRxDrop n) =
      min (h.get (R.ccRxDrop n) + 1) (2 ^ (R.ccRxDrop n).width - 1) ∧
    bit ((h.pdReceive n sopt hdr data true).get (R.ccCause n)) 5 = true ∧
    (∀ f : Fld, f.key ≠ (R.ccRxDrop n).key → f.key ≠ (R.ccCause n).key →
      (h.pdReceive n sopt hdr data true).get f = h.get f)

/-- The trip rows of the stage table: from INRUSH or ON the gate goes off, PG low, TRIES counts up to 15, and the stage
is in RETRY, or LATCHED where TRIES exceeds RETRY_MAX and RETRY_MAX sets a limit; from SINK it is OFF with TRIES as it was.
Every cause of the trip is recorded. In any other state there is nothing to trip. No other stage and, beside the stage's own
and the start budget's, no other register is changed. -/
def Obligations.TripMovesTheStageAsItsTableSays : Prop :=
  ∀ (h : Hub) (n : Nat) (l : List Nat), n < 16 → (∀ c ∈ l, c < (R.stgCause n).width) →
    ((h.stageState n = sgInrush ∨ h.stageState n = sgOn) →
      (h.stageTrip n l).get (R.stgTries n) = min 15 (h.get (R.stgTries n) + 1) ∧
      (h.stageTrip n l).stageState n =
        (if h.get (R.stgRetryMax n) < min 15 (h.get (R.stgTries n) + 1) ∧ h.get (R.stgRetryMax n) ≠ 15 then sgLatched
         else sgRetry) ∧
      (h.stageTrip n l).get (R.stgGateEn n) = 0 ∧ (h.stageTrip n l).get (R.stgPg n) = 0 ∧
      (∀ c ∈ l, bit ((h.stageTrip n l).get (R.stgCause n)) c = true) ∧
      (∀ f : Fld, f.key ∉ [(R.stgCause n).key, (R.stgTrips n).key, (R.stgTries n).key, (R.stgSstate n).key,
        (R.stgGateOk n).key, (R.stgGateEn n).key, (R.stgPg n).key, R.pwrNinr.key, R.pwrPinr.key, R.pwrNwait.key] →
        (h.stageTrip n l).get f = h.get f)) ∧
    (h.stageState n = sgSink →
      (h.stageTrip n l).get (R.stgTries n) = h.get (R.stgTries n) ∧ (h.stageTrip n l).stageState n = sgOff ∧
      (h.stageTrip n l).get (R.stgGateEn n) = 0 ∧
      (∀ c ∈ l, bit ((h.stageTrip n l).get (R.stgCause n)) c = true)) ∧
    (∀ k, k ≠ n → (h.stageTrip n l).stage k = h.stage k) ∧
    { h.stageTrip n l with regs := h.regs, col := h.col, power := h.power, out := h.out } = h ∧
    (h.stageState n ≠ sgInrush → h.stageState n ≠ sgOn → h.stageState n ≠ sgSink → h.stageTrip n l = h)

/-! Completion: every command answers a next state (one statement per family). -/

/-- Completion of the commands of start-up, supplies, the reset pin, warm reset, error lines, quench and direct
register accesses: each answers a next state, its own effect followed by what settles at the end of every command, in
every state where the event that the command stands for can happen. -/
def Obligations.StartupResetAndFaultLineCommandsComplete : Prop :=
  (∀ (lkind lsnk : Nat) (hbcompat : Bool) (smbadr : Nat) (s : State),
    exec (.powerOn lkind lsnk hbcompat smbadr) s =
      .next (s.cold 0 lkind lsnk hbcompat smbadr)) ∧
  (∀ (fails : Nat) (lp5 : Option (Nat × Bool × Nat)) (s : State),
    exec (.firmwareReady fails lp5) s =
      .next (s.act (fun h => h.firmwareReady fails lp5))) ∧
  (∀ (lkind lsnk : Nat) (hbcompat : Bool) (smbadr : Nat) (s : State),
    exec (.brownOut lkind lsnk hbcompat smbadr) s =
      .next (s.cold 1 lkind lsnk hbcompat smbadr)) ∧
  (∀ (lkind lsnk : Nat) (hbcompat : Bool) (smbadr : Nat) (s : State),
    s.hub.suppliesWatched = true →
    exec (.supplyOutOfRange lkind lsnk hbcompat smbadr) s =
      .next (s.cold 1 lkind lsnk hbcompat smbadr)) ∧
  (∀ (s : State),
    exec (.resetNLow) s =
      .next (s.act Hub.resetLow)) ∧
  (∀ (s : State),
    exec (.resetNRelease) s =
      .next (s.act Hub.resetRises)) ∧
  (∀ (cause : Nat) (s : State),
    s.hub.ctl.resetDue = some cause →
    exec (.warmReset) s =
      .next (s.act (fun h => h.warmBegin cause))) ∧
  (∀ (i detail : Nat) (s : State),
    exec (.errorLineRise i detail) s =
      .next (s.act (fun h => h.lineRise i detail))) ∧
  (∀ (i : Nat) (s : State),
    exec (.quench i) s =
      .next (s.act (fun h => h.quench i))) ∧
  (∀ (s : State),
    exec (.faultNPulseEnd) s =
      .next (s.act Hub.pulseOver)) ∧
  (∀ (s : State),
    exec (.coreWdog) s =
      .next (s.act Hub.coreWdog)) ∧
  (∀ (m r mask tag : Nat) (posted : Bool) (s : State),
    exec (.regionStatusClear m r mask tag posted) s =
      .next (s.act (fun h => h.directWord m { tag := tag, posted := posted } (r * 0x1000000) mask))) ∧
  (∀ (m addr : Nat) (data : List Byte) (tag : Nat) (posted : Bool) (s : State),
    exec (.registerWrite m addr data tag posted) s =
      .next (s.act (fun h => h.directWrite m { tag := tag, posted := posted } addr data))) ∧
  (∀ (m addr n tag : Nat) (s : State),
    exec (.queueCounterReadClear m addr n tag) s =
      .next (s.act (fun h => h.directRead m { tag := tag, posted := false } addr n))) ∧
  (∀ (i : Nat) (s : State),
    exec (.errorLineFall i) s =
      .next (s.act (fun h => h.lineFall i)))

/-- Completion of the commands of the tick boundary, the eleven tasks of the tick sequence, the service slot and time
exchange: each answers a next state, its own effect followed by what settles at the end of every command, in every
state where the event that the command stands for can happen. -/
def Obligations.TickAndTimeCommandsComplete : Prop :=
  (∀ (s : State),
    exec (.tickBoundary) s =
      .next (s.act Hub.tickBoundary)) ∧
  (∀ (s : State),
    exec (.tickOverrun) s =
      .next (s.act Hub.tickOverrun)) ∧
  (∀ (s : State),
    exec (.strikeSummaryBuild) s =
      .next (s.act (fun h => h.task 2 false Hub.buildSummaries))) ∧
  (∀ (s : State),
    exec (.strikeSummaryPlaced) s =
      .next (s.act Hub.placeSummaries)) ∧
  (∀ (s : State),
    exec (.faultCollectorSweep) s =
      .next (s.act (fun h => h.task 3 true Hub.sweep))) ∧
  (∀ (s : State),
    exec (.notificationQueueing) s =
      .next (s.act (fun h => h.task 4 true Hub.notifyTask))) ∧
  (∀ (s : State),
    exec (.queueSampling) s =
      .next (s.act (fun h => h.task 5 false Hub.sampleAll))) ∧
  (∀ (s : State),
    exec (.timeExchangeService) s =
      .next (s.act (fun h => h.task 6 true Hub.timeTask))) ∧
  (∀ (eyes : List TrialEyes) (adc : Int × Int × Bool) (trims : List (Nat × Nat × Bool)) (s : State),
    exec (.tempering eyes adc trims) s =
      .next (s.act (fun h => h.task 7 false (fun h => h.tempering eyes adc trims)))) ∧
  (∀ (s : State),
    exec (.telemetryMirrorSend) s =
      .next (s.act (fun h => h.task 8 true Hub.mirrorTask))) ∧
  (∀ (s : State),
    exec (.rasterFetchAccounting) s =
      .next (s.act (fun h => h.task 9 false Hub.fetchAccount))) ∧
  (∀ (s : State),
    exec (.keyRotationPreparation) s =
      .next (s.act (fun h => h.task 10 false Hub.keyPrepare))) ∧
  (∀ (s : State),
    exec (.serviceSlotEnd) s =
      .next (s.act Hub.slotEnd)) ∧
  (∀ (m : Nat) (payload : List Byte) (s : State),
    m < 4 →
    exec (.timeRequest m payload) s =
      .next (s.act (fun h => h.timeFrame m payload))) ∧
  (∀ (m : Nat) (payload : List Byte) (s : State),
    m < 4 →
    exec (.timeReport m payload) s =
      .next (s.act (fun h => h.timeFrame m payload))) ∧
  (∀ (done : Bool) (s : State),
    s.hub.tick.slotEnded = false → s.hub.domainsOn = true →
    exec (.twiopCommandService done) s =
      .next (({ s with hub := { s.hub with tick := { s.hub.tick with task := 11 } } } : State).serveFirst done))

/-- Completion of the commands of training of a port, link units, acknowledgement, credits and probes as they arrive
or fall due: each answers a next state, its own effect followed by what settles at the end of every command, in every
state where the event that the command stands for can happen. -/
def Obligations.LinkTrainingAndUnitCommandsComplete : Prop :=
  (∀ (c : Nat) (s : State),
    isTrunk c = true → s.hub.domainsOn = true → s.hub.linksPowered = true → s.hub.get (R.linkState (c - 1)) = 0 → (s.hub.port c).enabled = true → s.hub.trunkBarred (c - 1) = false → s.hub.replayEmpty (c - 1) = true →
    exec (.signalDetect c) s =
      .next (s.act (fun h => h.startTraining c))) ∧
  (∀ (c : Nat) (s : State),
    isTrunk c = true → s.hub.domainsOn = false →
    exec (.signalDetect c) s =
      .next (s.act (fun h => (h.wake 0 (2 ^ (15 + c)) false).signalTrain c))) ∧
  (∀ (c l w : Nat) (s : State),
    exec (.trainReceived c l w) s =
      .next (s.act (fun h => h.trainArrives c l w))) ∧
  (∀ (c l : Nat) (eye : Nat × Nat) (s : State),
    isLink c = true → l < laneCount c →
    exec (.fomMeasurement c l eye) s =
      .next (s.act (fun h => h.fomMeasured c l (fomOf eye.1 eye.2)))) ∧
  (∀ (c : Nat) (s : State),
    s.hub.inPhase c 1 = true →
    exec (.capTimeout c) s =
      .next (s.act (fun h => h.trainingFails c))) ∧
  (∀ (c : Nat) (s : State),
    exec (.eqTimeout c) s =
      .next (s.act (fun h =>
        if h.inPhase c 2 then h.eqEnd c
        else match h.restoringLane c with
          | some l =>
            if h.lanePhase c l ≠ 2 then h
            else if h.laneFit c l then (h.modLane c l (fun x => { x with mode := 4, farDone := true })).sendTrain c l
            else h.restoreFailed c l
          | none => h))) ∧
  (∀ (c : Nat) (s : State),
    exec (.readyTimeout c) s =
      .next (s.act (fun h =>
        if h.inPhase c 3 then h.readyEnd c
        else match h.restoringLane c with
          | some l => if h.lanePhase c l = 3 then h.restoreFailed c l else h
          | none => h))) ∧
  (∀ (c ccls seq : Nat) (fs : Bool) (cnt crc : Nat) (blocks : List Block) (last : Option (Nat × Nat)) (s : State),
    exec (.linkUnitReceived c ccls seq fs cnt crc blocks last) s =
      .next (s.act (fun h => h.streamArrives c (blocks ++ luEndBlock ccls seq fs cnt crc last)))) ∧
  (∀ (c ccls seq : Nat) (fs : Bool) (cnt crc l : Nat) (s : State),
    s.hub.linkFlows c = true →
    exec (.linkUnitReceived c ccls seq fs cnt crc [] (some (l, hdrCtrl))) s =
      .next (s.act (fun h => h.luEnds c (luEndWord { ccls := ccls, seq := seq, fs := fs, cnt := cnt, crc := crc, blocks := [] })))) ∧
  (∀ (c k ackSeq : Nat) (s : State),
    s.hub.linkFlows c = true →
    exec (.ackReceived c k ackSeq) s =
      .next (s.act (fun h => h.ackArrives c (ackBlock k ackSeq 0 false)))) ∧
  (∀ (c k ackSeq nseq : Nat) (s : State),
    s.hub.linkFlows c = true →
    exec (.nakReceived c k ackSeq nseq) s =
      .next (s.act (fun h => h.ackArrives c (ackBlock k ackSeq nseq true)))) ∧
  (∀ (c ctl iso rtx blk : Nat) (s : State),
    s.hub.linkFlows c = true →
    exec (.creditReceived c ctl iso rtx blk) s =
      .next (s.act (fun h => h.creditArrives c (creditBlock ctl iso rtx blk)))) ∧
  (∀ (c iso blk : Nat) (s : State),
    s.hub.linkFlows c = true →
    exec (.csyncReceived c iso blk) s =
      .next (s.act (fun h => h.csyncArrives c (csyncBlock iso blk)))) ∧
  (∀ (c pid : Nat) (resp : Bool) (s : State),
    s.hub.linkFlows c = true →
    exec (.probeReceived c pid resp) s =
      .next (s.act (fun h => h.probeArrives c (probeBlock pid resp)))) ∧
  (∀ (c : Nat) (skew : List Nat) (restart : Bool) (marks : List Block) (s : State),
    isLink c = true → (s.hub.port c).phase = 4 →
    exec (.alignReceived c skew restart marks) s =
      .next (s.act (fun h => h.alignRow c restart (markOf skew marks)))) ∧
  (∀ (c : Nat) (s : State),
    isLink c = true → s.hub.linkFlows c = true →
    exec (.eidleReceived c) s =
      .next (s.act (fun h => (h.set (fEidleRx c) 1).idleStates c))) ∧
  (∀ (c : Nat) (s : State),
    s.hub.linkFlows c = true → s.hub.flag (fEidleTx c) = false →
    exec (.ackPeriod c) s =
      .next (s.act (fun h => (h.sendAck c 0).sendAck c 2))) ∧
  (∀ (c k : Nat) (s : State),
    s.hub.linkFlows c = true → reliable k = true → (s.hub.rxc c k).nak = some (s.hub.rxc c k).nextSeq →
    exec (.nakResend c k) s =
      .next (s.act (fun h => h.sendNak c k))) ∧
  (∀ (c k : Nat) (s : State),
    s.hub.linkFlows c = true → reliable k = true → (s.hub.txc c k).unacked.isEmpty = false →
    exec (.replayTimeout c k) s =
      .next (s.act (fun h => h.orderReplay c k (h.txc c k).oldest))) ∧
  (∀ (c : Nat) (s : State),
    s.hub.linkFlows c = true → s.hub.flag (fEidleTx c) = false →
    exec (.creditPeriod c) s =
      .next (s.act (fun h => h.sendCredit c))) ∧
  (∀ (c : Nat) (s : State),
    s.hub.linkFlows c = true → s.hub.flag (fEidleTx c) = false → (s.hub.link c).csyncDue = true →
    exec (.csyncPeriod c) s =
      .next (s.act (fun h =>
        (h.sendCtrl c (csyncBlock (h.txc c 1).cc (h.txc c 3).cc)).modLink c (fun l => { l with csyncDue := false })))) ∧
  (∀ (c : Nat) (s : State),
    isLink c = true → s.hub.portUp c = true → s.hub.flag (fEidleRx c) = false →
    exec (.linkSilent c) s =
      .next (s.act (fun h =>
        if isTrunk c then h.raise (srcLinkSilent (c - 1)) 0 else h.lineCause (c - 5) cSilent)))

/-- Completion of the commands of sending at a link-unit boundary, attach, electrical idle and lane faults: each
answers a next state, its own effect followed by what settles at the end of every command, in every state where the
event that the command stands for can happen. -/
def Obligations.LinkSendingAttachAndLaneCommandsComplete : Prop :=
  (∀ (c ecc : Nat) (s : State),
    s.hub.linkFlows c = true →
    exec (.linkUnitBoundary c ecc) s =
      .next (s.act (fun h => h.boundary c ecc))) ∧
  (∀ (n host : Nat) (payload : List Byte) (s : State),
    n < 4 →
    exec (.ident n host payload) s =
      .next (s.act (fun h => h.ident n host payload))) ∧
  (∀ (n : Nat) (payload : List Byte) (s : State),
    n < 4 →
    exec (.proof n payload) s =
      .next (s.act (fun h => h.proof n payload))) ∧
  (∀ (n : Nat) (s : State),
    n < 4 →
    exec (.proofTimeout n) s =
      .next (s.act (fun h => h.proofTimeout n))) ∧
  (∀ (c : Nat) (s : State),
    isLink c = true → s.hub.mayIdle c (s.hub.psIs psIdle) = true →
    exec (.electricalIdleEntry c) s =
      .next (s.act (fun h =>
        ((h.eidleRow c).set (fEidleTx c) 1).idleStates c))) ∧
  (∀ (c : Nat) (rx : Bool) (unlocked : List Nat) (s : State),
    exec (.electricalIdleExit c rx unlocked) s =
      .next (s.act (fun h =>
        if !isLink c then h
        else if rx then
          (if h.flag (fEidleRx c) then
            ((h.set (fEidleRx c) 0).idleStates c).each (unlocked.filter (fun l => h.laneInUse c l)) (fun h l => h.laneFault c l)
           else h)
        else h.idleExit c))) ∧
  (∀ (c l : Nat) (s : State),
    s.hub.laneInUse c l = true → s.hub.flag (fEidleRx c) = false →
    exec (.lossOfSignal c l) s =
      .next (s.act (fun h => h.laneFault c l))) ∧
  (∀ (c : Nat) (bad : Nat × Nat) (s : State),
    s.hub.laneInUse c bad.1 = true →
    exec (.lossOfLock c bad) s =
      .next (s.act (fun h =>
        (h.add (fSyncErr c bad.1) bad.2).when (decide (16 ≤ bad.2)) (fun h => h.laneFault c bad.1)))) ∧
  (∀ (c l : Nat) (s : State),
    s.hub.laneInUse c l = true → 3 ≤ (s.hub.laneX c l).missed →
    exec (.lossOfAlignment c l) s =
      .next (s.act (fun h => h.laneFault c l))) ∧
  (∀ (c l : Nat) (s : State),
    s.hub.laneInUse c l = true → 3 ≤ (s.hub.laneX c l).lowRun →
    exec (.failedEye c l) s =
      .next (s.act (fun h => h.laneFault c l))) ∧
  (∀ (c : Nat) (rows : List (Option Nat × Nat)) (s : State),
    isTrunk c = true → s.hub.laneInUse c 4 = true → s.hub.laneRole c 4 = 3 →
    exec (.spareMism c rows) s =
      .next (s.act (fun h => h.spareRows c rows))) ∧
  (∀ (c l : Nat) (s : State),
    isTrunk c = true → s.hub.laneInUse c l = true → (s.hub.laneX c l).step.isSome = true →
    exec (.temperUndo c l) s =
      .next (s.act (fun h =>
        (h.inc (fSyncErr c l)).undoStep c l))) ∧
  (∀ (c : Nat) (s : State),
    isTrunk c = true →
    exec (.laneRestoreSwitch c) s =
      .next (s.act (fun h => h.restoreSwitch c))) ∧
  (∀ (c : Nat) (s : State),
    s.hub.linkFlows c = true →
    exec (.linkUnitWithoutLuEnd c) s =
      .next (s.act (fun h =>
        (h.modLink c (fun l => { l with inLu := [], inErr := false })).luFailedAll c)))

/-- Completion of the commands of trigger inputs and outputs, strike rows, summaries, failover and return: each
answers a next state, its own effect followed by what settles at the end of every command, in every state where the
event that the command stands for can happen. -/
def Obligations.StrikeAndFailoverCommandsComplete : Prop :=
  (∀ (i : Nat) (level : Bool) (half : Nat) (s : State),
    i < 32 →
    exec (.trigInEdge i level half) s =
      .next (s.act (fun h => h.trigIn i level half))) ∧
  (∀ (c : Nat) (copies : List Block) (s : State),
    s.hub.strikeUp c = true →
    exec (.strikeReceived c copies) s =
      .next (s.act (fun h => h.strikeRowReceived c copies))) ∧
  (∀ (c : Nat) (s : State),
    s.hub.strikeUp c = true → (s.hub.stk c).queue.isEmpty = false → s.hub.flag (fEidleTx c) = false →
    exec (.strikeRowSend c) s =
      .next (s.act (fun h => h.strikeHead c))) ∧
  (∀ (c : Nat) (s : State),
    s.hub.strikeUp c = true → (s.hub.stk c).queue.isEmpty = false → s.hub.flag (fEidleTx c) = true →
    exec (.strikeRowSend c) s =
      .next (s.act (fun h => h.idleExit c))) ∧
  (∀ (k : Nat) (s : State),
    k < 32 → (s.hub.trigOut k).pulse = true → s.hub.get (R.toutMode k) = 1 →
    exec (.pulseEnd k) s =
      .next (s.act (fun h =>
        h.setTrigOut k { drive := h.driveOf k false, level := false, pulse := false }))) ∧
  (∀ (ch : Nat) (s : State),
    ch < 256 →
    exec (.pulseCrossingAck ch) s =
      .next (s.act (fun h => h.crossAck ch))) ∧
  (∀ (n via : Nat) (payload : List Byte) (s : State),
    n < 4 →
    exec (.summaryReconcile n via payload) s =
      .next (s.act (fun h => h.reconcile n via payload))) ∧
  (∀ (n k : Nat) (s : State),
    n < 4 → k < s.hub.tickNum → (s.hub.strikeUp (n + 1) || s.hub.trunkFailed n) = true →
    exec (.summaryTimeout n k) s =
      .next (s.act (fun h => h.summaryMissing n k))) ∧
  (∀ (n k : Nat) (s : State),
    n < 4 → reliable k = true → s.hub.flag (R.foCrdEn n) = true → s.hub.get (R.linkState n) = 4 → s.hub.creditWait n k = true →
    exec (.creditStall n k) s =
      .next (s.act (fun h => h.raise (srcCrdStall n) 0))) ∧
  (∀ (n : Nat) (s : State),
    n < 4 → s.hub.get (R.foState n) = 1 → s.hub.get (R.linkState n) ≠ 4 → s.hub.get (R.foRtrDly n) ≠ 0 →
    exec (.retrainWaitExpiry n) s =
      .next (s.act (fun h => h.modFailover (n + 1) (fun f => { f with waitOver := true })))) ∧
  (∀ (n : Nat) (s : State),
    n < 4 → s.hub.get (R.foState n) = 1 → s.hub.get (R.linkState n) = 4 → s.hub.flag (R.foAutoret n) = true → s.hub.get (R.foRetHold n) ≤ (s.hub.failover (n + 1)).attached →
    exec (.autoReturn n) s =
      .next (s.act (fun h => h.set (R.foState n) 2))) ∧
  (∀ (t dir : Nat) (s : State),
    dir < 2 → s.hub.mayReturn t dir = true →
    exec (.tunnelReturn t dir) s =
      .next (s.act (fun h => h.returnDir t dir))) ∧
  (∀ (s : State),
    exec (.deputyTakeover) s =
      .next (s.act Hub.takeover)) ∧
  (∀ (ch : Nat) (s : State),
    ch < 256 →
    exec (.crossingPulse ch) s =
      .next (s.act (fun h => h.crossPulse ch)))

/-- Completion of the commands of frames at ingress, held frames, cut-through, scheduling and tunnel draining: each
answers a next state, its own effect followed by what settles at the end of every command, in every state where the
event that the command stands for can happen. -/
def Obligations.HearthCommandsComplete : Prop :=
  (∀ (c k n : Nat) (s : State),
    isLink c = true → k < 4 → s.hub.linkFlows c = true →
    exec (.frameIngress c k none n) s =
      .next (s.act (fun h => h.linkIngress c k))) ∧
  (∀ (c k : Nat) (f : Frame) (n : Nat) (s : State),
    isEngine c = true →
    exec (.frameIngress c k (some f) n) s =
      .next (s.act (fun h => h.engineIngress c f n))) ∧
  (∀ (c : Nat) (s : State),
    isTrunk c = true →
    exec (.fenceRelease c) s =
      .next (s.act (fun h => h.fenceRelease c))) ∧
  (∀ (s : State),
    exec (.heldFrameRejudge) s =
      .next (s.act Hub.rejudgeAll)) ∧
  (∀ (c k : Nat) (s : State),
    exec (.holdTimeout c k) s =
      .next (s.act (fun h => h.holdDrop c k))) ∧
  (∀ (t dir : Nat) (s : State),
    dir < 2 → s.hub.cutsInto (qkey t dir) = true →
    exec (.ctWaitTimeout t dir) s =
      .next (s.act (fun h => h.ctAbort (qkey t dir)))) ∧
  (∀ (reads : Nat × List Nat) (differ : List Nat) (s : State),
    exec (.scrubSweep reads differ) s =
      .next (s.act (fun h => h.scrub reads.1 reads.2.eraseDups differ.eraseDups))) ∧
  (∀ (e ecc : Nat) (s : State),
    (isLink e || isEngine e) = true →
    exec (.egressSelect e ecc) s =
      .next (s.act (fun h => ((h.discardDown e).discardLine e).selectAt e ecc))) ∧
  (∀ (t dir : Nat) (s : State),
    isUser t = true → dir < 2 →
    exec (.bellowsReady t dir) s =
      .next (s.act (fun h =>
        let h := h.refillQueue t dir
        let e := h.egressOf t dir
        if e = 0 then h else h.refreshQueue e (qkey t dir)))) ∧
  (∀ (e : Nat) (s : State),
    (isLink e || isEngine e) = true → s.hub.get (R.schGuard (e - 1)) ≠ 0 → (s.hub.groupActive e).isEmpty = false → (isTrunk e && s.hub.safe) = false →
    exec (.guardExpiry e) s =
      .next (s.act (fun h => h.modEgress e (fun x => { x with guardDue := true })))) ∧
  (∀ (e : Nat) (s : State),
    (isLink e || isEngine e) = true → 8 ≤ (s.hub.egress e).guardTicks →
    exec (.schStarve e) s =
      .next (s.act (fun h => h.raise srcSchStarve e))) ∧
  (∀ (t : Nat) (s : State),
    exec (.drainComplete t) s =
      .next (s.act (fun h => h.drainComplete t))) ∧
  (∀ (t : Nat) (s : State),
    exec (.drainTimeout t) s =
      .next (s.act (fun h => h.drainTimeout t))) ∧
  (∀ (t : Nat) (s : State),
    exec (.quarantineEnd t) s =
      .next (s.act (fun h => h.quarantineEnd t))) ∧
  (∀ (t dir c : Nat) (s : State),
    dir < 2 →
    exec (.cutThroughCell t dir c) s =
      .next (s.act (fun h => h.ctCell (qkey t dir) c)))

/-- Completion of the commands of line ports, nodes, node-bus packets, storage accesses and telemetry: each answers a
next state, its own effect followed by what settles at the end of every command, in every state where the event that
the command stands for can happen. -/
def Obligations.LinePortAndBridgeCommandsComplete : Prop :=
  (∀ (n : Nat) (s : State),
    n < 16 → s.hub.attachCond n = true →
    exec (.lineAttachCondition n) s =
      .next (s.act (fun h => h.lineCondOn n))) ∧
  (∀ (n : Nat) (s : State),
    n < 16 → s.hub.attachCond n = false →
    exec (.lineAttachConditionEnd n) s =
      .next (s.act (fun h => h.lineCondOff n))) ∧
  (∀ (n : Nat) (payload : List Byte) (s : State),
    n < 16 →
    exec (.nodeinfo n payload) s =
      .next (s.act (fun h => h.nodeInfo n payload))) ∧
  (∀ (n : Nat) (payload : List Byte) (s : State),
    n < 16 →
    exec (.nodeProof n payload) s =
      .next (s.act (fun h => h.nodeProof n payload))) ∧
  (∀ (n : Nat) (s : State),
    n < 16 →
    exec (.depart n) s =
      .next (s.act (fun h => h.nodeDepart n))) ∧
  (∀ (n : Nat) (s : State),
    n < 16 →
    exec (.helloTimeout n) s =
      .next (s.act (fun h => h.helloAgain n))) ∧
  (∀ (n : Nat) (s : State),
    n < 16 →
    exec (.lineRetrainWait n) s =
      .next (s.act (fun h => h.lineWaitOver n))) ∧
  (∀ (n : Nat) (f : Frame) (inTime : Bool) (y : NbHead) (s : State),
    s.hub.nodeOp n 1 f = true → f.nb = some y →
    exec (.nodeBusRd n f inTime) s =
      .next (s.actAll (fun s => ({ s with hub := s.hub.nodeTaken n f } : State).nodeRead n f y inTime))) ∧
  (∀ (n : Nat) (f : Frame) (y : NbHead) (s : State),
    s.hub.nodeOp n 2 f = true → f.nb = some y →
    exec (.nodeBusWr n f) s =
      .next (s.act (fun h => (h.nodeTaken n f).nodeWrite n f y))) ∧
  (∀ (n : Nat) (f : Frame) (y : NbHead) (s : State),
    s.hub.nodeOp n 3 f = true → f.nb = some y →
    exec (.nodeBusPwr n f) s =
      .next (s.act (fun h => (h.nodeTaken n f).nodeWrite n f y))) ∧
  (∀ (n : Nat) (f : Frame) (y : NbHead) (s : State),
    s.hub.nodeOp n 4 f = true → f.nb = some y →
    exec (.nodeBusResponse n f) s =
      .next (s.act (fun h => (h.nodeTaken n f).nodeResponse n f))) ∧
  (∀ (n : Nat) (f : Frame) (y : NbHead) (s : State),
    s.hub.nodeOp n 5 f = true → f.nb = some y →
    exec (.nodeBusResponse n f) s =
      .next (s.act (fun h => (h.nodeTaken n f).nodeResponse n f))) ∧
  (∀ (n : Nat) (s : State),
    n < 16 →
    exec (.nodeBusTimeout n) s =
      .next (s.act (fun h => h.nodeTimeout n))) ∧
  (∀ (p : Nat) (f : Frame) (s : State),
    s.hub.bridge.inbox.find? ofStorage = some (p, f) → f.op ≠ 2 →
    exec (.storageRead f) s =
      .next (s.act (fun h => ({ h with bridge := { h.bridge with inbox := h.bridge.inbox.erase (p, f) } } : Hub).storageRead f))) ∧
  (∀ (p : Nat) (f : Frame) (s : State),
    s.hub.bridge.inbox.find? ofStorage = some (p, f) → f.op = 2 →
    exec (.storageWrite f) s =
      .next (s.act (fun h => ({ h with bridge := { h.bridge with inbox := h.bridge.inbox.erase (p, f) } } : Hub).storageWrite f))) ∧
  (∀ (s : State),
    exec (.pieceComplete) s =
      .next (s.act (fun h => h.pieceComplete))) ∧
  (∀ (t gen tag : Nat) (s : State),
    exec (.holdExpiry t gen tag) s =
      .next (s.act (fun h => h.holdExpiry t gen tag))) ∧
  (∀ (n addr len : Nat) (s : State),
    n < 16 →
    exec (.nodeHoldExpiry n addr len) s =
      .next (s.act (fun h => h.nodeHoldExpiry n addr len))) ∧
  (∀ (p : Nat) (f : Frame) (s : State),
    s.hub.bridge.inbox.find? ofTelemetry = some (p, f) →
    exec (.telemetryUpdate f) s =
      .next (s.act (fun h => ({ h with bridge := { h.bridge with inbox := h.bridge.inbox.erase (p, f) } } : Hub).telemetry f)))

/-- Completion of the commands of raster heads, DisplayPort outputs and the LP5 controller: each answers a next state,
its own effect followed by what settles at the end of every command, in every state where the event that the command
stands for can happen. -/
def Obligations.DisplayAndMemoryControllerCommandsComplete : Prop :=
  (∀ (n : Nat) (s : State),
    n < 8 →
    exec (.latchPoint n) s =
      .next (s.act (fun h => h.latchEvent n))) ∧
  (∀ (m n id : Nat) (arm : Bool) (tag : Nat) (posted : Bool) (s : State),
    n < 8 →
    exec (.flipArm m n id arm tag posted) s =
      .next (s.act (fun h =>
        h.directWord m ⟨tag, posted⟩ (0x3001018 + n * 0x100) (b2n arm * 2 ^ 31 + id % 65536)))) ∧
  (∀ (m n p : Nat) (hi : Bool) (v tag : Nat) (posted : Bool) (s : State),
    n < 8 → p < 3 →
    exec (.flipAddressWrite m n p hi v tag posted) s =
      .next (s.act (fun h =>
        h.directWord m ⟨tag, posted⟩ (0x3001000 + n * 0x100 + p * 8 + 4 * b2n hi) v))) ∧
  (∀ (n : Nat) (s : State),
    n < 8 →
    exec (.pixelPllLock n) s =
      .next (s.act (fun h => h.pllLock n))) ∧
  (∀ (n : Nat) (s : State),
    n < 8 →
    exec (.underflow n) s =
      .next (s.act (fun h => h.underflow n))) ∧
  (∀ (n : Nat) (s : State),
    n < 8 →
    exec (.rasterLineSend n) s =
      .next (s.act (fun h => h.lineSend n))) ∧
  (∀ (n : Nat) (seen : Option Nat) (s : State),
    n < 8 →
    exec (.witnessBandCompare n seen) s =
      .next (s.act (fun h => h.bandCompare n seen))) ∧
  (∀ (d : Nat) (lockLost retrained : Bool) (s : State),
    d < 2 →
    exec (.irqHpd d lockLost retrained) s =
      .next (s.act (fun h => h.irqHpd d lockLost retrained))) ∧
  (∀ (d : Nat) (s : State),
    d < 2 →
    exec (.hpdUnplug d) s =
      .next (s.act (fun h => h.hpdUnplug d))) ∧
  (∀ (client plane : Nat) (wr : Bool) (addr len : Nat) (data : List Byte) (s : State),
    s.hub.domainsOn = true →
    exec (.lp5Access client plane wr addr len data) s =
      .next (s.act (fun h =>
        if client < 8 then h.when (decide (plane < 3)) (fun h => h.headFetch client plane)
        else h.when (client == clCore) (fun h => h.coreAccess wr addr len data)))) ∧
  (∀ (bank : Nat) (s : State),
    s.hub.lp5Working = true →
    exec (.lp5Refresh bank) s =
      .next (s.act (fun h => h.emit (.words "LP5_REFRESH" bank [h.lp5.mr4])))) ∧
  (∀ (v : Nat) (s : State),
    s.hub.lp5Working = true →
    exec (.lp5Mr4Read v) s =
      .next (s.act (fun h =>
        ({ h with lp5 := { h.lp5 with mr4 := v % 256 } } : Hub).emit (.words "LP5_MR4_READ" 0 [])))) ∧
  (∀ (s : State),
    s.hub.lp5Working = true →
    exec (.lp5ZqCalibration) s =
      .next (s.act (fun h => h.emit (.words "LP5_ZQ" 0 [])))) ∧
  (∀ (osc : Nat) (s : State),
    s.hub.lp5Working = true →
    exec (.lp5WckCheck osc) s =
      .next (s.act (fun h => h.emit (.words "LP5_WCK" 0 [osc])))) ∧
  (∀ (s : State),
    s.hub.domainsOn = true →
    exec (.lp5StateEntry) s =
      .next (s.act (fun h =>
        match h.lp5Deepest with
        | some st => h.lp5Enter st
        | none => h))) ∧
  (∀ (s : State),
    s.hub.domainsOn = true → s.hub.lp5MustExit = true →
    exec (.lp5StateExit) s =
      .next (s.act (fun h =>
        { h with lp5 := { h.lp5 with exiting := true } }))) ∧
  (∀ (d : Nat) (s : State),
    d < 2 →
    exec (.hpdPlug d) s =
      .next (s.act (fun h => h.set (R.dpHpd d) 1))) ∧
  (∀ (s : State),
    s.hub.domainsOn = true → s.hub.lp5.exiting = true →
    exec (.lp5ExitComplete) s =
      .next (s.act (fun h => h.lp5Awake))) ∧
  (∀ (client ecc : Nat) (s : State),
    s.hub.domainsOn = true →
    exec (.lp5ReadReturn client ecc) s =
      .next (s.act (fun h => h.lp5Return client ecc)))

/-- Completion of the commands of the DMA engine: one instruction of a channel, responses, requests and doorbells:
each answers a next state, its own effect followed by what settles at the end of every command, in every state where
the event that the command stands for can happen. -/
def Obligations.DmaCommandsComplete : Prop :=
  (∀ (c ecc : Nat) (s : State),
    c < 64 → s.hub.domainsOn = true →
    exec (.dmaMove c ecc) s =
      .next (s.actAll (fun s => s.dmaMove c ecc))) ∧
  (∀ (c : Nat) (s : State),
    c < 64 → s.hub.domainsOn = true →
    exec (.dmaLoop c) s =
      .next (s.act (fun h => h.dmaLoop c))) ∧
  (∀ (c : Nat) (s : State),
    c < 64 → s.hub.domainsOn = true →
    exec (.dmaEndloop c) s =
      .next (s.act (fun h => h.dmaEndloop c))) ∧
  (∀ (c : Nat) (s : State),
    c < 64 → s.hub.domainsOn = true →
    exec (.dmaWait c) s =
      .next (s.act (fun h => h.dmaWait c))) ∧
  (∀ (c : Nat) (s : State),
    c < 64 → s.hub.domainsOn = true →
    exec (.dmaSignal c) s =
      .next (s.act (fun h => h.dmaSignal c))) ∧
  (∀ (c : Nat) (s : State),
    c < 64 → s.hub.domainsOn = true →
    exec (.dmaFence c) s =
      .next (s.act (fun h => h.dmaFence c))) ∧
  (∀ (c : Nat) (s : State),
    c < 64 → s.hub.domainsOn = true →
    exec (.dmaEnd c) s =
      .next (s.act (fun h => h.dmaEnd c))) ∧
  (∀ (c : Nat) (s : State),
    c < 64 →
    exec (.dmaWriteResponse c) s =
      .next (s.act (fun h => h.dmaResponse c))) ∧
  (∀ (l : Nat) (s : State),
    l < 104 →
    exec (.dmaRequest l) s =
      .next (s.act (fun h => h.dmaReq l))) ∧
  (∀ (c : Nat) (s : State),
    c < 64 →
    exec (.dmaWaitTimeout c) s =
      .next (s.act (fun h => h.dmaTimeout c))) ∧
  (∀ (m c tag : Nat) (posted : Bool) (s : State),
    c < 64 →
    exec (.doorbellStart m c tag posted) s =
      .next (s.act (fun h => h.directWord m ⟨tag, posted⟩ (0x3002000 + c * 16) 1))) ∧
  (∀ (m c tag : Nat) (posted : Bool) (s : State),
    c < 64 →
    exec (.doorbellStop m c tag posted) s =
      .next (s.act (fun h => h.directWord m ⟨tag, posted⟩ (0x3002000 + c * 16) 2)))

/-- Completion of the commands of the USB hub, its two device functions, its downstream ports and the service session:
each answers a next state, its own effect followed by what settles at the end of every command, in every state where
the event that the command stands for can happen. -/
def Obligations.UsbCommandsComplete : Prop :=
  (∀ (bus : Nat) (during hs : Bool) (s : State),
    bus < 2 → s.hub.busOn bus = true →
    exec (.usbBusReset bus during hs) s =
      .next (s.act (fun h => h.busReset bus during hs))) ∧
  (∀ (bus : Nat) (s : State),
    bus < 2 → s.hub.busOn bus = true →
    exec (.usbSuspend bus) s =
      .next (s.act (fun h => h.busSuspend bus))) ∧
  (∀ (bus : Nat) (done : Bool) (s : State),
    bus < 2 → s.hub.busOn bus = true →
    exec (.usbHostResume bus done) s =
      .next (s.act (fun h => h.busResume bus done))) ∧
  (∀ (d : Nat) (seenK : Bool) (s : State),
    s.hub.devOn d = true →
    exec (.usbRemoteWake d seenK) s =
      .next (s.act (fun h => h.remoteWake d seenK))) ∧
  (∀ (d a : Nat) (s : State),
    s.hub.devOn d = true → a < 128 →
    exec (.setAddress d a) s =
      .next (s.act (fun h => h.setAddress d a))) ∧
  (∀ (d v : Nat) (s : State),
    s.hub.devOn d = true →
    exec (.setConfiguration d v) s =
      .next (s.act (fun h => h.setConfiguration d v))) ∧
  (∀ (d itf alt : Nat) (s : State),
    s.hub.devOn d = true →
    exec (.setInterface d itf alt) s =
      .next (s.act (fun h => h.setInterface d itf alt))) ∧
  (∀ (s : State),
    s.hub.devOn 1 = true →
    exec (.getTunnelGen) s =
      .next (s.act (fun h => h.tunnelGen))) ∧
  (∀ (d v : Nat) (s : State),
    s.hub.devOn d = true → d ≠ 0 →
    exec (.logSelect d v) s =
      .next (s.act (fun h => h.logSelect d v))) ∧
  (∀ (p : Nat) (s : State),
    s.hub.hubOn p = true →
    exec (.setPortFeaturePortPower p) s =
      .next (s.act (fun h => h.portPower p true))) ∧
  (∀ (p : Nat) (s : State),
    s.hub.hubOn p = true →
    exec (.clearPortFeaturePortPower p) s =
      .next (s.act (fun h => h.portPower p false))) ∧
  (∀ (p : Nat) (s : State),
    s.hub.hubOn p = true →
    exec (.setPortFeaturePortReset p) s =
      .next (s.act (fun h => h.portReset p))) ∧
  (∀ (p : Nat) (s : State),
    s.hub.hubOn p = true →
    exec (.setPortFeaturePortSuspend p) s =
      .next (s.act (fun h => h.portSuspend p))) ∧
  (∀ (p : Nat) (s : State),
    s.hub.hubOn p = true →
    exec (.clearPortFeaturePortSuspend p) s =
      .next (s.act (fun h => h.portResume p))) ∧
  (∀ (d : Nat) (f : Option Frame) (s : State),
    s.hub.devOn d = true → d ≠ 0 →
    exec (.usbManagementTransfer d f) s =
      .next (s.act (fun h => h.management d f))) ∧
  (∀ (rebuilt : Bool) (held : Nat) (s : State),
    s.hub.devOn 1 = true →
    exec (.isochronousReport rebuilt held) s =
      .next (s.act (fun h => h.isoReport rebuilt held))) ∧
  (∀ (p : Nat) (s : State),
    p < 16 →
    exec (.usbOverCurrent p) s =
      .next (s.act (fun h => h.portOc p))) ∧
  (∀ (p : Nat) (s : State),
    p < 16 → s.hub.vbusGood p = false →
    exec (.vbusLoss p) s =
      .next (s.act (fun h => h.vbusLoss p))) ∧
  (∀ (s : State),
    s.hub.sessionOpen = true →
    exec (.serviceSessionEnd) s =
      .next (s.act (fun h => h.sessionEnd))) ∧
  (∀ (p : Nat) (s : State),
    p < 16 →
    exec (.downstreamConnect p) s =
      .next (s.act (fun h => h.portConnect p))) ∧
  (∀ (p : Nat) (s : State),
    p < 16 → s.hub.portConn p = true →
    exec (.downstreamDisconnect p) s =
      .next (s.act (fun h => h.portLeave p))) ∧
  (∀ (p : Nat) (s : State),
    p < 16 →
    exec (.downstreamRemoteWake p) s =
      .next (s.act (fun h => h.portWake p))) ∧
  (∀ (p speed : Nat) (s : State),
    p < 17 → speed < 3 →
    exec (.portResetComplete p speed) s =
      .next (s.act (fun h => h.portResetDone p speed))) ∧
  (∀ (p : Nat) (s : State),
    p < 17 →
    exec (.downstreamResumeEnd p) s =
      .next (s.act (fun h => h.portResumeEnd p))) ∧
  (∀ (d feature : Nat) (s : State),
    s.hub.devOn d = true →
    exec (.setFeature d feature) s =
      .next (s.act (fun h => h.usbSetFeature d feature))) ∧
  (∀ (p b : Nat) (s : State),
    s.hub.hubOn p = true → b < 5 →
    exec (.clearPortFeatureChange p b) s =
      .next (s.act (fun h => h.portClearChange p b))) ∧
  (∀ (bus : Nat) (ok : Bool) (s : State),
    bus < 2 →
    exec (.upstreamVbusValid bus ok) s =
      .next (s.act (fun h => h.busVbus bus ok)))

/-- Completion of the commands of cable attach and power negotiation of the line ports: each answers a next state, its
own effect followed by what settles at the end of every command, in every state where the event that the command
stands for can happen. -/
def Obligations.CableAndPdCommandsComplete : Prop :=
  (∀ (n w1 w2 : Nat) (vbus : Bool) (rplvl : Nat) (s : State),
    n < 16 → w1 < 4 → w2 < 4 → rplvl < 4 →
    exec (.ccCombinationChange n w1 w2 vbus rplvl) s =
      .next (s.act (fun h =>
        h.ccChange n w1 w2 vbus rplvl))) ∧
  (∀ (n : Nat) (s : State),
    n < 16 → s.hub.ccOn n = true →
    exec (.ccDebounceExpiry n) s =
      .next (s.act (fun h => h.ccDebounce n))) ∧
  (∀ (n : Nat) (s : State),
    n < 16 → s.hub.ccOn n = true →
    exec (.ccDetach n) s =
      .next (s.act (fun h => h.ccDetach n))) ∧
  (∀ (n : Nat) (s : State),
    n < 16 → s.hub.ccOn n = true →
    exec (.detachInTransition n) s =
      .next (s.act (fun h => h.ccDetachTrans n))) ∧
  (∀ (n : Nat) (s : State),
    n < 16 → s.hub.ccOn n = true →
    exec (.errorRecoveryEnd n) s =
      .next (s.act (fun h => h.ccRecovered n))) ∧
  (∀ (n : Nat) (s : State),
    n < 16 → s.hub.ccOn n = true →
    exec (.vconnOverCurrent n) s =
      .next (s.act (fun h => h.vconnOc n))) ∧
  (∀ (n sopt hdr : Nat) (data : List Byte) (crcOk : Bool) (s : State),
    n < 16 →
    exec (.pdMessageReceived n sopt hdr data crcOk) s =
      .next (s.act (fun h => h.pdReceive n sopt (hdr % 65536) data crcOk))) ∧
  (∀ (n : Nat) (s : State),
    n < 16 →
    exec (.goodcrcTimeout n) s =
      .next (s.act (fun h => h.pdNoAck n))) ∧
  (∀ (n : Nat) (sent : Bool) (s : State),
    n < 16 →
    exec (.hardReset n sent) s =
      .next (s.act (fun h => h.hardReset n sent))) ∧
  (∀ (n : Nat) (s : State),
    n < 16 →
    exec (.hardResetSourceOff n) s =
      .next (s.act (fun h => h.hardResetOff n))) ∧
  (∀ (n : Nat) (s : State),
    n < 16 →
    exec (.hardResetRecover n) s =
      .next (s.act (fun h => h.hardResetRecover n))) ∧
  (∀ (n : Nat) (s : State),
    n < 16 →
    exec (.hardResetSinkTimeout n) s =
      .next (s.act (fun h => h.hardResetLost n))) ∧
  (∀ (n : Nat) (s : State),
    n < 16 → s.hub.ccOn n = true →
    exec (.fastRoleSwapSignal n) s =
      .next (s.act (fun h => h.frsSignal n))) ∧
  (∀ (n : Nat) (s : State),
    n < 16 →
    exec (.frsSourceOn n) s =
      .next (s.act (fun h => h.frsSource n))) ∧
  (∀ (n : Nat) (s : State),
    n < 16 →
    exec (.frsTimeout n) s =
      .next (s.act (fun h => h.frsTimeout n))) ∧
  (∀ (n : Nat) (s : State),
    n < 16 →
    exec (.frsPartnerGone n) s =
      .next (s.act (fun h => h.frsGone n))) ∧
  (∀ (n : Nat) (s : State),
    n < 16 →
    exec (.eprKeepaliveTimeout n) s =
      .next (s.act (fun h => h.eprLost n))) ∧
  (∀ (n t : Nat) (s : State),
    n < 16 →
    exec (.policyTimerExpiry n t) s =
      .next (s.act (fun h => h.policyExpiry n t))) ∧
  (∀ (n : Nat) (seen : Bool) (s : State),
    exec (.ccPollWindow n seen) s =
      .next (s.act (fun h => h.ccPoll n seen))) ∧
  (∀ (n lvl : Nat) (s : State),
    n < 16 → s.hub.ccOn n = true →
    exec (.vbusLevelReached n lvl) s =
      .next (s.act (fun h => h.vbusLevel n lvl))) ∧
  (∀ (n : Nat) (s : State),
    n < 16 → s.hub.ccOn n = true →
    exec (.sinkVbusLoss n) s =
      .next (s.act (fun h => h.sinkVbusLoss n)))

/-- Completion of the commands of feeds, stages, trips, the start budget and retries: each answers a next state, its
own effect followed by what settles at the end of every command, in every state where the event that the command
stands for can happen. -/
def Obligations.PowerStageCommandsComplete : Prop :=
  (∀ (f : Nat) (healthy excess : Bool) (s : State),
    f < 2 →
    exec (.feedHealthChange f healthy excess) s =
      .next (s.act (fun h => h.feedHealth f healthy excess))) ∧
  (∀ (f : Nat) (s : State),
    f < 2 →
    exec (.feedInrushEnd f) s =
      .next (s.act (fun h => h.feedInrushEnd f))) ∧
  (∀ (s : State),
    exec (.deadTimeExpiry) s =
      .next (s.act (fun h => h.deadOver))) ∧
  (∀ (s : State),
    exec (.feedRevert) s =
      .next (s.act (fun h => h.feedRevert))) ∧
  (∀ (s : State),
    exec (.feedGateFail) s =
      .next (s.act (fun h => h.feedGateFail))) ∧
  (∀ (f : Nat) (s : State),
    f < 2 →
    exec (.feedBarExpiry f) s =
      .next (s.act (fun h => h.feedBarOver f))) ∧
  (∀ (s : State),
    exec (.feedNone) s =
      .next (s.act (fun h => h.feedsGone))) ∧
  (∀ (s : State),
    exec (.feedWarn) s =
      .next (s.act (fun h => h.feedWarning))) ∧
  (∀ (s : State),
    exec (.feedWarnRelease) s =
      .next (s.act (fun h => h.warnRelease))) ∧
  (∀ (n : Nat) (s : State),
    n < 16 → s.hub.isSlot n = true →
    exec (.seatingDebounce n) s =
      .next (s.act (fun h => h.seatingDone n))) ∧
  (∀ (n : Nat) (s : State),
    n < 16 → s.hub.isSlot n = true →
    exec (.insertionDelay n) s =
      .next (s.act (fun h => h.insertionDone n))) ∧
  (∀ (n : Nat) (s : State),
    n < 16 →
    exec (.startRequest n) s =
      .next (s.act (fun h => h.startRequest n))) ∧
  (∀ (samples : List (Nat × Nat)) (s : State),
    exec (.budgetAdmit samples) s =
      .next (s.act (fun h => h.budgetCycle samples))) ∧
  (∀ (n : Nat) (seated pres : Bool) (s : State),
    n < 16 → s.hub.isSlot n = true →
    exec (.stageRemoval n seated pres) s =
      .next (s.act (fun h => h.stageRemoval n seated pres))) ∧
  (∀ (n : Nat) (s : State),
    n < 16 →
    exec (.inrushEnd n) s =
      .next (s.act (fun h => h.inrushEnd n))) ∧
  (∀ (p : Nat) (s : State),
    exec (.inrushTimeout p) s =
      .next (s.act (fun h => h.tripWhen p (h.pathInrush p) [caInrTmo]))) ∧
  (∀ (p : Nat) (s : State),
    exec (.breakerTrip p) s =
      .next (s.act (fun h => h.tripWhen p (h.pathOn p) [caCurve]))) ∧
  (∀ (p : Nat) (curve : Bool) (s : State),
    exec (.instantTrip p curve) s =
      .next (s.act (fun h => h.tripWhen p (h.pathInrush p || h.pathOn p)
        (if curve && h.pathOn p then [caCurve, caItrip] else [caItrip])))) ∧
  (∀ (p : Nat) (s : State),
    exec (.ocTrip p) s =
      .next (s.act (fun h => h.tripWhen p
        ((h.pathInrush p || h.pathOn p) && if p < 16 then h.flag (R.stgOcEn p) else h.flag (R.feedOcEn (p - 16))) [caOc]))) ∧
  (∀ (p : Nat) (s : State),
    exec (.gateFail p) s =
      .next (s.act (fun h => h.tripWhen p (h.pathOn p) [caGateFail]))) ∧
  (∀ (n : Nat) (s : State),
    exec (.ovpTrip n) s =
      .next (s.act (fun h => h.tripWhen n
        (decide (n < 16) && !h.isSlot n && (h.pathInrush n || h.pathOn n)) [caOvp]))) ∧
  (∀ (n : Nat) (fault : Bool) (s : State),
    n < 16 →
    exec (.powerGood n fault) s =
      .next (s.act (fun h => h.powerGood n fault))) ∧
  (∀ (n : Nat) (s : State),
    n < 16 →
    exec (.retryExpiry n) s =
      .next (s.act (fun h => h.retryExpiry n))) ∧
  (∀ (n : Nat) (s : State),
    n < 16 →
    exec (.triesReset n) s =
      .next (s.act (fun h => h.triesReset n))) ∧
  (∀ (n : Nat) (s : State),
    n < 16 →
    exec (.startStall n) s =
      .next (s.act (fun h => h.startStall n))) ∧
  (∀ (n : Nat) (s : State),
    n < 16 → s.hub.isSlot n = false → s.hub.stageIs n sgOn = true →
    exec (.vsetTimeout n) s =
      .next (s.act (fun h => h.vsetTimeout n)))

/-- Completion of the commands of power-state entry and return, doorbells, parked completions and the SMBus port: each
answers a next state, its own effect followed by what settles at the end of every command, in every state where the
event that the command stands for can happen. -/
def Obligations.PowerStateAndSmbusCommandsComplete : Prop :=
  (∀ (hi lo : Nat) (rstn : Bool) (s : State),
    exec (.wake hi lo rstn) s =
      .next (s.act (fun h => h.wake hi lo rstn))) ∧
  (∀ (answers : Bool) (training : Option (Nat × Bool × Nat)) (dp : Nat) (s : State),
    exec (.returnStageReady answers training dp) s =
      .next (s.actAll (fun s =>
        let lost := !answers && s.hub.psIs psReturning && s.hub.get R.psStage == 3 && s.hub.ctl.fromEmber
        { s with hub := s.hub.returnStage (if lost then some training else none) dp
                 mem := if lost then s.mem.filter (fun c => isEp c.1) else s.mem }))) ∧
  (∀ (s : State),
    exec (.returnStageTimeout) s =
      .next (s.actAll (fun s =>
        { s with hub := s.hub.returnTimeout, mem := if s.hub.psIs psReturning then memEmber s.mem else s.mem }))) ∧
  (∀ (code : Nat) (wake : Bool) (s : State),
    exec (.handshakeAnswer code wake) s =
      .next (s.act (fun h => h.handshake code wake))) ∧
  (∀ (s : State),
    exec (.entryMaxTimeout) s =
      .next (s.act (fun h => h.entryMax))) ∧
  (∀ (s : State),
    exec (.entrySequence) s =
      .next (s.actAll (fun s =>
        let ember := match s.hub.ctl.entry with | some e => e.past.isSome && e.target != 2 | none => false
        { s with hub := s.hub.entrySequence, mem := if ember then memEmber s.mem else s.mem }))) ∧
  (∀ (m seq tag : Nat) (posted : Bool) (s : State),
    m < 8 →
    exec (.doorbell m seq tag posted) s =
      .next (s.act (fun h => h.directWord m ⟨tag, posted⟩ (0x7010800 + m * 0x1000) (seq % 65536)))) ∧
  (∀ (m : Nat) (ok : Bool) (s : State),
    exec (.parkedCompletion m ok) s =
      .next (s.act (fun h => h.actionEnd m ok))) ∧
  (∀ (v : Nat) (pecOk : Bool) (s : State),
    exec (.smbusSetPointer v pecOk) s =
      .next (s.act (fun h => h.smbPointer v pecOk))) ∧
  (∀ (data : List Byte) (pecOk : Bool) (s : State),
    exec (.smbusBlockWrite data pecOk) s =
      .next (s.act (fun h => h.smbWrite data pecOk))) ∧
  (∀ (s : State),
    exec (.smbusBlockRead) s =
      .next (s.act (fun h => h.smbRead))) ∧
  (∀ (s : State),
    exec (.smbusReadSummary) s =
      .next (s.act (fun h => h.smbSummary)))

/-- Completion of the commands of the instructions of the test port: each answers a next state, its own effect
followed by what settles at the end of every command, in every state where the event that the command stands for can
happen. -/
def Obligations.TestPortCommandsComplete : Prop :=
  (∀ (s : State),
    exec (.testLogicReset) s =
      .next (s.act (fun h => h.jtagLoad 0x01))) ∧
  (∀ (s : State),
    exec (.bypass) s =
      .next (s.act (fun h => h.jtagLoad 0xFF))) ∧
  (∀ (s : State),
    exec (.idcode) s =
      .next (s.act (fun h => (h.jtagLoad 0x01).emit (.words "JTAG_IDCODE" 0 [0x1512056B])))) ∧
  (∀ (cells : List Nat) (s : State),
    exec (.samplePreload cells) s =
      .next (s.act (fun h => (h.jtagLoad 0x02).modJtag (fun j => { j with cells := cells })))) ∧
  (∀ (cells : List Nat) (s : State),
    exec (.extest cells) s =
      .next (s.act (fun h => h.jtagPins 0x03 "JTAG_EXTEST" cells))) ∧
  (∀ (s : State),
    exec (.clamp) s =
      .next (s.act (fun h => h.jtagPins 0x04 "JTAG_CLAMP" h.ctl.jtag.cells))) ∧
  (∀ (s : State),
    exec (.highz) s =
      .next (s.act (fun h => h.jtagPins 0x05 "JTAG_HIGHZ" h.ctl.jtag.cells))) ∧
  (∀ (cells : List Nat) (s : State),
    exec (.extestPulse cells) s =
      .next (s.act (fun h => h.jtagPins 0x06 "JTAG_EXTEST_PULSE" cells))) ∧
  (∀ (cells : List Nat) (s : State),
    exec (.extestTrain cells) s =
      .next (s.act (fun h => h.jtagPins 0x06 "JTAG_EXTEST_TRAIN" cells))) ∧
  (∀ (on : Bool) (s : State),
    exec (.debugEn on) s =
      .next (s.act (fun h => (h.jtagLoad 0x10).when on (fun h => h.debugOn)))) ∧
  (∀ (wr : Bool) (addr w : Nat) (s : State),
    exec (.memacc wr addr w) s =
      .next (s.actAll (fun s =>
        ({ s with hub := s.hub.jtagLoad 0x11 } : State).memacc wr (addr % 2 ^ 40) (w % 2 ^ 32))))

/-- Completion of the SYS and GATE commands: whenever the firmware serves master `m`, the object that the command
names is in the hands of no waiting command, and every operand lies in the range of its argument block, the command
answers a next state, in which its own operation has been done and its answer left in the mailbox. Where the
operation's checks pass this is the command with its whole effect; where one fails it is the answer with that status.
-/
def Obligations.SysAndGateCommandsComplete : Prop :=
  (∀ (m : Nat) (s : State),
    s.hub.serves m 0x0101 = true →
    exec (.sysInfo m) s =
      .next (s.act (fun h => h.answered m 0x0101 (fun h => h.sysInfo m)))) ∧
  (∀ (m : Nat) (s : State),
    s.hub.serves m 0x0102 = true →
    exec (.sysClaimChallenge m) s =
      .next (s.act (fun h => h.answered m 0x0102 (fun h => h.claimChallenge m)))) ∧
  (∀ (m : Nat) (po : List Nat) (s : State),
    s.hub.serves m 0x0102 = true → words32 po = true →
    exec (.sysClaimProve m po) s =
      .next (s.act (fun h => h.answered m 0x0102 (fun h => h.claimProve m po)))) ∧
  (∀ (m : Nat) (s : State),
    s.hub.serves m 0x0102 = true →
    exec (.sysClaimRelease m) s =
      .next (s.act (fun h => h.answered m 0x0102 (fun h => h.claimRelease m)))) ∧
  (∀ (m : Nat) (deputy hold : Nat) (s : State),
    s.hub.serves m 0x0103 = true →
    exec (.sysDeputy m deputy hold) s =
      .next (s.act (fun h => h.answered m 0x0103 (fun h => h.setDeputy m deputy hold)))) ∧
  (∀ (m : Nat) (s : State),
    s.hub.serves m 0x0104 = true →
    exec (.sysResetWarm m) s =
      .next (s.act (fun h => h.answered m 0x0104 (fun h => h.askWarm m)))) ∧
  (∀ (m : Nat) (who : Nat) (s : State),
    s.hub.serves m 0x0104 = true →
    exec (.sysResetHost m who) s =
      .next (s.act (fun h => let r := (h.serving m).askHost m who
          r.2.completeWith m 0x0104 r.1 (m == who && r.1.status == stOk) (resetGens r.1)))) ∧
  (∀ (m : Nat) (code : Nat) (s : State),
    s.hub.serves m 0x0104 = true →
    exec (.sysResetPort m code) s =
      .next (s.act (fun h => h.answered m 0x0104 (fun h => h.askPort m code)))) ∧
  (∀ (m : Nat) (t w : Nat) (win : Option (Nat × Nat)) (s : State),
    s.hub.serves m 0x0201 = true → words32 (w :: (match win with | some (a, b) => [a, b] | none => [])) = true →
    exec (.gateSet m t w win) s =
      .next (s.act (fun h => h.answered m 0x0201 (fun h => h.gateSet m t w win)))) ∧
  (∀ (m : Nat) (t : Nat) (s : State),
    s.hub.serves m 0x0202 = true →
    exec (.gateGet m t) s =
      .next (s.act (fun h => h.answered m 0x0202 (fun h => h.gateGet m t))))

/-- Completion of the TUNNEL and PLAN commands: whenever the firmware serves master `m`, the object that the command
names is in the hands of no waiting command, and every operand lies in the range of its argument block, the command
answers a next state, in which its own operation has been done and its answer left in the mailbox. Where the
operation's checks pass this is the command with its whole effect; where one fails it is the answer with that status.
-/
def Obligations.TunnelAndPlanCommandsComplete : Prop :=
  (∀ (m : Nat) (t : Nat) (ws : List Nat) (s : State),
    s.hub.serves m 0x0301 = true → t < 4096 → ws.length = 8 → words32 ws = true →
    exec (.tunnelOpen m t ws) s =
      .next (s.act (fun h => h.answered m 0x0301 (fun h => h.tunnelOpen m t ws)))) ∧
  (∀ (m : Nat) (t gen : Nat) (abort force : Bool) (s : State),
    s.hub.serves m 0x0302 = true → t < 4096 → gen < 16 →
    exec (.tunnelClose m t gen abort force) s =
      .next (s.act (fun h => h.answered m 0x0302 (fun h => h.tunnelClose m t gen abort force)))) ∧
  (∀ (m : Nat) (t gen : Nat) (ws : List Nat) (s : State),
    s.hub.serves m 0x0303 = true → t < 4096 → gen < 16 → ws.length = 8 → words32 ws = true →
    exec (.tunnelModify m t gen ws) s =
      .next (s.act (fun h => h.answered m 0x0303 (fun h => h.tunnelModify m t gen ws)))) ∧
  (∀ (m : Nat) (t gen : Nat) (named clear : Bool) (s : State),
    s.hub.serves m 0x0304 = true → t < 4096 → gen < 16 →
    exec (.tunnelQuery m t gen named clear) s =
      .next (s.act (fun h => h.answered m 0x0304 (fun h => h.tunnelQuery m t gen named clear)))) ∧
  (∀ (m : Nat) (s : State),
    s.hub.serves m 0x0401 = true →
    exec (.planBegin m) s =
      .next (s.act (fun h => h.answered m 0x0401 (fun h => h.planBegin m)))) ∧
  (∀ (m : Nat) (pid : Nat) (recs : List (List Nat)) (s : State),
    s.hub.serves m 0x0402 = true → pid < 65536 → recs.all (fun r => r.length == 10 && words32 r) = true →
    exec (.planStage m pid recs) s =
      .next (s.act (fun h => h.answered m 0x0402 (fun h => h.planStage m pid recs)))) ∧
  (∀ (m : Nat) (pid : Nat) (s : State),
    s.hub.serves m 0x0403 = true → pid < 65536 →
    exec (.planCheck m pid) s =
      .next (s.act (fun h => h.answered m 0x0403 (fun h => h.planCheck m pid)))) ∧
  (∀ (m : Nat) (pid k : Nat) (s : State),
    s.hub.serves m 0x0404 = true → pid < 65536 → k < 2 ^ 48 →
    exec (.planArm m pid k) s =
      .next (s.act (fun h => h.answered m 0x0404 (fun h => h.planArm m pid k)))) ∧
  (∀ (m : Nat) (pid : Nat) (s : State),
    s.hub.serves m 0x0405 = true → pid < 65536 →
    exec (.planAbort m pid) s =
      .next (s.act (fun h => h.answered m 0x0405 (fun h => h.planAbort m pid)))) ∧
  (∀ (m : Nat) (shares : Bool) (who : Nat) (s : State),
    s.hub.serves m 0x0406 = true → who < 16 →
    exec (.planStatus m shares who) s =
      .next (s.act (fun h => h.answered m 0x0406 (fun h => h.planStatus m shares who))))

/-- Completion of the PORT, TICK and TIME commands: whenever the firmware serves master `m`, the object that the
command names is in the hands of no waiting command, and every operand lies in the range of its argument block, the
command answers a next state, in which its own operation has been done and its answer left in the mailbox. Where the
operation's checks pass this is the command with its whole effect; where one fails it is the answer with that status.
-/
def Obligations.PortTickAndTimeSyncCommandsComplete : Prop :=
  (∀ (m : Nat) (code : Nat) (ws : List Nat) (s : State),
    s.hub.serves m 0x0501 = true → words32 ws = true →
    exec (.portTrainConfig m code ws) s =
      .next (s.act (fun h => h.answered m 0x0501 (fun h => h.portConfigure m code ws)))) ∧
  (∀ (m : Nat) (code : Nat) (ws : List Nat) (s : State),
    s.hub.serves m 0x0501 = true → words32 ws = true →
    exec (.portTrainTrain m code ws) s =
      .next (s.act (fun h => h.answered m 0x0501 (fun h => h.portTrain m code ws)))) ∧
  (∀ (m : Nat) (code : Nat) (s : State),
    s.hub.serves m 0x0501 = true →
    exec (.portTrainDisable m code) s =
      .next (s.act (fun h => h.answered m 0x0501 (fun h => h.portDisableLink m code)))) ∧
  (∀ (m : Nat) (code : Nat) (s : State),
    s.hub.serves m 0x0501 = true →
    exec (.portTrainReturn m code) s =
      .next (s.act (fun h => h.answered m 0x0501 (fun h => h.portReturn m code)))) ∧
  (∀ (m : Nat) (code : Nat) (clr : Bool) (first cnt : Nat) (s : State),
    s.hub.serves m 0x0502 = true →
    exec (.portState m code clr first cnt) s =
      .next (s.act (fun h => h.answered m 0x0502 (fun h => h.portState m code clr first cnt)))) ∧
  (∀ (m : Nat) (code lane : Nat) (s : State),
    s.hub.serves m 0x0503 = true → (s.hub.serving m).objectBusy (.spare code lane) = false →
    exec (.portSpareRestore m code lane) s =
      .next (s.act (fun h => h.answeredOrParked m 0x0503 (.spare code lane) (fun h => h.spareRestore m code lane)))) ∧
  (∀ (m : Nat) (code lane : Nat) (s : State),
    s.hub.serves m 0x0503 = true → (s.hub.serving m).objectBusy (.spare code lane) = false →
    exec (.portSpareRetire m code lane) s =
      .next (s.act (fun h => h.answered m 0x0503 (fun h => h.spareRetire m code lane)))) ∧
  (∀ (m : Nat) (l : List (List Nat)) (s : State),
    s.hub.serves m 0x0504 = true → l.all words32 = true →
    exec (.portRoute m l) s =
      .next (s.act (fun h => h.answered m 0x0504 (fun h => h.portRoute m l)))) ∧
  (∀ (m : Nat) (code k : Nat) (s : State),
    s.hub.serves m 0x0601 = true →
    exec (.tickSet m code k) s =
      .next (s.act (fun h => h.answered m 0x0601 (fun h => h.tickSet m code k)))) ∧
  (∀ (m : Nat) (mode ref : Nat) (s : State),
    s.hub.serves m 0x0701 = true → mode < 2 → ref < 4 →
    exec (.timeSync m mode ref) s =
      .next (s.act (fun h => h.answered m 0x0701 (fun h => h.timeSync m mode ref none)))) ∧
  (∀ (m : Nat) (mode ref : Nat) (step : Int) (s : State),
    s.hub.serves m 0x0701 = true → mode < 2 → ref < 4 → step < 2 ^ 63 → -(2 ^ 63) ≤ step →
    exec (.timeSyncStep m mode ref step) s =
      .next (s.act (fun h => h.answered m 0x0701 (fun h => h.timeSync m mode ref (some step)))))

/-- Completion of the PWR commands: whenever the firmware serves master `m`, the object that the command names is in
the hands of no waiting command, and every operand lies in the range of its argument block, the command answers a next
state, in which its own operation has been done and its answer left in the mailbox. Where the operation's checks pass
this is the command with its whole effect; where one fails it is the answer with that status. -/
def Obligations.PwrCommandsComplete : Prop :=
  (∀ (m : Nat) (f : Nat) (ws : List Nat) (s : State),
    s.hub.serves m 0x0801 = true → f < 2 → words32 ws = true →
    exec (.pwrFeedConfig m f ws) s =
      .next (s.act (fun h => h.answered m 0x0801 (fun h => h.feedConfig m f ws)))) ∧
  (∀ (m : Nat) (w0 w1 : Nat) (s : State),
    s.hub.serves m 0x0801 = true → words32 [w0, w1] = true →
    exec (.pwrFeedSelect m w0 w1) s =
      .next (s.act (fun h => h.answered m 0x0801 (fun h => h.feedSelect m w0 w1)))) ∧
  (∀ (m : Nat) (f : Nat) (s : State),
    s.hub.serves m 0x0801 = true → f < 2 →
    exec (.pwrFeedQuery m f) s =
      .next (s.act (fun h => h.answered m 0x0801 (fun h => h.feedQuery f)))) ∧
  (∀ (m : Nat) (n : Nat) (ws : List Nat) (s : State),
    s.hub.serves m 0x0802 = true → n < 16 → words32 ws = true →
    exec (.pwrPortConfig m n ws) s =
      .next (s.act (fun h => h.answered m 0x0802 (fun h => h.portConfig m n ws)))) ∧
  (∀ (m : Nat) (n : Nat) (s : State),
    s.hub.serves m 0x0802 = true → n < 16 →
    exec (.pwrPortQuery m n) s =
      .next (s.act (fun h => h.answered m 0x0802 (fun h => h.portQuery m n)))) ∧
  (∀ (m : Nat) (n : Nat) (s : State),
    s.hub.serves m 0x0802 = true → n < 16 →
    exec (.pwrPortRestart m n) s =
      .next (s.act (fun h => h.answered m 0x0802 (fun h => h.portRestart m n)))) ∧
  (∀ (m : Nat) (n : Nat) (s : State),
    s.hub.serves m 0x0802 = true → n < 16 →
    exec (.pwrPortOff m n) s =
      .next (s.act (fun h => h.answered m 0x0802 (fun h => h.portOff m n)))) ∧
  (∀ (m : Nat) (n v : Nat) (s : State),
    s.hub.serves m 0x0802 = true → n < 16 →
    exec (.pwrPortVset m n v) s =
      .next (s.act (fun h => h.answered m 0x0802 (fun h => h.portVset m n v)))) ∧
  (∀ (m : Nat) (p : Nat) (ws : List Nat) (s : State),
    s.hub.serves m 0x0803 = true → words32 ws = true →
    exec (.pwrCurve m p ws) s =
      .next (s.act (fun h => h.answered m 0x0803 (fun h => h.pwrCurve m p ws)))) ∧
  (∀ (m : Nat) (w : Nat) (s : State),
    s.hub.serves m 0x0804 = true → words32 [w] = true →
    exec (.pwrBudget m w) s =
      .next (s.act (fun h => h.answered m 0x0804 (fun h => h.pwrBudget m w))))

/-- Completion of the PD commands: whenever the firmware serves master `m`, the object that the command names is in
the hands of no waiting command, and every operand lies in the range of its argument block, the command answers a next
state, in which its own operation has been done and its answer left in the mailbox. Where the operation's checks pass
this is the command with its whole effect; where one fails it is the answer with that status. -/
def Obligations.PdMailboxCommandsComplete : Prop :=
  (∀ (m : Nat) (n : Nat) (ws : List Nat) (s : State),
    s.hub.serves m 0x0901 = true → (s.hub.serving m).objectBusy (.pd n) = false → n < 16 → words32 ws = true →
    exec (.pdTx m n ws) s =
      .next (s.act (fun h => h.answeredOrParked m 0x0901 (.pd n) (fun h => h.pdTx m n ws)))) ∧
  (∀ (m : Nat) (n : Nat) (state : Bool) (max : Nat) (clr : Bool) (s : State),
    s.hub.serves m 0x0902 = true → (s.hub.serving m).objectBusy (.pd n) = false → n < 16 →
    exec (.pdRx m n state max clr) s =
      .next (s.act (fun h => h.answered m 0x0902 (fun h => h.pdRx m n state max clr)))) ∧
  (∀ (m : Nat) (n w : Nat) (s : State),
    s.hub.serves m 0x0903 = true → (s.hub.serving m).objectBusy (.pd n) = false → n < 16 → words32 [w] = true →
    exec (.pdTimerSet m n w) s =
      .next (s.act (fun h => h.answered m 0x0903 (fun h => h.timerSet m n w)))) ∧
  (∀ (m : Nat) (n t ms : Nat) (s : State),
    s.hub.serves m 0x0903 = true → (s.hub.serving m).objectBusy (.pd n) = false → n < 16 →
    exec (.pdTimerStart m n t ms) s =
      .next (s.act (fun h => h.answered m 0x0903 (fun h => h.timerStart m n t ms)))) ∧
  (∀ (m : Nat) (n t : Nat) (s : State),
    s.hub.serves m 0x0903 = true → (s.hub.serving m).objectBusy (.pd n) = false → n < 16 →
    exec (.pdTimerCancel m n t) s =
      .next (s.act (fun h => h.answered m 0x0903 (fun h => h.timerCancel m n t)))) ∧
  (∀ (m : Nat) (n : Nat) (s : State),
    s.hub.serves m 0x0904 = true → (s.hub.serving m).objectBusy (.pd n) = false → n < 16 →
    exec (.pdRoleClaim m n) s =
      .next (s.act (fun h => h.answered m 0x0904 (fun h => h.roleClaim m n)))) ∧
  (∀ (m : Nat) (n : Nat) (s : State),
    s.hub.serves m 0x0904 = true → (s.hub.serving m).objectBusy (.pd n) = false → n < 16 →
    exec (.pdRoleRelease m n) s =
      .next (s.act (fun h => h.answered m 0x0904 (fun h => h.roleRelease m n)))) ∧
  (∀ (m : Nat) (n v : Nat) (s : State),
    s.hub.serves m 0x0904 = true → (s.hub.serving m).objectBusy (.pd n) = false → n < 16 →
    exec (.pdRoleRp m n v) s =
      .next (s.act (fun h => h.answered m 0x0904 (fun h => h.roleRp m n v)))) ∧
  (∀ (m : Nat) (n v : Nat) (s : State),
    s.hub.serves m 0x0904 = true → (s.hub.serving m).objectBusy (.pd n) = false → n < 16 →
    exec (.pdRoleDrole m n v) s =
      .next (s.act (fun h => h.answered m 0x0904 (fun h => h.roleDrole m n v)))) ∧
  (∀ (m : Nat) (n : Nat) (s : State),
    s.hub.serves m 0x0904 = true → (s.hub.serving m).objectBusy (.pd n) = false → n < 16 →
    exec (.pdRoleVconnOn m n) s =
      .next (s.act (fun h => h.answered m 0x0904 (fun h => h.roleVconn m n true)))) ∧
  (∀ (m : Nat) (n : Nat) (s : State),
    s.hub.serves m 0x0904 = true → (s.hub.serving m).objectBusy (.pd n) = false → n < 16 →
    exec (.pdRoleVconnOff m n) s =
      .next (s.act (fun h => h.answered m 0x0904 (fun h => h.roleVconn m n false)))) ∧
  (∀ (m : Nat) (n : Nat) (s : State),
    s.hub.serves m 0x0904 = true → (s.hub.serving m).objectBusy (.pd n) = false → n < 16 →
    exec (.pdRoleSwapToSink m n) s =
      .next (s.act (fun h => h.answered m 0x0904 (fun h => h.roleToSink m n)))) ∧
  (∀ (m : Nat) (n : Nat) (s : State),
    s.hub.serves m 0x0904 = true → (s.hub.serving m).objectBusy (.pd n) = false → n < 16 →
    exec (.pdRoleSwapToSource m n) s =
      .next (s.act (fun h => h.answered m 0x0904 (fun h => h.roleToSource m n)))) ∧
  (∀ (m : Nat) (n v : Nat) (s : State),
    s.hub.serves m 0x0904 = true → (s.hub.serving m).objectBusy (.pd n) = false → n < 16 →
    exec (.pdRoleFrsArm m n v) s =
      .next (s.act (fun h => h.answered m 0x0904 (fun h => h.roleFrsArm m n v)))) ∧
  (∀ (m : Nat) (n v : Nat) (s : State),
    s.hub.serves m 0x0904 = true → (s.hub.serving m).objectBusy (.pd n) = false → n < 16 →
    exec (.pdRoleEpr m n v) s =
      .next (s.act (fun h => h.answered m 0x0904 (fun h => h.roleEpr m n v)))) ∧
  (∀ (m : Nat) (n : Nat) (s : State),
    s.hub.serves m 0x0904 = true → (s.hub.serving m).objectBusy (.pd n) = false → n < 16 →
    exec (.pdRoleErrorRecovery m n) s =
      .next (s.act (fun h => h.answered m 0x0904 (fun h => h.roleRecover m n)))) ∧
  (∀ (m : Nat) (n v : Nat) (s : State),
    s.hub.serves m 0x0904 = true → (s.hub.serving m).objectBusy (.pd n) = false → n < 16 →
    exec (.pdRoleVconnIlim m n v) s =
      .next (s.act (fun h => h.answered m 0x0904 (fun h => h.roleIlim m n v))))

/-- Completion of the RASTER and DMA commands: whenever the firmware serves master `m`, the object that the command
names is in the hands of no waiting command, and every operand lies in the range of its argument block, the command
answers a next state, in which its own operation has been done and its answer left in the mailbox. Where the
operation's checks pass this is the command with its whole effect; where one fails it is the answer with that status.
-/
def Obligations.RasterAndDmaMailboxCommandsComplete : Prop :=
  (∀ (m : Nat) (n : Nat) (ws : List Nat) (dp : Option (Nat × Nat)) (s : State),
    s.hub.serves m 0x0A01 = true → (s.hub.serving m).objectBusy (rasterWait n ws dp) = false → n < 8 → words32 ws = true → (match dp with | some (d, w) => decide (d < 2) && words32 [w] | none => true) = true →
    exec (.rasterSetup m n ws dp) s =
      .next (s.act (fun h => h.answeredOrParked m 0x0A01 (rasterWait n ws dp) (fun h => h.rasterSetup m n ws dp)))) ∧
  (∀ (m : Nat) (n d : Nat) (s : State),
    s.hub.serves m 0x0A01 = true → (s.hub.serving m).objectBusy (.raster n 0 0 []) = false → n < 8 → d < 2 →
    exec (.rasterSetupQuery m n d) s =
      .next (s.act (fun h => h.answered m 0x0A01 (fun h => h.rasterQuery m n d)))) ∧
  (∀ (m : Nat) (n : Nat) (en : Bool) (action : Nat) (s : State),
    s.hub.serves m 0x0A02 = true → (s.hub.serving m).objectBusy (.raster n 0 0 []) = false → n < 8 →
    exec (.rasterWitnessSet m n en action) s =
      .next (s.act (fun h => h.answered m 0x0A02 (fun h => h.witnessSet m n en action)))) ∧
  (∀ (m : Nat) (n : Nat) (s : State),
    s.hub.serves m 0x0A02 = true → (s.hub.serving m).objectBusy (.raster n 0 0 []) = false → n < 8 →
    exec (.rasterWitnessResume m n) s =
      .next (s.act (fun h => h.answered m 0x0A02 (fun h => h.witnessResume m n)))) ∧
  (∀ (m : Nat) (n : Nat) (s : State),
    s.hub.serves m 0x0A02 = true → (s.hub.serving m).objectBusy (.raster n 0 0 []) = false → n < 8 →
    exec (.rasterWitnessQuery m n) s =
      .next (s.act (fun h => h.answered m 0x0A02 (fun h => h.witnessQuery m n)))) ∧
  (∀ (m : Nat) (c burst : Nat) (prio note : Bool) (addr len : Nat) (s : State),
    s.hub.serves m 0x0B01 = true → c < 64 → burst < 8 → addr < 2 ^ 40 →
    exec (.dmaLoad m c burst prio note addr len) s =
      .next (s.actAll (fun t => t.answeredAll m 0x0B01 (fun s => s.dmaLoad m c burst prio note addr len)))) ∧
  (∀ (m : Nat) (c : Nat) (s : State),
    s.hub.serves m 0x0B02 = true → c < 64 →
    exec (.dmaStart m c) s =
      .next (s.act (fun h => h.answered m 0x0B02 (fun h => h.dmaStartCmd m c)))) ∧
  (∀ (m : Nat) (c : Nat) (force : Bool) (s : State),
    s.hub.serves m 0x0B03 = true → c < 64 →
    exec (.dmaStop m c force) s =
      .next (s.act (fun h => h.answered m 0x0B03 (fun h => h.dmaStopCmd m c force)))) ∧
  (∀ (m : Nat) (c : Nat) (s : State),
    s.hub.serves m 0x0B03 = true → c < 64 →
    exec (.dmaStopQuery m c) s =
      .next (s.act (fun h => h.answered m 0x0B03 (fun h => h.dmaQuery m c))))

/-- Completion of the USB and FAULT commands: whenever the firmware serves master `m`, the object that the command
names is in the hands of no waiting command, and every operand lies in the range of its argument block, the command
answers a next state, in which its own operation has been done and its answer left in the mailbox. Where the
operation's checks pass this is the command with its whole effect; where one fails it is the answer with that status.
-/
def Obligations.UsbAndFaultMailboxCommandsComplete : Prop :=
  (∀ (m : Nat) (l : List (Nat × Nat)) (s : State),
    s.hub.serves m 0x0C01 = true → words32 (l.map (fun p => p.2)) = true →
    exec (.usbCarve m l) s =
      .next (s.act (fun h => h.answered m 0x0C01 (fun h => h.usbCarve m l)))) ∧
  (∀ (m : Nat) (t lo hi : Nat) (s : State),
    s.hub.serves m 0x0C02 = true →
    exec (.usbFuncItems m t lo hi) s =
      .next (s.act (fun h => h.answered m 0x0C02 (fun h => h.usbItems m t lo hi)))) ∧
  (∀ (m : Nat) (t v : Nat) (s : State),
    s.hub.serves m 0x0C02 = true →
    exec (.usbFuncVerbosity m t v) s =
      .next (s.act (fun h => h.answered m 0x0C02 (fun h => h.usbVerbosity m t v)))) ∧
  (∀ (m : Nat) (t : Nat) (s : State),
    s.hub.serves m 0x0C02 = true →
    exec (.usbFuncQuery m t) s =
      .next (s.act (fun h => h.answered m 0x0C02 (fun h => h.usbQuery m t)))) ∧
  (∀ (m : Nat) (s : State),
    s.hub.serves m 0x0C03 = true →
    exec (.usbConnectChallenge m) s =
      .next (s.act (fun h => h.answered m 0x0C03 (fun h => h.connectChallenge m)))) ∧
  (∀ (m : Nat) (dur : Nat) (ps : List Nat) (s : State),
    s.hub.serves m 0x0C03 = true → words32 ps = true →
    exec (.usbConnectProve m dur ps) s =
      .next (s.act (fun h => h.answered m 0x0C03 (fun h => h.connectProve m dur ps)))) ∧
  (∀ (m : Nat) (s : State),
    s.hub.serves m 0x0C03 = true →
    exec (.usbConnectDisconnect m) s =
      .next (s.act (fun h => h.answered m 0x0C03 (fun h => h.connectEnd m)))) ∧
  (∀ (m : Nat) (what sel first count : Nat) (s : State),
    s.hub.serves m 0x0D01 = true →
    exec (.faultRead m what sel first count) s =
      .next (s.act (fun h => h.answered m 0x0D01 (fun h => h.faultRead m what sel first count)))) ∧
  (∀ (m : Nat) (pin : Option Nat) (l : List (Nat × Nat)) (s : State),
    s.hub.serves m 0x0D02 = true → words32 (pin.getD 0 :: l.map (fun p => p.2)) = true →
    exec (.faultConfig m pin l) s =
      .next (s.act (fun h => h.answered m 0x0D02 (fun h => h.faultConfig m pin l)))) ∧
  (∀ (m : Nat) (i d : Nat) (s : State),
    s.hub.serves m 0x0D03 = true → d < 65536 →
    exec (.faultForceSet m i d) s =
      .next (s.act (fun h => h.answered m 0x0D03 (fun h => h.forceSet m i d)))) ∧
  (∀ (m : Nat) (i : Nat) (s : State),
    s.hub.serves m 0x0D03 = true →
    exec (.faultForceClear m i) s =
      .next (s.act (fun h => h.answered m 0x0D03 (fun h => h.forceClear m i)))) ∧
  (∀ (m : Nat) (i d : Nat) (s : State),
    s.hub.serves m 0x0D03 = true → d < 65536 →
    exec (.faultForcePulse m i d) s =
      .next (s.act (fun h => h.answered m 0x0D03 (fun h => h.forcePulse m i d)))) ∧
  (∀ (m : Nat) (log : Option Nat) (release resetCnt : Bool) (masks : List Nat) (s : State),
    s.hub.serves m 0x0D04 = true → words32 masks = true →
    exec (.faultClear m log release resetCnt masks) s =
      .next (s.act (fun h => h.answered m 0x0D04 (fun h => h.faultClear m log release resetCnt masks))))

/-- Completion of the KEY, STATE and TEST commands: whenever the firmware serves master `m`, the object that the
command names is in the hands of no waiting command, and every operand lies in the range of its argument block, the
command answers a next state, in which its own operation has been done and its answer left in the mailbox. Where the
operation's checks pass this is the command with its whole effect; where one fails it is the answer with that status.
-/
def Obligations.KeyStateAndTestMailboxCommandsComplete : Prop :=
  (∀ (m : Nat) (parent purpose inst kint ver : Nat) (s : State),
    s.hub.serves m 0x0E01 = true → words32 [ver] = true →
    exec (.keyDerive m parent purpose inst kint ver) s =
      .next (s.act (fun h => h.answered m 0x0E01 (fun h => h.keyDerive m parent purpose inst kint ver)))) ∧
  (∀ (m : Nat) (d : Nat) (s : State),
    s.hub.serves m 0x0E01 = true → (s.hub.serving m).objectBusy (.advance d) = false →
    exec (.keyDeriveAdvance m d) s =
      .next (s.act (fun h => h.answeredOrParked m 0x0E01 (.advance d) (fun h => h.keyAdvance m d)))) ∧
  (∀ (m : Nat) (k : Nat) (s : State),
    s.hub.serves m 0x0E02 = true →
    exec (.keyRevoke m k) s =
      .next (s.act (fun h => h.answered m 0x0E02 (fun h => h.keyRevoke m k)))) ∧
  (∀ (m : Nat) (k : Nat) (n : List Nat) (s : State),
    s.hub.serves m 0x0E03 = true → words32 n = true →
    exec (.keyCheck m k n) s =
      .next (s.act (fun h => h.answered m 0x0E03 (fun h => h.keyCheck m k n)))) ∧
  (∀ (m : Nat) (addr len : Nat) (s : State),
    s.hub.serves m 0x0E03 = true → addr < 2 ^ 40 →
    exec (.keyCheckPatch m addr len) s =
      .next (s.actAll (fun t => t.answeredPatch m 0x0E03 (fun s => s.patchStart m addr len)))) ∧
  (∀ (m : Nat) (target : Nat) (force : Bool) (s : State),
    s.hub.serves m 0x0F01 = true → (s.hub.serving m).objectBusy .enter = false → target < 4 →
    exec (.stateEnter m target force) s =
      .next (s.act (fun h => h.answeredOrParked m 0x0F01 .enter (fun h => h.stateEnter m target force)))) ∧
  (∀ (m : Nat) (w1 w2 : Nat) (s : State),
    s.hub.serves m 0x0F01 = true → words32 [w1, w2] = true →
    exec (.stateEnterConfig m w1 w2) s =
      .next (s.act (fun h => h.answered m 0x0F01 (fun h => h.stateConfig m w1 w2)))) ∧
  (∀ (m : Nat) (s : State),
    s.hub.serves m 0x0F01 = true →
    exec (.stateEnterQuery m) s =
      .next (s.act (fun h => h.answered m 0x0F01 (fun h => h.stateQuery)))) ∧
  (∀ (m : Nat) (pin region signal : Nat) (en : Bool) (s : State),
    s.hub.serves m 0x1001 = true →
    exec (.testObsSet m pin region signal en) s =
      .next (s.act (fun h => h.answered m 0x1001 (fun h => h.obsSet m pin region signal en)))) ∧
  (∀ (m : Nat) (s : State),
    s.hub.serves m 0x1001 = true →
    exec (.testObsQuery m) s =
      .next (s.act (fun h => h.answered m 0x1001 (fun h => h.obsQuery m))))
end

