-- ==== Sys2Proof/Laws/Memory.lean ====
section
/-!
SUPPORT. Laws of memory: every operation that changes it keeps its canonical form (addresses strictly rising, no byte 0
listed).
-/

namespace Sys2Proof.Machine

open Sys2Proof

/-- A canonical list is canonical from any lower bound. -/
theorem Memory.wfFrom_mono (m : Memory) {lo lo' : Nat} (hl : lo' ≤ lo) (h : Memory.wfFrom lo m = true) :
    Memory.wfFrom lo' m = true := by
  cases m with
  | nil => rfl
  | cons p t =>
    simp only [Memory.wfFrom, Bool.and_eq_true, decide_eq_true_eq] at h ⊢
    exact ⟨⟨Nat.le_trans hl h.1.1, h.1.2⟩, h.2⟩

theorem memSet_wfFrom (m : Memory) (lo a : Nat) (b : Byte) (ha : lo ≤ a) (h : Memory.wfFrom lo m = true) :
    Memory.wfFrom lo (memSet m a b) = true := by
  induction m generalizing lo with
  | nil =>
    unfold memSet
    split
    · rfl
    · next hb =>
      simp only [Memory.wfFrom, Bool.and_eq_true, decide_eq_true_eq]
      exact ⟨⟨ha, hb⟩, trivial⟩
  | cons p t ih =>
    obtain ⟨k, v⟩ := p
    have h' := h
    simp only [Memory.wfFrom, Bool.and_eq_true, decide_eq_true_eq] at h'
    obtain ⟨⟨hk, hv⟩, ht⟩ := h'
    unfold memSet
    split
    · next hlt =>
      split
      · exact h
      · next hb =>
        simp only [Memory.wfFrom, Bool.and_eq_true, decide_eq_true_eq]
        exact ⟨⟨ha, hb⟩, ⟨hlt, hv⟩, ht⟩
    · next hge =>
      split
      · next heq =>
        split
        · exact Memory.wfFrom_mono t (by omega) ht
        · next hb =>
          simp only [Memory.wfFrom, Bool.and_eq_true, decide_eq_true_eq]
          exact ⟨⟨ha, hb⟩, heq ▸ ht⟩
      · next hne =>
        simp only [Memory.wfFrom, Bool.and_eq_true, decide_eq_true_eq]
        exact ⟨⟨hk, hv⟩, ih (k + 1) (by omega) ht⟩

/-- Writing one byte keeps the form. -/
theorem memSet_wf (m : Memory) (a : Nat) (b : Byte) (h : Memory.wf m = true) : Memory.wf (memSet m a b) = true :=
  memSet_wfFrom m 0 a b (Nat.zero_le _) h

/-- Writing a run of bytes keeps the form. -/
theorem memWrite_wf (l : List Byte) (m : Memory) (a : Nat) (h : Memory.wf m = true) : Memory.wf (memWrite m a l) = true := by
  induction l generalizing m a with
  | nil => exact h
  | cons b l ih => exact ih (memSet m a b) (a + 1) (memSet_wf m a b h)

theorem filter_wfFrom (q : Host.Cell → Bool) (m : Memory) (lo : Nat) (h : Memory.wfFrom lo m = true) :
    Memory.wfFrom lo (m.filter q) = true := by
  induction m generalizing lo with
  | nil => exact h
  | cons p t ih =>
    obtain ⟨k, v⟩ := p
    have h' := h
    simp only [Memory.wfFrom, Bool.and_eq_true, decide_eq_true_eq] at h'
    rw [List.filter_cons]
    split
    · simp only [Memory.wfFrom, Bool.and_eq_true, decide_eq_true_eq]
      exact ⟨h'.1, ih (k + 1) h'.2⟩
    · exact ih lo (Memory.wfFrom_mono t (by omega) h'.2)

/-- Losing the bytes of a device keeps the form. -/
theorem filter_wf (q : Host.Cell → Bool) (m : Memory) (h : Memory.wf m = true) : Memory.wf (m.filter q) = true :=
  filter_wfFrom q m 0 h

/-- Ember keeps the form. -/
theorem memEmber_wf (m : Memory) (h : Memory.wf m = true) : Memory.wf (memEmber m) = true := filter_wf _ m h

/-! The controller's service. -/

/-- Serving one access keeps the form. -/
theorem State.lp5Serve1_memSound (s : State) (a : Lp5Acc) (h : s.memSound) : (s.lp5Serve1 a).memSound := by
  unfold State.memSound State.lp5Serve1 at *
  dsimp only
  split
  · exact memWrite_wf _ _ _ h
  · exact h

theorem foldl_lp5Serve1_memSound (l : List Lp5Acc) (s : State) (h : s.memSound) :
    (l.foldl State.lp5Serve1 s).memSound := by
  induction l generalizing s with
  | nil => exact h
  | cons a l ih => exact ih _ (State.lp5Serve1_memSound s a h)

/-- Serving the queue keeps the form. -/
theorem State.lp5Serve_memSound (s : State) (h : s.memSound) : s.lp5Serve.memSound := by
  unfold State.lp5Serve
  dsimp only
  split
  · exact h
  · exact foldl_lp5Serve1_memSound _ _ h

/-- The hub is no part of memory. -/
theorem State.memSound_setHub (s : State) (x : Hub) : ({ s with hub := x } : State).memSound ↔ s.memSound := Iff.rfl

/-- A command that acts on the hub alone keeps the form. -/
theorem State.act_memSound (s : State) (f : Hub → Hub) (h : s.memSound) : (s.act f).memSound := by
  unfold State.act
  exact State.lp5Serve_memSound _ ((State.memSound_setHub s _).mpr h)

/-- A command that acts on hub and memory keeps the form where its own effect does. -/
theorem State.actAll_memSound (s : State) (f : State → State) (h : (f s).memSound) : (s.actAll f).memSound := by
  unfold State.actAll
  exact State.lp5Serve_memSound _ ((State.memSound_setHub (f s) _).mpr h)

end Sys2Proof.Machine
end

