-- ==== Sys2Proof/Laws/Regs.lean ====
section
/-!
SUPPORT. Laws of the sparse tables and of the register fields: a table gives back what was entered and keeps the rest,
so a field reads as it was last written and a write leaves every other field alone (R4).
-/

namespace Sys2Proof.Machine

open Sys2Proof

/-! Tables. -/

theorem tabFind_tabPut {α : Type} (t : Tab α) (k k' : Key) (v : α) :
    tabFind (tabPut t k v) k' = if k = k' then some v else tabFind t k' := by
  induction t with
  | nil => simp [tabPut, tabFind]
  | cons p t ih =>
    obtain ⟨a, w⟩ := p
    unfold tabPut
    split
    · next h => subst h; simp only [tabFind]; split <;> rfl
    · next h =>
      split
      · simp only [tabFind]
      · simp only [tabFind, ih]
        by_cases h1 : a = k'
        · subst h1; simp [Ne.symm h]
        · simp [h1]

theorem tabFind_tabErase {α : Type} (t : Tab α) (k k' : Key) :
    tabFind (tabErase t k) k' = if k = k' then none else tabFind t k' := by
  induction t with
  | nil => simp [tabErase, tabFind]
  | cons p t ih =>
    obtain ⟨a, w⟩ := p
    unfold tabErase
    split
    · next h => subst h; rw [ih]; by_cases h1 : a = k' <;> simp [tabFind, h1]
    · next h =>
      simp only [tabFind, ih]
      by_cases h1 : a = k'
      · subst h1; simp [Ne.symm h]
      · simp [h1]

theorem tabGet_tabSet {α : Type} [DecidableEq α] (t : Tab α) (k k' : Key) (v d : α) :
    tabGet (tabSet t k v d) k' d = if k = k' then v else tabGet t k' d := by
  unfold tabGet tabSet
  split
  · next h => rw [tabFind_tabErase]; split <;> simp [h]
  · rw [tabFind_tabPut]; split <;> simp

/-- At another key a table keeps what it holds, whatever the default is. -/
theorem tabGet_tabSet_ne {α : Type} [DecidableEq α] (t : Tab α) (k k' : Key) (v d d' : α) (h : k ≠ k') :
    tabGet (tabSet t k v d) k' d' = tabGet t k' d' := by
  unfold tabGet tabSet
  split
  · rw [tabFind_tabErase, if_neg h]
  · rw [tabFind_tabPut, if_neg h]

/-! Register fields. -/

/-- A field reads as it was written, cut to its width. -/
@[simp] theorem Hub.get_set (h : Hub) (f : Fld) (v : Nat) : (h.set f v).get f = v % 2 ^ f.width := by
  simp [Hub.get, Hub.set, tabGet_tabSet]

/-- A write leaves every field of another key alone. -/
theorem Hub.get_set_ne (h : Hub) (f g : Fld) (v : Nat) (hk : f.key ≠ g.key) : (h.set f v).get g = h.get g := by
  simp [Hub.get, Hub.set, tabGet_tabSet_ne _ _ _ _ _ _ hk]

/-- A field given back to reset reads its reset value. -/
theorem Hub.get_toReset (h : Hub) (f : Fld) : (h.toReset f).get f = f.reset % 2 ^ f.width := by
  simp [Hub.get, Hub.toReset, tabGet, tabFind_tabErase]

theorem Hub.get_toReset_ne (h : Hub) (f g : Fld) (hk : f.key ≠ g.key) : (h.toReset f).get g = h.get g := by
  simp [Hub.get, Hub.toReset, tabGet, tabFind_tabErase, hk]

/-- Fields whose keys a list of writes does not name keep their values. -/
theorem Hub.get_setAll_ne (l : List (Fld × Nat)) (h : Hub) (g : Fld) (hk : ∀ p ∈ l, p.1.key ≠ g.key) :
    (h.setAll l).get g = h.get g := by
  induction l generalizing h with
  | nil => rfl
  | cons p l ih =>
    have h1 := ih (h.set p.1 p.2) (fun q hq => hk q (List.mem_cons_of_mem _ hq))
    have h2 := Hub.get_set_ne h p.1 g p.2 (hk p (List.mem_cons_self ..))
    exact h1.trans h2

theorem Hub.get_lt (h : Hub) (f : Fld) : h.get f < 2 ^ f.width := Nat.mod_lt _ (Nat.two_pow_pos _)

/-- A write to a register field changes nothing else of the hub. -/
theorem Hub.set_frame (h : Hub) (f : Fld) (v : Nat) : { h.set f v with regs := h.regs } = h := rfl

end Sys2Proof.Machine
end

