-- ==== Sys2Proof/Laws/Parts.lean ====
section
/-!
SUPPORT. The updates of the hub's parts: each leaves every other part alone, one lemma for each, and an entry reads as it was
entered while the other entries of its table stay.
-/

namespace Sys2Proof.Machine

open Sys2Proof

/-! set. -/

@[simp] theorem Hub.col_set (h : Hub) (f : Fld) (v : Nat) : (h.set f v).col = h.col := rfl
@[simp] theorem Hub.tick_set (h : Hub) (f : Fld) (v : Nat) : (h.set f v).tick = h.tick := rfl
@[simp] theorem Hub.grade_set (h : Hub) (f : Fld) (v : Nat) : (h.set f v).grade = h.grade := rfl
@[simp] theorem Hub.tun_set (h : Hub) (f : Fld) (v : Nat) : (h.set f v).tun = h.tun := rfl
@[simp] theorem Hub.links_set (h : Hub) (f : Fld) (v : Nat) : (h.set f v).links = h.links := rfl
@[simp] theorem Hub.hearth_set (h : Hub) (f : Fld) (v : Nat) : (h.set f v).hearth = h.hearth := rfl
@[simp] theorem Hub.sec_set (h : Hub) (f : Fld) (v : Nat) : (h.set f v).sec = h.sec := rfl
@[simp] theorem Hub.fence_set (h : Hub) (f : Fld) (v : Nat) : (h.set f v).fence = h.fence := rfl
@[simp] theorem Hub.fo_set (h : Hub) (f : Fld) (v : Nat) : (h.set f v).fo = h.fo := rfl
@[simp] theorem Hub.ports_set (h : Hub) (f : Fld) (v : Nat) : (h.set f v).ports = h.ports := rfl
@[simp] theorem Hub.flash_set (h : Hub) (f : Fld) (v : Nat) : (h.set f v).flash = h.flash := rfl
@[simp] theorem Hub.plans_set (h : Hub) (f : Fld) (v : Nat) : (h.set f v).plans = h.plans := rfl
@[simp] theorem Hub.lines_set (h : Hub) (f : Fld) (v : Nat) : (h.set f v).lines = h.lines := rfl
@[simp] theorem Hub.bridge_set (h : Hub) (f : Fld) (v : Nat) : (h.set f v).bridge = h.bridge := rfl
@[simp] theorem Hub.lp5_set (h : Hub) (f : Fld) (v : Nat) : (h.set f v).lp5 = h.lp5 := rfl
@[simp] theorem Hub.media_set (h : Hub) (f : Fld) (v : Nat) : (h.set f v).media = h.media := rfl
@[simp] theorem Hub.power_set (h : Hub) (f : Fld) (v : Nat) : (h.set f v).power = h.power := rfl
@[simp] theorem Hub.usb_set (h : Hub) (f : Fld) (v : Nat) : (h.set f v).usb = h.usb := rfl
@[simp] theorem Hub.ctl_set (h : Hub) (f : Fld) (v : Nat) : (h.set f v).ctl = h.ctl := rfl
@[simp] theorem Hub.out_set (h : Hub) (f : Fld) (v : Nat) : (h.set f v).out = h.out := rfl
@[simp] theorem Hub.drawn_set (h : Hub) (f : Fld) (v : Nat) : (h.set f v).drawn = h.drawn := rfl

/-! toReset. -/

@[simp] theorem Hub.col_toReset (h : Hub) (f : Fld) : (h.toReset f).col = h.col := rfl
@[simp] theorem Hub.tick_toReset (h : Hub) (f : Fld) : (h.toReset f).tick = h.tick := rfl
@[simp] theorem Hub.grade_toReset (h : Hub) (f : Fld) : (h.toReset f).grade = h.grade := rfl
@[simp] theorem Hub.tun_toReset (h : Hub) (f : Fld) : (h.toReset f).tun = h.tun := rfl
@[simp] theorem Hub.links_toReset (h : Hub) (f : Fld) : (h.toReset f).links = h.links := rfl
@[simp] theorem Hub.hearth_toReset (h : Hub) (f : Fld) : (h.toReset f).hearth = h.hearth := rfl
@[simp] theorem Hub.sec_toReset (h : Hub) (f : Fld) : (h.toReset f).sec = h.sec := rfl
@[simp] theorem Hub.fence_toReset (h : Hub) (f : Fld) : (h.toReset f).fence = h.fence := rfl
@[simp] theorem Hub.fo_toReset (h : Hub) (f : Fld) : (h.toReset f).fo = h.fo := rfl
@[simp] theorem Hub.ports_toReset (h : Hub) (f : Fld) : (h.toReset f).ports = h.ports := rfl
@[simp] theorem Hub.flash_toReset (h : Hub) (f : Fld) : (h.toReset f).flash = h.flash := rfl
@[simp] theorem Hub.plans_toReset (h : Hub) (f : Fld) : (h.toReset f).plans = h.plans := rfl
@[simp] theorem Hub.lines_toReset (h : Hub) (f : Fld) : (h.toReset f).lines = h.lines := rfl
@[simp] theorem Hub.bridge_toReset (h : Hub) (f : Fld) : (h.toReset f).bridge = h.bridge := rfl
@[simp] theorem Hub.lp5_toReset (h : Hub) (f : Fld) : (h.toReset f).lp5 = h.lp5 := rfl
@[simp] theorem Hub.media_toReset (h : Hub) (f : Fld) : (h.toReset f).media = h.media := rfl
@[simp] theorem Hub.power_toReset (h : Hub) (f : Fld) : (h.toReset f).power = h.power := rfl
@[simp] theorem Hub.usb_toReset (h : Hub) (f : Fld) : (h.toReset f).usb = h.usb := rfl
@[simp] theorem Hub.ctl_toReset (h : Hub) (f : Fld) : (h.toReset f).ctl = h.ctl := rfl
@[simp] theorem Hub.out_toReset (h : Hub) (f : Fld) : (h.toReset f).out = h.out := rfl
@[simp] theorem Hub.drawn_toReset (h : Hub) (f : Fld) : (h.toReset f).drawn = h.drawn := rfl

/-! emit. -/

@[simp] theorem Hub.regs_emit (h : Hub) (o : Out) : (h.emit o).regs = h.regs := rfl
@[simp] theorem Hub.col_emit (h : Hub) (o : Out) : (h.emit o).col = h.col := rfl
@[simp] theorem Hub.tick_emit (h : Hub) (o : Out) : (h.emit o).tick = h.tick := rfl
@[simp] theorem Hub.grade_emit (h : Hub) (o : Out) : (h.emit o).grade = h.grade := rfl
@[simp] theorem Hub.tun_emit (h : Hub) (o : Out) : (h.emit o).tun = h.tun := rfl
@[simp] theorem Hub.links_emit (h : Hub) (o : Out) : (h.emit o).links = h.links := rfl
@[simp] theorem Hub.hearth_emit (h : Hub) (o : Out) : (h.emit o).hearth = h.hearth := rfl
@[simp] theorem Hub.sec_emit (h : Hub) (o : Out) : (h.emit o).sec = h.sec := rfl
@[simp] theorem Hub.fence_emit (h : Hub) (o : Out) : (h.emit o).fence = h.fence := rfl
@[simp] theorem Hub.fo_emit (h : Hub) (o : Out) : (h.emit o).fo = h.fo := rfl
@[simp] theorem Hub.ports_emit (h : Hub) (o : Out) : (h.emit o).ports = h.ports := rfl
@[simp] theorem Hub.flash_emit (h : Hub) (o : Out) : (h.emit o).flash = h.flash := rfl
@[simp] theorem Hub.plans_emit (h : Hub) (o : Out) : (h.emit o).plans = h.plans := rfl
@[simp] theorem Hub.lines_emit (h : Hub) (o : Out) : (h.emit o).lines = h.lines := rfl
@[simp] theorem Hub.bridge_emit (h : Hub) (o : Out) : (h.emit o).bridge = h.bridge := rfl
@[simp] theorem Hub.lp5_emit (h : Hub) (o : Out) : (h.emit o).lp5 = h.lp5 := rfl
@[simp] theorem Hub.media_emit (h : Hub) (o : Out) : (h.emit o).media = h.media := rfl
@[simp] theorem Hub.power_emit (h : Hub) (o : Out) : (h.emit o).power = h.power := rfl
@[simp] theorem Hub.usb_emit (h : Hub) (o : Out) : (h.emit o).usb = h.usb := rfl
@[simp] theorem Hub.ctl_emit (h : Hub) (o : Out) : (h.emit o).ctl = h.ctl := rfl
@[simp] theorem Hub.drawn_emit (h : Hub) (o : Out) : (h.emit o).drawn = h.drawn := rfl
@[simp] theorem Hub.get_emit (h : Hub) (o : Out) (f : Fld) : (h.emit o).get f = h.get f := rfl

/-! modLink. -/

@[simp] theorem Hub.regs_modLink (h : Hub) (c : Nat) (g : LinkEnd → LinkEnd) : (h.modLink c g).regs = h.regs := rfl
@[simp] theorem Hub.col_modLink (h : Hub) (c : Nat) (g : LinkEnd → LinkEnd) : (h.modLink c g).col = h.col := rfl
@[simp] theorem Hub.tick_modLink (h : Hub) (c : Nat) (g : LinkEnd → LinkEnd) : (h.modLink c g).tick = h.tick := rfl
@[simp] theorem Hub.grade_modLink (h : Hub) (c : Nat) (g : LinkEnd → LinkEnd) : (h.modLink c g).grade = h.grade := rfl
@[simp] theorem Hub.tun_modLink (h : Hub) (c : Nat) (g : LinkEnd → LinkEnd) : (h.modLink c g).tun = h.tun := rfl
@[simp] theorem Hub.hearth_modLink (h : Hub) (c : Nat) (g : LinkEnd → LinkEnd) : (h.modLink c g).hearth = h.hearth := rfl
@[simp] theorem Hub.sec_modLink (h : Hub) (c : Nat) (g : LinkEnd → LinkEnd) : (h.modLink c g).sec = h.sec := rfl
@[simp] theorem Hub.fence_modLink (h : Hub) (c : Nat) (g : LinkEnd → LinkEnd) : (h.modLink c g).fence = h.fence := rfl
@[simp] theorem Hub.fo_modLink (h : Hub) (c : Nat) (g : LinkEnd → LinkEnd) : (h.modLink c g).fo = h.fo := rfl
@[simp] theorem Hub.ports_modLink (h : Hub) (c : Nat) (g : LinkEnd → LinkEnd) : (h.modLink c g).ports = h.ports := rfl
@[simp] theorem Hub.flash_modLink (h : Hub) (c : Nat) (g : LinkEnd → LinkEnd) : (h.modLink c g).flash = h.flash := rfl
@[simp] theorem Hub.plans_modLink (h : Hub) (c : Nat) (g : LinkEnd → LinkEnd) : (h.modLink c g).plans = h.plans := rfl
@[simp] theorem Hub.lines_modLink (h : Hub) (c : Nat) (g : LinkEnd → LinkEnd) : (h.modLink c g).lines = h.lines := rfl
@[simp] theorem Hub.bridge_modLink (h : Hub) (c : Nat) (g : LinkEnd → LinkEnd) : (h.modLink c g).bridge = h.bridge := rfl
@[simp] theorem Hub.lp5_modLink (h : Hub) (c : Nat) (g : LinkEnd → LinkEnd) : (h.modLink c g).lp5 = h.lp5 := rfl
@[simp] theorem Hub.media_modLink (h : Hub) (c : Nat) (g : LinkEnd → LinkEnd) : (h.modLink c g).media = h.media := rfl
@[simp] theorem Hub.power_modLink (h : Hub) (c : Nat) (g : LinkEnd → LinkEnd) : (h.modLink c g).power = h.power := rfl
@[simp] theorem Hub.usb_modLink (h : Hub) (c : Nat) (g : LinkEnd → LinkEnd) : (h.modLink c g).usb = h.usb := rfl
@[simp] theorem Hub.ctl_modLink (h : Hub) (c : Nat) (g : LinkEnd → LinkEnd) : (h.modLink c g).ctl = h.ctl := rfl
@[simp] theorem Hub.out_modLink (h : Hub) (c : Nat) (g : LinkEnd → LinkEnd) : (h.modLink c g).out = h.out := rfl
@[simp] theorem Hub.drawn_modLink (h : Hub) (c : Nat) (g : LinkEnd → LinkEnd) : (h.modLink c g).drawn = h.drawn := rfl
@[simp] theorem Hub.get_modLink (h : Hub) (c : Nat) (g : LinkEnd → LinkEnd) (f : Fld) : (h.modLink c g).get f = h.get f := rfl

/-! setHeld. -/

@[simp] theorem Hub.regs_setHeld (h : Hub) (c k : Nat) (l : List QFrame) : (h.setHeld c k l).regs = h.regs := rfl
@[simp] theorem Hub.col_setHeld (h : Hub) (c k : Nat) (l : List QFrame) : (h.setHeld c k l).col = h.col := rfl
@[simp] theorem Hub.tick_setHeld (h : Hub) (c k : Nat) (l : List QFrame) : (h.setHeld c k l).tick = h.tick := rfl
@[simp] theorem Hub.grade_setHeld (h : Hub) (c k : Nat) (l : List QFrame) : (h.setHeld c k l).grade = h.grade := rfl
@[simp] theorem Hub.tun_setHeld (h : Hub) (c k : Nat) (l : List QFrame) : (h.setHeld c k l).tun = h.tun := rfl
@[simp] theorem Hub.links_setHeld (h : Hub) (c k : Nat) (l : List QFrame) : (h.setHeld c k l).links = h.links := rfl
@[simp] theorem Hub.sec_setHeld (h : Hub) (c k : Nat) (l : List QFrame) : (h.setHeld c k l).sec = h.sec := rfl
@[simp] theorem Hub.fence_setHeld (h : Hub) (c k : Nat) (l : List QFrame) : (h.setHeld c k l).fence = h.fence := rfl
@[simp] theorem Hub.fo_setHeld (h : Hub) (c k : Nat) (l : List QFrame) : (h.setHeld c k l).fo = h.fo := rfl
@[simp] theorem Hub.ports_setHeld (h : Hub) (c k : Nat) (l : List QFrame) : (h.setHeld c k l).ports = h.ports := rfl
@[simp] theorem Hub.flash_setHeld (h : Hub) (c k : Nat) (l : List QFrame) : (h.setHeld c k l).flash = h.flash := rfl
@[simp] theorem Hub.plans_setHeld (h : Hub) (c k : Nat) (l : List QFrame) : (h.setHeld c k l).plans = h.plans := rfl
@[simp] theorem Hub.lines_setHeld (h : Hub) (c k : Nat) (l : List QFrame) : (h.setHeld c k l).lines = h.lines := rfl
@[simp] theorem Hub.bridge_setHeld (h : Hub) (c k : Nat) (l : List QFrame) : (h.setHeld c k l).bridge = h.bridge := rfl
@[simp] theorem Hub.lp5_setHeld (h : Hub) (c k : Nat) (l : List QFrame) : (h.setHeld c k l).lp5 = h.lp5 := rfl
@[simp] theorem Hub.media_setHeld (h : Hub) (c k : Nat) (l : List QFrame) : (h.setHeld c k l).media = h.media := rfl
@[simp] theorem Hub.power_setHeld (h : Hub) (c k : Nat) (l : List QFrame) : (h.setHeld c k l).power = h.power := rfl
@[simp] theorem Hub.usb_setHeld (h : Hub) (c k : Nat) (l : List QFrame) : (h.setHeld c k l).usb = h.usb := rfl
@[simp] theorem Hub.ctl_setHeld (h : Hub) (c k : Nat) (l : List QFrame) : (h.setHeld c k l).ctl = h.ctl := rfl
@[simp] theorem Hub.out_setHeld (h : Hub) (c k : Nat) (l : List QFrame) : (h.setHeld c k l).out = h.out := rfl
@[simp] theorem Hub.drawn_setHeld (h : Hub) (c k : Nat) (l : List QFrame) : (h.setHeld c k l).drawn = h.drawn := rfl
@[simp] theorem Hub.get_setHeld (h : Hub) (c k : Nat) (l : List QFrame) (f : Fld) : (h.setHeld c k l).get f = h.get f := rfl

/-! modQueue. -/

@[simp] theorem Hub.regs_modQueue (h : Hub) (t d : Nat) (g : Queue → Queue) : (h.modQueue t d g).regs = h.regs := rfl
@[simp] theorem Hub.col_modQueue (h : Hub) (t d : Nat) (g : Queue → Queue) : (h.modQueue t d g).col = h.col := rfl
@[simp] theorem Hub.tick_modQueue (h : Hub) (t d : Nat) (g : Queue → Queue) : (h.modQueue t d g).tick = h.tick := rfl
@[simp] theorem Hub.grade_modQueue (h : Hub) (t d : Nat) (g : Queue → Queue) : (h.modQueue t d g).grade = h.grade := rfl
@[simp] theorem Hub.tun_modQueue (h : Hub) (t d : Nat) (g : Queue → Queue) : (h.modQueue t d g).tun = h.tun := rfl
@[simp] theorem Hub.links_modQueue (h : Hub) (t d : Nat) (g : Queue → Queue) : (h.modQueue t d g).links = h.links := rfl
@[simp] theorem Hub.sec_modQueue (h : Hub) (t d : Nat) (g : Queue → Queue) : (h.modQueue t d g).sec = h.sec := rfl
@[simp] theorem Hub.fence_modQueue (h : Hub) (t d : Nat) (g : Queue → Queue) : (h.modQueue t d g).fence = h.fence := rfl
@[simp] theorem Hub.fo_modQueue (h : Hub) (t d : Nat) (g : Queue → Queue) : (h.modQueue t d g).fo = h.fo := rfl
@[simp] theorem Hub.ports_modQueue (h : Hub) (t d : Nat) (g : Queue → Queue) : (h.modQueue t d g).ports = h.ports := rfl
@[simp] theorem Hub.flash_modQueue (h : Hub) (t d : Nat) (g : Queue → Queue) : (h.modQueue t d g).flash = h.flash := rfl
@[simp] theorem Hub.plans_modQueue (h : Hub) (t d : Nat) (g : Queue → Queue) : (h.modQueue t d g).plans = h.plans := rfl
@[simp] theorem Hub.lines_modQueue (h : Hub) (t d : Nat) (g : Queue → Queue) : (h.modQueue t d g).lines = h.lines := rfl
@[simp] theorem Hub.bridge_modQueue (h : Hub) (t d : Nat) (g : Queue → Queue) : (h.modQueue t d g).bridge = h.bridge := rfl
@[simp] theorem Hub.lp5_modQueue (h : Hub) (t d : Nat) (g : Queue → Queue) : (h.modQueue t d g).lp5 = h.lp5 := rfl
@[simp] theorem Hub.media_modQueue (h : Hub) (t d : Nat) (g : Queue → Queue) : (h.modQueue t d g).media = h.media := rfl
@[simp] theorem Hub.power_modQueue (h : Hub) (t d : Nat) (g : Queue → Queue) : (h.modQueue t d g).power = h.power := rfl
@[simp] theorem Hub.usb_modQueue (h : Hub) (t d : Nat) (g : Queue → Queue) : (h.modQueue t d g).usb = h.usb := rfl
@[simp] theorem Hub.ctl_modQueue (h : Hub) (t d : Nat) (g : Queue → Queue) : (h.modQueue t d g).ctl = h.ctl := rfl
@[simp] theorem Hub.out_modQueue (h : Hub) (t d : Nat) (g : Queue → Queue) : (h.modQueue t d g).out = h.out := rfl
@[simp] theorem Hub.drawn_modQueue (h : Hub) (t d : Nat) (g : Queue → Queue) : (h.modQueue t d g).drawn = h.drawn := rfl
@[simp] theorem Hub.get_modQueue (h : Hub) (t d : Nat) (g : Queue → Queue) (f : Fld) : (h.modQueue t d g).get f = h.get f := rfl

/-! modEgress. -/

@[simp] theorem Hub.regs_modEgress (h : Hub) (c : Nat) (g : Egress → Egress) : (h.modEgress c g).regs = h.regs := rfl
@[simp] theorem Hub.col_modEgress (h : Hub) (c : Nat) (g : Egress → Egress) : (h.modEgress c g).col = h.col := rfl
@[simp] theorem Hub.tick_modEgress (h : Hub) (c : Nat) (g : Egress → Egress) : (h.modEgress c g).tick = h.tick := rfl
@[simp] theorem Hub.grade_modEgress (h : Hub) (c : Nat) (g : Egress → Egress) : (h.modEgress c g).grade = h.grade := rfl
@[simp] theorem Hub.tun_modEgress (h : Hub) (c : Nat) (g : Egress → Egress) : (h.modEgress c g).tun = h.tun := rfl
@[simp] theorem Hub.links_modEgress (h : Hub) (c : Nat) (g : Egress → Egress) : (h.modEgress c g).links = h.links := rfl
@[simp] theorem Hub.sec_modEgress (h : Hub) (c : Nat) (g : Egress → Egress) : (h.modEgress c g).sec = h.sec := rfl
@[simp] theorem Hub.fence_modEgress (h : Hub) (c : Nat) (g : Egress → Egress) : (h.modEgress c g).fence = h.fence := rfl
@[simp] theorem Hub.fo_modEgress (h : Hub) (c : Nat) (g : Egress → Egress) : (h.modEgress c g).fo = h.fo := rfl
@[simp] theorem Hub.ports_modEgress (h : Hub) (c : Nat) (g : Egress → Egress) : (h.modEgress c g).ports = h.ports := rfl
@[simp] theorem Hub.flash_modEgress (h : Hub) (c : Nat) (g : Egress → Egress) : (h.modEgress c g).flash = h.flash := rfl
@[simp] theorem Hub.plans_modEgress (h : Hub) (c : Nat) (g : Egress → Egress) : (h.modEgress c g).plans = h.plans := rfl
@[simp] theorem Hub.lines_modEgress (h : Hub) (c : Nat) (g : Egress → Egress) : (h.modEgress c g).lines = h.lines := rfl
@[simp] theorem Hub.bridge_modEgress (h : Hub) (c : Nat) (g : Egress → Egress) : (h.modEgress c g).bridge = h.bridge := rfl
@[simp] theorem Hub.lp5_modEgress (h : Hub) (c : Nat) (g : Egress → Egress) : (h.modEgress c g).lp5 = h.lp5 := rfl
@[simp] theorem Hub.media_modEgress (h : Hub) (c : Nat) (g : Egress → Egress) : (h.modEgress c g).media = h.media := rfl
@[simp] theorem Hub.power_modEgress (h : Hub) (c : Nat) (g : Egress → Egress) : (h.modEgress c g).power = h.power := rfl
@[simp] theorem Hub.usb_modEgress (h : Hub) (c : Nat) (g : Egress → Egress) : (h.modEgress c g).usb = h.usb := rfl
@[simp] theorem Hub.ctl_modEgress (h : Hub) (c : Nat) (g : Egress → Egress) : (h.modEgress c g).ctl = h.ctl := rfl
@[simp] theorem Hub.out_modEgress (h : Hub) (c : Nat) (g : Egress → Egress) : (h.modEgress c g).out = h.out := rfl
@[simp] theorem Hub.drawn_modEgress (h : Hub) (c : Nat) (g : Egress → Egress) : (h.modEgress c g).drawn = h.drawn := rfl
@[simp] theorem Hub.get_modEgress (h : Hub) (c : Nat) (g : Egress → Egress) (f : Fld) : (h.modEgress c g).get f = h.get f := rfl

/-! setFence. -/

@[simp] theorem Hub.regs_setFence (h : Hub) (c : Nat) (x : FenceSt) : (h.setFence c x).regs = h.regs := rfl
@[simp] theorem Hub.col_setFence (h : Hub) (c : Nat) (x : FenceSt) : (h.setFence c x).col = h.col := rfl
@[simp] theorem Hub.tick_setFence (h : Hub) (c : Nat) (x : FenceSt) : (h.setFence c x).tick = h.tick := rfl
@[simp] theorem Hub.grade_setFence (h : Hub) (c : Nat) (x : FenceSt) : (h.setFence c x).grade = h.grade := rfl
@[simp] theorem Hub.tun_setFence (h : Hub) (c : Nat) (x : FenceSt) : (h.setFence c x).tun = h.tun := rfl
@[simp] theorem Hub.links_setFence (h : Hub) (c : Nat) (x : FenceSt) : (h.setFence c x).links = h.links := rfl
@[simp] theorem Hub.hearth_setFence (h : Hub) (c : Nat) (x : FenceSt) : (h.setFence c x).hearth = h.hearth := rfl
@[simp] theorem Hub.sec_setFence (h : Hub) (c : Nat) (x : FenceSt) : (h.setFence c x).sec = h.sec := rfl
@[simp] theorem Hub.fo_setFence (h : Hub) (c : Nat) (x : FenceSt) : (h.setFence c x).fo = h.fo := rfl
@[simp] theorem Hub.ports_setFence (h : Hub) (c : Nat) (x : FenceSt) : (h.setFence c x).ports = h.ports := rfl
@[simp] theorem Hub.flash_setFence (h : Hub) (c : Nat) (x : FenceSt) : (h.setFence c x).flash = h.flash := rfl
@[simp] theorem Hub.plans_setFence (h : Hub) (c : Nat) (x : FenceSt) : (h.setFence c x).plans = h.plans := rfl
@[simp] theorem Hub.lines_setFence (h : Hub) (c : Nat) (x : FenceSt) : (h.setFence c x).lines = h.lines := rfl
@[simp] theorem Hub.bridge_setFence (h : Hub) (c : Nat) (x : FenceSt) : (h.setFence c x).bridge = h.bridge := rfl
@[simp] theorem Hub.lp5_setFence (h : Hub) (c : Nat) (x : FenceSt) : (h.setFence c x).lp5 = h.lp5 := rfl
@[simp] theorem Hub.media_setFence (h : Hub) (c : Nat) (x : FenceSt) : (h.setFence c x).media = h.media := rfl
@[simp] theorem Hub.power_setFence (h : Hub) (c : Nat) (x : FenceSt) : (h.setFence c x).power = h.power := rfl
@[simp] theorem Hub.usb_setFence (h : Hub) (c : Nat) (x : FenceSt) : (h.setFence c x).usb = h.usb := rfl
@[simp] theorem Hub.ctl_setFence (h : Hub) (c : Nat) (x : FenceSt) : (h.setFence c x).ctl = h.ctl := rfl
@[simp] theorem Hub.out_setFence (h : Hub) (c : Nat) (x : FenceSt) : (h.setFence c x).out = h.out := rfl
@[simp] theorem Hub.drawn_setFence (h : Hub) (c : Nat) (x : FenceSt) : (h.setFence c x).drawn = h.drawn := rfl
@[simp] theorem Hub.get_setFence (h : Hub) (c : Nat) (x : FenceSt) (f : Fld) : (h.setFence c x).get f = h.get f := rfl

/-! modTunX. -/

@[simp] theorem Hub.regs_modTunX (h : Hub) (t : Nat) (g : TunX → TunX) : (h.modTunX t g).regs = h.regs := rfl
@[simp] theorem Hub.col_modTunX (h : Hub) (t : Nat) (g : TunX → TunX) : (h.modTunX t g).col = h.col := rfl
@[simp] theorem Hub.tick_modTunX (h : Hub) (t : Nat) (g : TunX → TunX) : (h.modTunX t g).tick = h.tick := rfl
@[simp] theorem Hub.grade_modTunX (h : Hub) (t : Nat) (g : TunX → TunX) : (h.modTunX t g).grade = h.grade := rfl
@[simp] theorem Hub.links_modTunX (h : Hub) (t : Nat) (g : TunX → TunX) : (h.modTunX t g).links = h.links := rfl
@[simp] theorem Hub.hearth_modTunX (h : Hub) (t : Nat) (g : TunX → TunX) : (h.modTunX t g).hearth = h.hearth := rfl
@[simp] theorem Hub.sec_modTunX (h : Hub) (t : Nat) (g : TunX → TunX) : (h.modTunX t g).sec = h.sec := rfl
@[simp] theorem Hub.fence_modTunX (h : Hub) (t : Nat) (g : TunX → TunX) : (h.modTunX t g).fence = h.fence := rfl
@[simp] theorem Hub.fo_modTunX (h : Hub) (t : Nat) (g : TunX → TunX) : (h.modTunX t g).fo = h.fo := rfl
@[simp] theorem Hub.ports_modTunX (h : Hub) (t : Nat) (g : TunX → TunX) : (h.modTunX t g).ports = h.ports := rfl
@[simp] theorem Hub.flash_modTunX (h : Hub) (t : Nat) (g : TunX → TunX) : (h.modTunX t g).flash = h.flash := rfl
@[simp] theorem Hub.plans_modTunX (h : Hub) (t : Nat) (g : TunX → TunX) : (h.modTunX t g).plans = h.plans := rfl
@[simp] theorem Hub.lines_modTunX (h : Hub) (t : Nat) (g : TunX → TunX) : (h.modTunX t g).lines = h.lines := rfl
@[simp] theorem Hub.bridge_modTunX (h : Hub) (t : Nat) (g : TunX → TunX) : (h.modTunX t g).bridge = h.bridge := rfl
@[simp] theorem Hub.lp5_modTunX (h : Hub) (t : Nat) (g : TunX → TunX) : (h.modTunX t g).lp5 = h.lp5 := rfl
@[simp] theorem Hub.media_modTunX (h : Hub) (t : Nat) (g : TunX → TunX) : (h.modTunX t g).media = h.media := rfl
@[simp] theorem Hub.power_modTunX (h : Hub) (t : Nat) (g : TunX → TunX) : (h.modTunX t g).power = h.power := rfl
@[simp] theorem Hub.usb_modTunX (h : Hub) (t : Nat) (g : TunX → TunX) : (h.modTunX t g).usb = h.usb := rfl
@[simp] theorem Hub.ctl_modTunX (h : Hub) (t : Nat) (g : TunX → TunX) : (h.modTunX t g).ctl = h.ctl := rfl
@[simp] theorem Hub.out_modTunX (h : Hub) (t : Nat) (g : TunX → TunX) : (h.modTunX t g).out = h.out := rfl
@[simp] theorem Hub.drawn_modTunX (h : Hub) (t : Nat) (g : TunX → TunX) : (h.modTunX t g).drawn = h.drawn := rfl
@[simp] theorem Hub.get_modTunX (h : Hub) (t : Nat) (g : TunX → TunX) (f : Fld) : (h.modTunX t g).get f = h.get f := rfl

/-! modFailover. -/

@[simp] theorem Hub.regs_modFailover (h : Hub) (c : Nat) (g : FailoverSt → FailoverSt) : (h.modFailover c g).regs = h.regs := rfl
@[simp] theorem Hub.col_modFailover (h : Hub) (c : Nat) (g : FailoverSt → FailoverSt) : (h.modFailover c g).col = h.col := rfl
@[simp] theorem Hub.tick_modFailover (h : Hub) (c : Nat) (g : FailoverSt → FailoverSt) : (h.modFailover c g).tick = h.tick := rfl
@[simp] theorem Hub.grade_modFailover (h : Hub) (c : Nat) (g : FailoverSt → FailoverSt) : (h.modFailover c g).grade = h.grade := rfl
@[simp] theorem Hub.tun_modFailover (h : Hub) (c : Nat) (g : FailoverSt → FailoverSt) : (h.modFailover c g).tun = h.tun := rfl
@[simp] theorem Hub.links_modFailover (h : Hub) (c : Nat) (g : FailoverSt → FailoverSt) : (h.modFailover c g).links = h.links := rfl
@[simp] theorem Hub.hearth_modFailover (h : Hub) (c : Nat) (g : FailoverSt → FailoverSt) : (h.modFailover c g).hearth = h.hearth := rfl
@[simp] theorem Hub.sec_modFailover (h : Hub) (c : Nat) (g : FailoverSt → FailoverSt) : (h.modFailover c g).sec = h.sec := rfl
@[simp] theorem Hub.fence_modFailover (h : Hub) (c : Nat) (g : FailoverSt → FailoverSt) : (h.modFailover c g).fence = h.fence := rfl
@[simp] theorem Hub.ports_modFailover (h : Hub) (c : Nat) (g : FailoverSt → FailoverSt) : (h.modFailover c g).ports = h.ports := rfl
@[simp] theorem Hub.flash_modFailover (h : Hub) (c : Nat) (g : FailoverSt → FailoverSt) : (h.modFailover c g).flash = h.flash := rfl
@[simp] theorem Hub.plans_modFailover (h : Hub) (c : Nat) (g : FailoverSt → FailoverSt) : (h.modFailover c g).plans = h.plans := rfl
@[simp] theorem Hub.lines_modFailover (h : Hub) (c : Nat) (g : FailoverSt → FailoverSt) : (h.modFailover c g).lines = h.lines := rfl
@[simp] theorem Hub.bridge_modFailover (h : Hub) (c : Nat) (g : FailoverSt → FailoverSt) : (h.modFailover c g).bridge = h.bridge := rfl
@[simp] theorem Hub.lp5_modFailover (h : Hub) (c : Nat) (g : FailoverSt → FailoverSt) : (h.modFailover c g).lp5 = h.lp5 := rfl
@[simp] theorem Hub.media_modFailover (h : Hub) (c : Nat) (g : FailoverSt → FailoverSt) : (h.modFailover c g).media = h.media := rfl
@[simp] theorem Hub.power_modFailover (h : Hub) (c : Nat) (g : FailoverSt → FailoverSt) : (h.modFailover c g).power = h.power := rfl
@[simp] theorem Hub.usb_modFailover (h : Hub) (c : Nat) (g : FailoverSt → FailoverSt) : (h.modFailover c g).usb = h.usb := rfl
@[simp] theorem Hub.ctl_modFailover (h : Hub) (c : Nat) (g : FailoverSt → FailoverSt) : (h.modFailover c g).ctl = h.ctl := rfl
@[simp] theorem Hub.out_modFailover (h : Hub) (c : Nat) (g : FailoverSt → FailoverSt) : (h.modFailover c g).out = h.out := rfl
@[simp] theorem Hub.drawn_modFailover (h : Hub) (c : Nat) (g : FailoverSt → FailoverSt) : (h.modFailover c g).drawn = h.drawn := rfl
@[simp] theorem Hub.get_modFailover (h : Hub) (c : Nat) (g : FailoverSt → FailoverSt) (f : Fld) : (h.modFailover c g).get f = h.get f := rfl

/-! modPort. -/

@[simp] theorem Hub.regs_modPort (h : Hub) (c : Nat) (g : PortLanes → PortLanes) : (h.modPort c g).regs = h.regs := rfl
@[simp] theorem Hub.col_modPort (h : Hub) (c : Nat) (g : PortLanes → PortLanes) : (h.modPort c g).col = h.col := rfl
@[simp] theorem Hub.tick_modPort (h : Hub) (c : Nat) (g : PortLanes → PortLanes) : (h.modPort c g).tick = h.tick := rfl
@[simp] theorem Hub.grade_modPort (h : Hub) (c : Nat) (g : PortLanes → PortLanes) : (h.modPort c g).grade = h.grade := rfl
@[simp] theorem Hub.tun_modPort (h : Hub) (c : Nat) (g : PortLanes → PortLanes) : (h.modPort c g).tun = h.tun := rfl
@[simp] theorem Hub.links_modPort (h : Hub) (c : Nat) (g : PortLanes → PortLanes) : (h.modPort c g).links = h.links := rfl
@[simp] theorem Hub.hearth_modPort (h : Hub) (c : Nat) (g : PortLanes → PortLanes) : (h.modPort c g).hearth = h.hearth := rfl
@[simp] theorem Hub.sec_modPort (h : Hub) (c : Nat) (g : PortLanes → PortLanes) : (h.modPort c g).sec = h.sec := rfl
@[simp] theorem Hub.fence_modPort (h : Hub) (c : Nat) (g : PortLanes → PortLanes) : (h.modPort c g).fence = h.fence := rfl
@[simp] theorem Hub.fo_modPort (h : Hub) (c : Nat) (g : PortLanes → PortLanes) : (h.modPort c g).fo = h.fo := rfl
@[simp] theorem Hub.flash_modPort (h : Hub) (c : Nat) (g : PortLanes → PortLanes) : (h.modPort c g).flash = h.flash := rfl
@[simp] theorem Hub.plans_modPort (h : Hub) (c : Nat) (g : PortLanes → PortLanes) : (h.modPort c g).plans = h.plans := rfl
@[simp] theorem Hub.lines_modPort (h : Hub) (c : Nat) (g : PortLanes → PortLanes) : (h.modPort c g).lines = h.lines := rfl
@[simp] theorem Hub.bridge_modPort (h : Hub) (c : Nat) (g : PortLanes → PortLanes) : (h.modPort c g).bridge = h.bridge := rfl
@[simp] theorem Hub.lp5_modPort (h : Hub) (c : Nat) (g : PortLanes → PortLanes) : (h.modPort c g).lp5 = h.lp5 := rfl
@[simp] theorem Hub.media_modPort (h : Hub) (c : Nat) (g : PortLanes → PortLanes) : (h.modPort c g).media = h.media := rfl
@[simp] theorem Hub.power_modPort (h : Hub) (c : Nat) (g : PortLanes → PortLanes) : (h.modPort c g).power = h.power := rfl
@[simp] theorem Hub.usb_modPort (h : Hub) (c : Nat) (g : PortLanes → PortLanes) : (h.modPort c g).usb = h.usb := rfl
@[simp] theorem Hub.ctl_modPort (h : Hub) (c : Nat) (g : PortLanes → PortLanes) : (h.modPort c g).ctl = h.ctl := rfl
@[simp] theorem Hub.out_modPort (h : Hub) (c : Nat) (g : PortLanes → PortLanes) : (h.modPort c g).out = h.out := rfl
@[simp] theorem Hub.drawn_modPort (h : Hub) (c : Nat) (g : PortLanes → PortLanes) : (h.modPort c g).drawn = h.drawn := rfl
@[simp] theorem Hub.get_modPort (h : Hub) (c : Nat) (g : PortLanes → PortLanes) (f : Fld) : (h.modPort c g).get f = h.get f := rfl

/-! modLane. -/

@[simp] theorem Hub.regs_modLane (h : Hub) (c l : Nat) (g : LaneX → LaneX) : (h.modLane c l g).regs = h.regs := rfl
@[simp] theorem Hub.col_modLane (h : Hub) (c l : Nat) (g : LaneX → LaneX) : (h.modLane c l g).col = h.col := rfl
@[simp] theorem Hub.tick_modLane (h : Hub) (c l : Nat) (g : LaneX → LaneX) : (h.modLane c l g).tick = h.tick := rfl
@[simp] theorem Hub.grade_modLane (h : Hub) (c l : Nat) (g : LaneX → LaneX) : (h.modLane c l g).grade = h.grade := rfl
@[simp] theorem Hub.tun_modLane (h : Hub) (c l : Nat) (g : LaneX → LaneX) : (h.modLane c l g).tun = h.tun := rfl
@[simp] theorem Hub.links_modLane (h : Hub) (c l : Nat) (g : LaneX → LaneX) : (h.modLane c l g).links = h.links := rfl
@[simp] theorem Hub.hearth_modLane (h : Hub) (c l : Nat) (g : LaneX → LaneX) : (h.modLane c l g).hearth = h.hearth := rfl
@[simp] theorem Hub.sec_modLane (h : Hub) (c l : Nat) (g : LaneX → LaneX) : (h.modLane c l g).sec = h.sec := rfl
@[simp] theorem Hub.fence_modLane (h : Hub) (c l : Nat) (g : LaneX → LaneX) : (h.modLane c l g).fence = h.fence := rfl
@[simp] theorem Hub.fo_modLane (h : Hub) (c l : Nat) (g : LaneX → LaneX) : (h.modLane c l g).fo = h.fo := rfl
@[simp] theorem Hub.flash_modLane (h : Hub) (c l : Nat) (g : LaneX → LaneX) : (h.modLane c l g).flash = h.flash := rfl
@[simp] theorem Hub.plans_modLane (h : Hub) (c l : Nat) (g : LaneX → LaneX) : (h.modLane c l g).plans = h.plans := rfl
@[simp] theorem Hub.lines_modLane (h : Hub) (c l : Nat) (g : LaneX → LaneX) : (h.modLane c l g).lines = h.lines := rfl
@[simp] theorem Hub.bridge_modLane (h : Hub) (c l : Nat) (g : LaneX → LaneX) : (h.modLane c l g).bridge = h.bridge := rfl
@[simp] theorem Hub.lp5_modLane (h : Hub) (c l : Nat) (g : LaneX → LaneX) : (h.modLane c l g).lp5 = h.lp5 := rfl
@[simp] theorem Hub.media_modLane (h : Hub) (c l : Nat) (g : LaneX → LaneX) : (h.modLane c l g).media = h.media := rfl
@[simp] theorem Hub.power_modLane (h : Hub) (c l : Nat) (g : LaneX → LaneX) : (h.modLane c l g).power = h.power := rfl
@[simp] theorem Hub.usb_modLane (h : Hub) (c l : Nat) (g : LaneX → LaneX) : (h.modLane c l g).usb = h.usb := rfl
@[simp] theorem Hub.ctl_modLane (h : Hub) (c l : Nat) (g : LaneX → LaneX) : (h.modLane c l g).ctl = h.ctl := rfl
@[simp] theorem Hub.out_modLane (h : Hub) (c l : Nat) (g : LaneX → LaneX) : (h.modLane c l g).out = h.out := rfl
@[simp] theorem Hub.drawn_modLane (h : Hub) (c l : Nat) (g : LaneX → LaneX) : (h.modLane c l g).drawn = h.drawn := rfl
@[simp] theorem Hub.get_modLane (h : Hub) (c l : Nat) (g : LaneX → LaneX) (f : Fld) : (h.modLane c l g).get f = h.get f := rfl

/-! modStk. -/

@[simp] theorem Hub.regs_modStk (h : Hub) (c : Nat) (g : StrikePort → StrikePort) : (h.modStk c g).regs = h.regs := rfl
@[simp] theorem Hub.col_modStk (h : Hub) (c : Nat) (g : StrikePort → StrikePort) : (h.modStk c g).col = h.col := rfl
@[simp] theorem Hub.tick_modStk (h : Hub) (c : Nat) (g : StrikePort → StrikePort) : (h.modStk c g).tick = h.tick := rfl
@[simp] theorem Hub.grade_modStk (h : Hub) (c : Nat) (g : StrikePort → StrikePort) : (h.modStk c g).grade = h.grade := rfl
@[simp] theorem Hub.tun_modStk (h : Hub) (c : Nat) (g : StrikePort → StrikePort) : (h.modStk c g).tun = h.tun := rfl
@[simp] theorem Hub.links_modStk (h : Hub) (c : Nat) (g : StrikePort → StrikePort) : (h.modStk c g).links = h.links := rfl
@[simp] theorem Hub.hearth_modStk (h : Hub) (c : Nat) (g : StrikePort → StrikePort) : (h.modStk c g).hearth = h.hearth := rfl
@[simp] theorem Hub.sec_modStk (h : Hub) (c : Nat) (g : StrikePort → StrikePort) : (h.modStk c g).sec = h.sec := rfl
@[simp] theorem Hub.fence_modStk (h : Hub) (c : Nat) (g : StrikePort → StrikePort) : (h.modStk c g).fence = h.fence := rfl
@[simp] theorem Hub.fo_modStk (h : Hub) (c : Nat) (g : StrikePort → StrikePort) : (h.modStk c g).fo = h.fo := rfl
@[simp] theorem Hub.ports_modStk (h : Hub) (c : Nat) (g : StrikePort → StrikePort) : (h.modStk c g).ports = h.ports := rfl
@[simp] theorem Hub.plans_modStk (h : Hub) (c : Nat) (g : StrikePort → StrikePort) : (h.modStk c g).plans = h.plans := rfl
@[simp] theorem Hub.lines_modStk (h : Hub) (c : Nat) (g : StrikePort → StrikePort) : (h.modStk c g).lines = h.lines := rfl
@[simp] theorem Hub.bridge_modStk (h : Hub) (c : Nat) (g : StrikePort → StrikePort) : (h.modStk c g).bridge = h.bridge := rfl
@[simp] theorem Hub.lp5_modStk (h : Hub) (c : Nat) (g : StrikePort → StrikePort) : (h.modStk c g).lp5 = h.lp5 := rfl
@[simp] theorem Hub.media_modStk (h : Hub) (c : Nat) (g : StrikePort → StrikePort) : (h.modStk c g).media = h.media := rfl
@[simp] theorem Hub.power_modStk (h : Hub) (c : Nat) (g : StrikePort → StrikePort) : (h.modStk c g).power = h.power := rfl
@[simp] theorem Hub.usb_modStk (h : Hub) (c : Nat) (g : StrikePort → StrikePort) : (h.modStk c g).usb = h.usb := rfl
@[simp] theorem Hub.ctl_modStk (h : Hub) (c : Nat) (g : StrikePort → StrikePort) : (h.modStk c g).ctl = h.ctl := rfl
@[simp] theorem Hub.out_modStk (h : Hub) (c : Nat) (g : StrikePort → StrikePort) : (h.modStk c g).out = h.out := rfl
@[simp] theorem Hub.drawn_modStk (h : Hub) (c : Nat) (g : StrikePort → StrikePort) : (h.modStk c g).drawn = h.drawn := rfl
@[simp] theorem Hub.get_modStk (h : Hub) (c : Nat) (g : StrikePort → StrikePort) (f : Fld) : (h.modStk c g).get f = h.get f := rfl

/-! setCrossing. -/

@[simp] theorem Hub.regs_setCrossing (h : Hub) (k : Nat) (x : Crossing) : (h.setCrossing k x).regs = h.regs := rfl
@[simp] theorem Hub.col_setCrossing (h : Hub) (k : Nat) (x : Crossing) : (h.setCrossing k x).col = h.col := rfl
@[simp] theorem Hub.tick_setCrossing (h : Hub) (k : Nat) (x : Crossing) : (h.setCrossing k x).tick = h.tick := rfl
@[simp] theorem Hub.grade_setCrossing (h : Hub) (k : Nat) (x : Crossing) : (h.setCrossing k x).grade = h.grade := rfl
@[simp] theorem Hub.tun_setCrossing (h : Hub) (k : Nat) (x : Crossing) : (h.setCrossing k x).tun = h.tun := rfl
@[simp] theorem Hub.links_setCrossing (h : Hub) (k : Nat) (x : Crossing) : (h.setCrossing k x).links = h.links := rfl
@[simp] theorem Hub.hearth_setCrossing (h : Hub) (k : Nat) (x : Crossing) : (h.setCrossing k x).hearth = h.hearth := rfl
@[simp] theorem Hub.sec_setCrossing (h : Hub) (k : Nat) (x : Crossing) : (h.setCrossing k x).sec = h.sec := rfl
@[simp] theorem Hub.fence_setCrossing (h : Hub) (k : Nat) (x : Crossing) : (h.setCrossing k x).fence = h.fence := rfl
@[simp] theorem Hub.fo_setCrossing (h : Hub) (k : Nat) (x : Crossing) : (h.setCrossing k x).fo = h.fo := rfl
@[simp] theorem Hub.ports_setCrossing (h : Hub) (k : Nat) (x : Crossing) : (h.setCrossing k x).ports = h.ports := rfl
@[simp] theorem Hub.plans_setCrossing (h : Hub) (k : Nat) (x : Crossing) : (h.setCrossing k x).plans = h.plans := rfl
@[simp] theorem Hub.lines_setCrossing (h : Hub) (k : Nat) (x : Crossing) : (h.setCrossing k x).lines = h.lines := rfl
@[simp] theorem Hub.bridge_setCrossing (h : Hub) (k : Nat) (x : Crossing) : (h.setCrossing k x).bridge = h.bridge := rfl
@[simp] theorem Hub.lp5_setCrossing (h : Hub) (k : Nat) (x : Crossing) : (h.setCrossing k x).lp5 = h.lp5 := rfl
@[simp] theorem Hub.media_setCrossing (h : Hub) (k : Nat) (x : Crossing) : (h.setCrossing k x).media = h.media := rfl
@[simp] theorem Hub.power_setCrossing (h : Hub) (k : Nat) (x : Crossing) : (h.setCrossing k x).power = h.power := rfl
@[simp] theorem Hub.usb_setCrossing (h : Hub) (k : Nat) (x : Crossing) : (h.setCrossing k x).usb = h.usb := rfl
@[simp] theorem Hub.ctl_setCrossing (h : Hub) (k : Nat) (x : Crossing) : (h.setCrossing k x).ctl = h.ctl := rfl
@[simp] theorem Hub.out_setCrossing (h : Hub) (k : Nat) (x : Crossing) : (h.setCrossing k x).out = h.out := rfl
@[simp] theorem Hub.drawn_setCrossing (h : Hub) (k : Nat) (x : Crossing) : (h.setCrossing k x).drawn = h.drawn := rfl
@[simp] theorem Hub.get_setCrossing (h : Hub) (k : Nat) (x : Crossing) (f : Fld) : (h.setCrossing k x).get f = h.get f := rfl

/-! modSlot. -/

@[simp] theorem Hub.regs_modSlot (h : Hub) (m : Nat) (g : PlanSlot → PlanSlot) : (h.modSlot m g).regs = h.regs := rfl
@[simp] theorem Hub.col_modSlot (h : Hub) (m : Nat) (g : PlanSlot → PlanSlot) : (h.modSlot m g).col = h.col := rfl
@[simp] theorem Hub.tick_modSlot (h : Hub) (m : Nat) (g : PlanSlot → PlanSlot) : (h.modSlot m g).tick = h.tick := rfl
@[simp] theorem Hub.grade_modSlot (h : Hub) (m : Nat) (g : PlanSlot → PlanSlot) : (h.modSlot m g).grade = h.grade := rfl
@[simp] theorem Hub.tun_modSlot (h : Hub) (m : Nat) (g : PlanSlot → PlanSlot) : (h.modSlot m g).tun = h.tun := rfl
@[simp] theorem Hub.links_modSlot (h : Hub) (m : Nat) (g : PlanSlot → PlanSlot) : (h.modSlot m g).links = h.links := rfl
@[simp] theorem Hub.hearth_modSlot (h : Hub) (m : Nat) (g : PlanSlot → PlanSlot) : (h.modSlot m g).hearth = h.hearth := rfl
@[simp] theorem Hub.sec_modSlot (h : Hub) (m : Nat) (g : PlanSlot → PlanSlot) : (h.modSlot m g).sec = h.sec := rfl
@[simp] theorem Hub.fence_modSlot (h : Hub) (m : Nat) (g : PlanSlot → PlanSlot) : (h.modSlot m g).fence = h.fence := rfl
@[simp] theorem Hub.fo_modSlot (h : Hub) (m : Nat) (g : PlanSlot → PlanSlot) : (h.modSlot m g).fo = h.fo := rfl
@[simp] theorem Hub.ports_modSlot (h : Hub) (m : Nat) (g : PlanSlot → PlanSlot) : (h.modSlot m g).ports = h.ports := rfl
@[simp] theorem Hub.flash_modSlot (h : Hub) (m : Nat) (g : PlanSlot → PlanSlot) : (h.modSlot m g).flash = h.flash := rfl
@[simp] theorem Hub.lines_modSlot (h : Hub) (m : Nat) (g : PlanSlot → PlanSlot) : (h.modSlot m g).lines = h.lines := rfl
@[simp] theorem Hub.bridge_modSlot (h : Hub) (m : Nat) (g : PlanSlot → PlanSlot) : (h.modSlot m g).bridge = h.bridge := rfl
@[simp] theorem Hub.lp5_modSlot (h : Hub) (m : Nat) (g : PlanSlot → PlanSlot) : (h.modSlot m g).lp5 = h.lp5 := rfl
@[simp] theorem Hub.media_modSlot (h : Hub) (m : Nat) (g : PlanSlot → PlanSlot) : (h.modSlot m g).media = h.media := rfl
@[simp] theorem Hub.power_modSlot (h : Hub) (m : Nat) (g : PlanSlot → PlanSlot) : (h.modSlot m g).power = h.power := rfl
@[simp] theorem Hub.usb_modSlot (h : Hub) (m : Nat) (g : PlanSlot → PlanSlot) : (h.modSlot m g).usb = h.usb := rfl
@[simp] theorem Hub.ctl_modSlot (h : Hub) (m : Nat) (g : PlanSlot → PlanSlot) : (h.modSlot m g).ctl = h.ctl := rfl
@[simp] theorem Hub.out_modSlot (h : Hub) (m : Nat) (g : PlanSlot → PlanSlot) : (h.modSlot m g).out = h.out := rfl
@[simp] theorem Hub.drawn_modSlot (h : Hub) (m : Nat) (g : PlanSlot → PlanSlot) : (h.modSlot m g).drawn = h.drawn := rfl
@[simp] theorem Hub.get_modSlot (h : Hub) (m : Nat) (g : PlanSlot → PlanSlot) (f : Fld) : (h.modSlot m g).get f = h.get f := rfl

/-! modLine. -/

@[simp] theorem Hub.regs_modLine (h : Hub) (n : Nat) (g : LineX → LineX) : (h.modLine n g).regs = h.regs := rfl
@[simp] theorem Hub.col_modLine (h : Hub) (n : Nat) (g : LineX → LineX) : (h.modLine n g).col = h.col := rfl
@[simp] theorem Hub.tick_modLine (h : Hub) (n : Nat) (g : LineX → LineX) : (h.modLine n g).tick = h.tick := rfl
@[simp] theorem Hub.grade_modLine (h : Hub) (n : Nat) (g : LineX → LineX) : (h.modLine n g).grade = h.grade := rfl
@[simp] theorem Hub.tun_modLine (h : Hub) (n : Nat) (g : LineX → LineX) : (h.modLine n g).tun = h.tun := rfl
@[simp] theorem Hub.links_modLine (h : Hub) (n : Nat) (g : LineX → LineX) : (h.modLine n g).links = h.links := rfl
@[simp] theorem Hub.hearth_modLine (h : Hub) (n : Nat) (g : LineX → LineX) : (h.modLine n g).hearth = h.hearth := rfl
@[simp] theorem Hub.sec_modLine (h : Hub) (n : Nat) (g : LineX → LineX) : (h.modLine n g).sec = h.sec := rfl
@[simp] theorem Hub.fence_modLine (h : Hub) (n : Nat) (g : LineX → LineX) : (h.modLine n g).fence = h.fence := rfl
@[simp] theorem Hub.fo_modLine (h : Hub) (n : Nat) (g : LineX → LineX) : (h.modLine n g).fo = h.fo := rfl
@[simp] theorem Hub.ports_modLine (h : Hub) (n : Nat) (g : LineX → LineX) : (h.modLine n g).ports = h.ports := rfl
@[simp] theorem Hub.flash_modLine (h : Hub) (n : Nat) (g : LineX → LineX) : (h.modLine n g).flash = h.flash := rfl
@[simp] theorem Hub.plans_modLine (h : Hub) (n : Nat) (g : LineX → LineX) : (h.modLine n g).plans = h.plans := rfl
@[simp] theorem Hub.bridge_modLine (h : Hub) (n : Nat) (g : LineX → LineX) : (h.modLine n g).bridge = h.bridge := rfl
@[simp] theorem Hub.lp5_modLine (h : Hub) (n : Nat) (g : LineX → LineX) : (h.modLine n g).lp5 = h.lp5 := rfl
@[simp] theorem Hub.media_modLine (h : Hub) (n : Nat) (g : LineX → LineX) : (h.modLine n g).media = h.media := rfl
@[simp] theorem Hub.power_modLine (h : Hub) (n : Nat) (g : LineX → LineX) : (h.modLine n g).power = h.power := rfl
@[simp] theorem Hub.usb_modLine (h : Hub) (n : Nat) (g : LineX → LineX) : (h.modLine n g).usb = h.usb := rfl
@[simp] theorem Hub.ctl_modLine (h : Hub) (n : Nat) (g : LineX → LineX) : (h.modLine n g).ctl = h.ctl := rfl
@[simp] theorem Hub.out_modLine (h : Hub) (n : Nat) (g : LineX → LineX) : (h.modLine n g).out = h.out := rfl
@[simp] theorem Hub.drawn_modLine (h : Hub) (n : Nat) (g : LineX → LineX) : (h.modLine n g).drawn = h.drawn := rfl
@[simp] theorem Hub.get_modLine (h : Hub) (n : Nat) (g : LineX → LineX) (f : Fld) : (h.modLine n g).get f = h.get f := rfl

/-! modTx. -/

@[simp] theorem Hub.regs_modTx (h : Hub) (n : Nat) (g : StorTx → StorTx) : (h.modTx n g).regs = h.regs := rfl
@[simp] theorem Hub.col_modTx (h : Hub) (n : Nat) (g : StorTx → StorTx) : (h.modTx n g).col = h.col := rfl
@[simp] theorem Hub.tick_modTx (h : Hub) (n : Nat) (g : StorTx → StorTx) : (h.modTx n g).tick = h.tick := rfl
@[simp] theorem Hub.grade_modTx (h : Hub) (n : Nat) (g : StorTx → StorTx) : (h.modTx n g).grade = h.grade := rfl
@[simp] theorem Hub.tun_modTx (h : Hub) (n : Nat) (g : StorTx → StorTx) : (h.modTx n g).tun = h.tun := rfl
@[simp] theorem Hub.links_modTx (h : Hub) (n : Nat) (g : StorTx → StorTx) : (h.modTx n g).links = h.links := rfl
@[simp] theorem Hub.hearth_modTx (h : Hub) (n : Nat) (g : StorTx → StorTx) : (h.modTx n g).hearth = h.hearth := rfl
@[simp] theorem Hub.sec_modTx (h : Hub) (n : Nat) (g : StorTx → StorTx) : (h.modTx n g).sec = h.sec := rfl
@[simp] theorem Hub.fence_modTx (h : Hub) (n : Nat) (g : StorTx → StorTx) : (h.modTx n g).fence = h.fence := rfl
@[simp] theorem Hub.fo_modTx (h : Hub) (n : Nat) (g : StorTx → StorTx) : (h.modTx n g).fo = h.fo := rfl
@[simp] theorem Hub.ports_modTx (h : Hub) (n : Nat) (g : StorTx → StorTx) : (h.modTx n g).ports = h.ports := rfl
@[simp] theorem Hub.flash_modTx (h : Hub) (n : Nat) (g : StorTx → StorTx) : (h.modTx n g).flash = h.flash := rfl
@[simp] theorem Hub.plans_modTx (h : Hub) (n : Nat) (g : StorTx → StorTx) : (h.modTx n g).plans = h.plans := rfl
@[simp] theorem Hub.lines_modTx (h : Hub) (n : Nat) (g : StorTx → StorTx) : (h.modTx n g).lines = h.lines := rfl
@[simp] theorem Hub.lp5_modTx (h : Hub) (n : Nat) (g : StorTx → StorTx) : (h.modTx n g).lp5 = h.lp5 := rfl
@[simp] theorem Hub.media_modTx (h : Hub) (n : Nat) (g : StorTx → StorTx) : (h.modTx n g).media = h.media := rfl
@[simp] theorem Hub.power_modTx (h : Hub) (n : Nat) (g : StorTx → StorTx) : (h.modTx n g).power = h.power := rfl
@[simp] theorem Hub.usb_modTx (h : Hub) (n : Nat) (g : StorTx → StorTx) : (h.modTx n g).usb = h.usb := rfl
@[simp] theorem Hub.ctl_modTx (h : Hub) (n : Nat) (g : StorTx → StorTx) : (h.modTx n g).ctl = h.ctl := rfl
@[simp] theorem Hub.out_modTx (h : Hub) (n : Nat) (g : StorTx → StorTx) : (h.modTx n g).out = h.out := rfl
@[simp] theorem Hub.drawn_modTx (h : Hub) (n : Nat) (g : StorTx → StorTx) : (h.modTx n g).drawn = h.drawn := rfl
@[simp] theorem Hub.get_modTx (h : Hub) (n : Nat) (g : StorTx → StorTx) (f : Fld) : (h.modTx n g).get f = h.get f := rfl

/-! modDma. -/

@[simp] theorem Hub.regs_modDma (h : Hub) (c : Nat) (g : DmaX → DmaX) : (h.modDma c g).regs = h.regs := rfl
@[simp] theorem Hub.col_modDma (h : Hub) (c : Nat) (g : DmaX → DmaX) : (h.modDma c g).col = h.col := rfl
@[simp] theorem Hub.tick_modDma (h : Hub) (c : Nat) (g : DmaX → DmaX) : (h.modDma c g).tick = h.tick := rfl
@[simp] theorem Hub.grade_modDma (h : Hub) (c : Nat) (g : DmaX → DmaX) : (h.modDma c g).grade = h.grade := rfl
@[simp] theorem Hub.tun_modDma (h : Hub) (c : Nat) (g : DmaX → DmaX) : (h.modDma c g).tun = h.tun := rfl
@[simp] theorem Hub.links_modDma (h : Hub) (c : Nat) (g : DmaX → DmaX) : (h.modDma c g).links = h.links := rfl
@[simp] theorem Hub.hearth_modDma (h : Hub) (c : Nat) (g : DmaX → DmaX) : (h.modDma c g).hearth = h.hearth := rfl
@[simp] theorem Hub.sec_modDma (h : Hub) (c : Nat) (g : DmaX → DmaX) : (h.modDma c g).sec = h.sec := rfl
@[simp] theorem Hub.fence_modDma (h : Hub) (c : Nat) (g : DmaX → DmaX) : (h.modDma c g).fence = h.fence := rfl
@[simp] theorem Hub.fo_modDma (h : Hub) (c : Nat) (g : DmaX → DmaX) : (h.modDma c g).fo = h.fo := rfl
@[simp] theorem Hub.ports_modDma (h : Hub) (c : Nat) (g : DmaX → DmaX) : (h.modDma c g).ports = h.ports := rfl
@[simp] theorem Hub.flash_modDma (h : Hub) (c : Nat) (g : DmaX → DmaX) : (h.modDma c g).flash = h.flash := rfl
@[simp] theorem Hub.plans_modDma (h : Hub) (c : Nat) (g : DmaX → DmaX) : (h.modDma c g).plans = h.plans := rfl
@[simp] theorem Hub.lines_modDma (h : Hub) (c : Nat) (g : DmaX → DmaX) : (h.modDma c g).lines = h.lines := rfl
@[simp] theorem Hub.bridge_modDma (h : Hub) (c : Nat) (g : DmaX → DmaX) : (h.modDma c g).bridge = h.bridge := rfl
@[simp] theorem Hub.lp5_modDma (h : Hub) (c : Nat) (g : DmaX → DmaX) : (h.modDma c g).lp5 = h.lp5 := rfl
@[simp] theorem Hub.power_modDma (h : Hub) (c : Nat) (g : DmaX → DmaX) : (h.modDma c g).power = h.power := rfl
@[simp] theorem Hub.usb_modDma (h : Hub) (c : Nat) (g : DmaX → DmaX) : (h.modDma c g).usb = h.usb := rfl
@[simp] theorem Hub.ctl_modDma (h : Hub) (c : Nat) (g : DmaX → DmaX) : (h.modDma c g).ctl = h.ctl := rfl
@[simp] theorem Hub.out_modDma (h : Hub) (c : Nat) (g : DmaX → DmaX) : (h.modDma c g).out = h.out := rfl
@[simp] theorem Hub.drawn_modDma (h : Hub) (c : Nat) (g : DmaX → DmaX) : (h.modDma c g).drawn = h.drawn := rfl
@[simp] theorem Hub.get_modDma (h : Hub) (c : Nat) (g : DmaX → DmaX) (f : Fld) : (h.modDma c g).get f = h.get f := rfl

/-! modHead. -/

@[simp] theorem Hub.regs_modHead (h : Hub) (n : Nat) (g : HeadX → HeadX) : (h.modHead n g).regs = h.regs := rfl
@[simp] theorem Hub.col_modHead (h : Hub) (n : Nat) (g : HeadX → HeadX) : (h.modHead n g).col = h.col := rfl
@[simp] theorem Hub.tick_modHead (h : Hub) (n : Nat) (g : HeadX → HeadX) : (h.modHead n g).tick = h.tick := rfl
@[simp] theorem Hub.grade_modHead (h : Hub) (n : Nat) (g : HeadX → HeadX) : (h.modHead n g).grade = h.grade := rfl
@[simp] theorem Hub.tun_modHead (h : Hub) (n : Nat) (g : HeadX → HeadX) : (h.modHead n g).tun = h.tun := rfl
@[simp] theorem Hub.links_modHead (h : Hub) (n : Nat) (g : HeadX → HeadX) : (h.modHead n g).links = h.links := rfl
@[simp] theorem Hub.hearth_modHead (h : Hub) (n : Nat) (g : HeadX → HeadX) : (h.modHead n g).hearth = h.hearth := rfl
@[simp] theorem Hub.sec_modHead (h : Hub) (n : Nat) (g : HeadX → HeadX) : (h.modHead n g).sec = h.sec := rfl
@[simp] theorem Hub.fence_modHead (h : Hub) (n : Nat) (g : HeadX → HeadX) : (h.modHead n g).fence = h.fence := rfl
@[simp] theorem Hub.fo_modHead (h : Hub) (n : Nat) (g : HeadX → HeadX) : (h.modHead n g).fo = h.fo := rfl
@[simp] theorem Hub.ports_modHead (h : Hub) (n : Nat) (g : HeadX → HeadX) : (h.modHead n g).ports = h.ports := rfl
@[simp] theorem Hub.flash_modHead (h : Hub) (n : Nat) (g : HeadX → HeadX) : (h.modHead n g).flash = h.flash := rfl
@[simp] theorem Hub.plans_modHead (h : Hub) (n : Nat) (g : HeadX → HeadX) : (h.modHead n g).plans = h.plans := rfl
@[simp] theorem Hub.lines_modHead (h : Hub) (n : Nat) (g : HeadX → HeadX) : (h.modHead n g).lines = h.lines := rfl
@[simp] theorem Hub.bridge_modHead (h : Hub) (n : Nat) (g : HeadX → HeadX) : (h.modHead n g).bridge = h.bridge := rfl
@[simp] theorem Hub.lp5_modHead (h : Hub) (n : Nat) (g : HeadX → HeadX) : (h.modHead n g).lp5 = h.lp5 := rfl
@[simp] theorem Hub.power_modHead (h : Hub) (n : Nat) (g : HeadX → HeadX) : (h.modHead n g).power = h.power := rfl
@[simp] theorem Hub.usb_modHead (h : Hub) (n : Nat) (g : HeadX → HeadX) : (h.modHead n g).usb = h.usb := rfl
@[simp] theorem Hub.ctl_modHead (h : Hub) (n : Nat) (g : HeadX → HeadX) : (h.modHead n g).ctl = h.ctl := rfl
@[simp] theorem Hub.out_modHead (h : Hub) (n : Nat) (g : HeadX → HeadX) : (h.modHead n g).out = h.out := rfl
@[simp] theorem Hub.drawn_modHead (h : Hub) (n : Nat) (g : HeadX → HeadX) : (h.modHead n g).drawn = h.drawn := rfl
@[simp] theorem Hub.get_modHead (h : Hub) (n : Nat) (g : HeadX → HeadX) (f : Fld) : (h.modHead n g).get f = h.get f := rfl

/-! modStage. -/

@[simp] theorem Hub.regs_modStage (h : Hub) (n : Nat) (g : StageX → StageX) : (h.modStage n g).regs = h.regs := rfl
@[simp] theorem Hub.col_modStage (h : Hub) (n : Nat) (g : StageX → StageX) : (h.modStage n g).col = h.col := rfl
@[simp] theorem Hub.tick_modStage (h : Hub) (n : Nat) (g : StageX → StageX) : (h.modStage n g).tick = h.tick := rfl
@[simp] theorem Hub.grade_modStage (h : Hub) (n : Nat) (g : StageX → StageX) : (h.modStage n g).grade = h.grade := rfl
@[simp] theorem Hub.tun_modStage (h : Hub) (n : Nat) (g : StageX → StageX) : (h.modStage n g).tun = h.tun := rfl
@[simp] theorem Hub.links_modStage (h : Hub) (n : Nat) (g : StageX → StageX) : (h.modStage n g).links = h.links := rfl
@[simp] theorem Hub.hearth_modStage (h : Hub) (n : Nat) (g : StageX → StageX) : (h.modStage n g).hearth = h.hearth := rfl
@[simp] theorem Hub.sec_modStage (h : Hub) (n : Nat) (g : StageX → StageX) : (h.modStage n g).sec = h.sec := rfl
@[simp] theorem Hub.fence_modStage (h : Hub) (n : Nat) (g : StageX → StageX) : (h.modStage n g).fence = h.fence := rfl
@[simp] theorem Hub.fo_modStage (h : Hub) (n : Nat) (g : StageX → StageX) : (h.modStage n g).fo = h.fo := rfl
@[simp] theorem Hub.ports_modStage (h : Hub) (n : Nat) (g : StageX → StageX) : (h.modStage n g).ports = h.ports := rfl
@[simp] theorem Hub.flash_modStage (h : Hub) (n : Nat) (g : StageX → StageX) : (h.modStage n g).flash = h.flash := rfl
@[simp] theorem Hub.plans_modStage (h : Hub) (n : Nat) (g : StageX → StageX) : (h.modStage n g).plans = h.plans := rfl
@[simp] theorem Hub.lines_modStage (h : Hub) (n : Nat) (g : StageX → StageX) : (h.modStage n g).lines = h.lines := rfl
@[simp] theorem Hub.bridge_modStage (h : Hub) (n : Nat) (g : StageX → StageX) : (h.modStage n g).bridge = h.bridge := rfl
@[simp] theorem Hub.lp5_modStage (h : Hub) (n : Nat) (g : StageX → StageX) : (h.modStage n g).lp5 = h.lp5 := rfl
@[simp] theorem Hub.media_modStage (h : Hub) (n : Nat) (g : StageX → StageX) : (h.modStage n g).media = h.media := rfl
@[simp] theorem Hub.usb_modStage (h : Hub) (n : Nat) (g : StageX → StageX) : (h.modStage n g).usb = h.usb := rfl
@[simp] theorem Hub.ctl_modStage (h : Hub) (n : Nat) (g : StageX → StageX) : (h.modStage n g).ctl = h.ctl := rfl
@[simp] theorem Hub.out_modStage (h : Hub) (n : Nat) (g : StageX → StageX) : (h.modStage n g).out = h.out := rfl
@[simp] theorem Hub.drawn_modStage (h : Hub) (n : Nat) (g : StageX → StageX) : (h.modStage n g).drawn = h.drawn := rfl
@[simp] theorem Hub.get_modStage (h : Hub) (n : Nat) (g : StageX → StageX) (f : Fld) : (h.modStage n g).get f = h.get f := rfl

/-! modCc. -/

@[simp] theorem Hub.regs_modCc (h : Hub) (n : Nat) (g : CcX → CcX) : (h.modCc n g).regs = h.regs := rfl
@[simp] theorem Hub.col_modCc (h : Hub) (n : Nat) (g : CcX → CcX) : (h.modCc n g).col = h.col := rfl
@[simp] theorem Hub.tick_modCc (h : Hub) (n : Nat) (g : CcX → CcX) : (h.modCc n g).tick = h.tick := rfl
@[simp] theorem Hub.grade_modCc (h : Hub) (n : Nat) (g : CcX → CcX) : (h.modCc n g).grade = h.grade := rfl
@[simp] theorem Hub.tun_modCc (h : Hub) (n : Nat) (g : CcX → CcX) : (h.modCc n g).tun = h.tun := rfl
@[simp] theorem Hub.links_modCc (h : Hub) (n : Nat) (g : CcX → CcX) : (h.modCc n g).links = h.links := rfl
@[simp] theorem Hub.hearth_modCc (h : Hub) (n : Nat) (g : CcX → CcX) : (h.modCc n g).hearth = h.hearth := rfl
@[simp] theorem Hub.sec_modCc (h : Hub) (n : Nat) (g : CcX → CcX) : (h.modCc n g).sec = h.sec := rfl
@[simp] theorem Hub.fence_modCc (h : Hub) (n : Nat) (g : CcX → CcX) : (h.modCc n g).fence = h.fence := rfl
@[simp] theorem Hub.fo_modCc (h : Hub) (n : Nat) (g : CcX → CcX) : (h.modCc n g).fo = h.fo := rfl
@[simp] theorem Hub.ports_modCc (h : Hub) (n : Nat) (g : CcX → CcX) : (h.modCc n g).ports = h.ports := rfl
@[simp] theorem Hub.flash_modCc (h : Hub) (n : Nat) (g : CcX → CcX) : (h.modCc n g).flash = h.flash := rfl
@[simp] theorem Hub.plans_modCc (h : Hub) (n : Nat) (g : CcX → CcX) : (h.modCc n g).plans = h.plans := rfl
@[simp] theorem Hub.lines_modCc (h : Hub) (n : Nat) (g : CcX → CcX) : (h.modCc n g).lines = h.lines := rfl
@[simp] theorem Hub.bridge_modCc (h : Hub) (n : Nat) (g : CcX → CcX) : (h.modCc n g).bridge = h.bridge := rfl
@[simp] theorem Hub.lp5_modCc (h : Hub) (n : Nat) (g : CcX → CcX) : (h.modCc n g).lp5 = h.lp5 := rfl
@[simp] theorem Hub.media_modCc (h : Hub) (n : Nat) (g : CcX → CcX) : (h.modCc n g).media = h.media := rfl
@[simp] theorem Hub.usb_modCc (h : Hub) (n : Nat) (g : CcX → CcX) : (h.modCc n g).usb = h.usb := rfl
@[simp] theorem Hub.ctl_modCc (h : Hub) (n : Nat) (g : CcX → CcX) : (h.modCc n g).ctl = h.ctl := rfl
@[simp] theorem Hub.out_modCc (h : Hub) (n : Nat) (g : CcX → CcX) : (h.modCc n g).out = h.out := rfl
@[simp] theorem Hub.drawn_modCc (h : Hub) (n : Nat) (g : CcX → CcX) : (h.modCc n g).drawn = h.drawn := rfl
@[simp] theorem Hub.get_modCc (h : Hub) (n : Nat) (g : CcX → CcX) (f : Fld) : (h.modCc n g).get f = h.get f := rfl

/-! modAdc. -/

@[simp] theorem Hub.regs_modAdc (h : Hub) (n : Nat) (g : AdcChan → AdcChan) : (h.modAdc n g).regs = h.regs := rfl
@[simp] theorem Hub.col_modAdc (h : Hub) (n : Nat) (g : AdcChan → AdcChan) : (h.modAdc n g).col = h.col := rfl
@[simp] theorem Hub.tick_modAdc (h : Hub) (n : Nat) (g : AdcChan → AdcChan) : (h.modAdc n g).tick = h.tick := rfl
@[simp] theorem Hub.grade_modAdc (h : Hub) (n : Nat) (g : AdcChan → AdcChan) : (h.modAdc n g).grade = h.grade := rfl
@[simp] theorem Hub.tun_modAdc (h : Hub) (n : Nat) (g : AdcChan → AdcChan) : (h.modAdc n g).tun = h.tun := rfl
@[simp] theorem Hub.links_modAdc (h : Hub) (n : Nat) (g : AdcChan → AdcChan) : (h.modAdc n g).links = h.links := rfl
@[simp] theorem Hub.hearth_modAdc (h : Hub) (n : Nat) (g : AdcChan → AdcChan) : (h.modAdc n g).hearth = h.hearth := rfl
@[simp] theorem Hub.sec_modAdc (h : Hub) (n : Nat) (g : AdcChan → AdcChan) : (h.modAdc n g).sec = h.sec := rfl
@[simp] theorem Hub.fence_modAdc (h : Hub) (n : Nat) (g : AdcChan → AdcChan) : (h.modAdc n g).fence = h.fence := rfl
@[simp] theorem Hub.fo_modAdc (h : Hub) (n : Nat) (g : AdcChan → AdcChan) : (h.modAdc n g).fo = h.fo := rfl
@[simp] theorem Hub.ports_modAdc (h : Hub) (n : Nat) (g : AdcChan → AdcChan) : (h.modAdc n g).ports = h.ports := rfl
@[simp] theorem Hub.flash_modAdc (h : Hub) (n : Nat) (g : AdcChan → AdcChan) : (h.modAdc n g).flash = h.flash := rfl
@[simp] theorem Hub.plans_modAdc (h : Hub) (n : Nat) (g : AdcChan → AdcChan) : (h.modAdc n g).plans = h.plans := rfl
@[simp] theorem Hub.lines_modAdc (h : Hub) (n : Nat) (g : AdcChan → AdcChan) : (h.modAdc n g).lines = h.lines := rfl
@[simp] theorem Hub.bridge_modAdc (h : Hub) (n : Nat) (g : AdcChan → AdcChan) : (h.modAdc n g).bridge = h.bridge := rfl
@[simp] theorem Hub.lp5_modAdc (h : Hub) (n : Nat) (g : AdcChan → AdcChan) : (h.modAdc n g).lp5 = h.lp5 := rfl
@[simp] theorem Hub.media_modAdc (h : Hub) (n : Nat) (g : AdcChan → AdcChan) : (h.modAdc n g).media = h.media := rfl
@[simp] theorem Hub.usb_modAdc (h : Hub) (n : Nat) (g : AdcChan → AdcChan) : (h.modAdc n g).usb = h.usb := rfl
@[simp] theorem Hub.ctl_modAdc (h : Hub) (n : Nat) (g : AdcChan → AdcChan) : (h.modAdc n g).ctl = h.ctl := rfl
@[simp] theorem Hub.out_modAdc (h : Hub) (n : Nat) (g : AdcChan → AdcChan) : (h.modAdc n g).out = h.out := rfl
@[simp] theorem Hub.drawn_modAdc (h : Hub) (n : Nat) (g : AdcChan → AdcChan) : (h.modAdc n g).drawn = h.drawn := rfl
@[simp] theorem Hub.get_modAdc (h : Hub) (n : Nat) (g : AdcChan → AdcChan) (f : Fld) : (h.modAdc n g).get f = h.get f := rfl

/-! modUsbDev. -/

@[simp] theorem Hub.regs_modUsbDev (h : Hub) (d : Nat) (g : UsbDevX → UsbDevX) : (h.modUsbDev d g).regs = h.regs := rfl
@[simp] theorem Hub.col_modUsbDev (h : Hub) (d : Nat) (g : UsbDevX → UsbDevX) : (h.modUsbDev d g).col = h.col := rfl
@[simp] theorem Hub.tick_modUsbDev (h : Hub) (d : Nat) (g : UsbDevX → UsbDevX) : (h.modUsbDev d g).tick = h.tick := rfl
@[simp] theorem Hub.grade_modUsbDev (h : Hub) (d : Nat) (g : UsbDevX → UsbDevX) : (h.modUsbDev d g).grade = h.grade := rfl
@[simp] theorem Hub.tun_modUsbDev (h : Hub) (d : Nat) (g : UsbDevX → UsbDevX) : (h.modUsbDev d g).tun = h.tun := rfl
@[simp] theorem Hub.links_modUsbDev (h : Hub) (d : Nat) (g : UsbDevX → UsbDevX) : (h.modUsbDev d g).links = h.links := rfl
@[simp] theorem Hub.hearth_modUsbDev (h : Hub) (d : Nat) (g : UsbDevX → UsbDevX) : (h.modUsbDev d g).hearth = h.hearth := rfl
@[simp] theorem Hub.sec_modUsbDev (h : Hub) (d : Nat) (g : UsbDevX → UsbDevX) : (h.modUsbDev d g).sec = h.sec := rfl
@[simp] theorem Hub.fence_modUsbDev (h : Hub) (d : Nat) (g : UsbDevX → UsbDevX) : (h.modUsbDev d g).fence = h.fence := rfl
@[simp] theorem Hub.fo_modUsbDev (h : Hub) (d : Nat) (g : UsbDevX → UsbDevX) : (h.modUsbDev d g).fo = h.fo := rfl
@[simp] theorem Hub.ports_modUsbDev (h : Hub) (d : Nat) (g : UsbDevX → UsbDevX) : (h.modUsbDev d g).ports = h.ports := rfl
@[simp] theorem Hub.flash_modUsbDev (h : Hub) (d : Nat) (g : UsbDevX → UsbDevX) : (h.modUsbDev d g).flash = h.flash := rfl
@[simp] theorem Hub.plans_modUsbDev (h : Hub) (d : Nat) (g : UsbDevX → UsbDevX) : (h.modUsbDev d g).plans = h.plans := rfl
@[simp] theorem Hub.lines_modUsbDev (h : Hub) (d : Nat) (g : UsbDevX → UsbDevX) : (h.modUsbDev d g).lines = h.lines := rfl
@[simp] theorem Hub.bridge_modUsbDev (h : Hub) (d : Nat) (g : UsbDevX → UsbDevX) : (h.modUsbDev d g).bridge = h.bridge := rfl
@[simp] theorem Hub.lp5_modUsbDev (h : Hub) (d : Nat) (g : UsbDevX → UsbDevX) : (h.modUsbDev d g).lp5 = h.lp5 := rfl
@[simp] theorem Hub.media_modUsbDev (h : Hub) (d : Nat) (g : UsbDevX → UsbDevX) : (h.modUsbDev d g).media = h.media := rfl
@[simp] theorem Hub.power_modUsbDev (h : Hub) (d : Nat) (g : UsbDevX → UsbDevX) : (h.modUsbDev d g).power = h.power := rfl
@[simp] theorem Hub.ctl_modUsbDev (h : Hub) (d : Nat) (g : UsbDevX → UsbDevX) : (h.modUsbDev d g).ctl = h.ctl := rfl
@[simp] theorem Hub.out_modUsbDev (h : Hub) (d : Nat) (g : UsbDevX → UsbDevX) : (h.modUsbDev d g).out = h.out := rfl
@[simp] theorem Hub.drawn_modUsbDev (h : Hub) (d : Nat) (g : UsbDevX → UsbDevX) : (h.modUsbDev d g).drawn = h.drawn := rfl
@[simp] theorem Hub.get_modUsbDev (h : Hub) (d : Nat) (g : UsbDevX → UsbDevX) (f : Fld) : (h.modUsbDev d g).get f = h.get f := rfl

/-! modUsbPort. -/

@[simp] theorem Hub.regs_modUsbPort (h : Hub) (p : Nat) (g : UsbPortX → UsbPortX) : (h.modUsbPort p g).regs = h.regs := rfl
@[simp] theorem Hub.col_modUsbPort (h : Hub) (p : Nat) (g : UsbPortX → UsbPortX) : (h.modUsbPort p g).col = h.col := rfl
@[simp] theorem Hub.tick_modUsbPort (h : Hub) (p : Nat) (g : UsbPortX → UsbPortX) : (h.modUsbPort p g).tick = h.tick := rfl
@[simp] theorem Hub.grade_modUsbPort (h : Hub) (p : Nat) (g : UsbPortX → UsbPortX) : (h.modUsbPort p g).grade = h.grade := rfl
@[simp] theorem Hub.tun_modUsbPort (h : Hub) (p : Nat) (g : UsbPortX → UsbPortX) : (h.modUsbPort p g).tun = h.tun := rfl
@[simp] theorem Hub.links_modUsbPort (h : Hub) (p : Nat) (g : UsbPortX → UsbPortX) : (h.modUsbPort p g).links = h.links := rfl
@[simp] theorem Hub.hearth_modUsbPort (h : Hub) (p : Nat) (g : UsbPortX → UsbPortX) : (h.modUsbPort p g).hearth = h.hearth := rfl
@[simp] theorem Hub.sec_modUsbPort (h : Hub) (p : Nat) (g : UsbPortX → UsbPortX) : (h.modUsbPort p g).sec = h.sec := rfl
@[simp] theorem Hub.fence_modUsbPort (h : Hub) (p : Nat) (g : UsbPortX → UsbPortX) : (h.modUsbPort p g).fence = h.fence := rfl
@[simp] theorem Hub.fo_modUsbPort (h : Hub) (p : Nat) (g : UsbPortX → UsbPortX) : (h.modUsbPort p g).fo = h.fo := rfl
@[simp] theorem Hub.ports_modUsbPort (h : Hub) (p : Nat) (g : UsbPortX → UsbPortX) : (h.modUsbPort p g).ports = h.ports := rfl
@[simp] theorem Hub.flash_modUsbPort (h : Hub) (p : Nat) (g : UsbPortX → UsbPortX) : (h.modUsbPort p g).flash = h.flash := rfl
@[simp] theorem Hub.plans_modUsbPort (h : Hub) (p : Nat) (g : UsbPortX → UsbPortX) : (h.modUsbPort p g).plans = h.plans := rfl
@[simp] theorem Hub.lines_modUsbPort (h : Hub) (p : Nat) (g : UsbPortX → UsbPortX) : (h.modUsbPort p g).lines = h.lines := rfl
@[simp] theorem Hub.bridge_modUsbPort (h : Hub) (p : Nat) (g : UsbPortX → UsbPortX) : (h.modUsbPort p g).bridge = h.bridge := rfl
@[simp] theorem Hub.lp5_modUsbPort (h : Hub) (p : Nat) (g : UsbPortX → UsbPortX) : (h.modUsbPort p g).lp5 = h.lp5 := rfl
@[simp] theorem Hub.media_modUsbPort (h : Hub) (p : Nat) (g : UsbPortX → UsbPortX) : (h.modUsbPort p g).media = h.media := rfl
@[simp] theorem Hub.power_modUsbPort (h : Hub) (p : Nat) (g : UsbPortX → UsbPortX) : (h.modUsbPort p g).power = h.power := rfl
@[simp] theorem Hub.ctl_modUsbPort (h : Hub) (p : Nat) (g : UsbPortX → UsbPortX) : (h.modUsbPort p g).ctl = h.ctl := rfl
@[simp] theorem Hub.out_modUsbPort (h : Hub) (p : Nat) (g : UsbPortX → UsbPortX) : (h.modUsbPort p g).out = h.out := rfl
@[simp] theorem Hub.drawn_modUsbPort (h : Hub) (p : Nat) (g : UsbPortX → UsbPortX) : (h.modUsbPort p g).drawn = h.drawn := rfl
@[simp] theorem Hub.get_modUsbPort (h : Hub) (p : Nat) (g : UsbPortX → UsbPortX) (f : Fld) : (h.modUsbPort p g).get f = h.get f := rfl

/-! modCtl. -/

@[simp] theorem Hub.regs_modCtl (h : Hub) (g : Ctl → Ctl) : (h.modCtl g).regs = h.regs := rfl
@[simp] theorem Hub.col_modCtl (h : Hub) (g : Ctl → Ctl) : (h.modCtl g).col = h.col := rfl
@[simp] theorem Hub.tick_modCtl (h : Hub) (g : Ctl → Ctl) : (h.modCtl g).tick = h.tick := rfl
@[simp] theorem Hub.grade_modCtl (h : Hub) (g : Ctl → Ctl) : (h.modCtl g).grade = h.grade := rfl
@[simp] theorem Hub.tun_modCtl (h : Hub) (g : Ctl → Ctl) : (h.modCtl g).tun = h.tun := rfl
@[simp] theorem Hub.links_modCtl (h : Hub) (g : Ctl → Ctl) : (h.modCtl g).links = h.links := rfl
@[simp] theorem Hub.hearth_modCtl (h : Hub) (g : Ctl → Ctl) : (h.modCtl g).hearth = h.hearth := rfl
@[simp] theorem Hub.sec_modCtl (h : Hub) (g : Ctl → Ctl) : (h.modCtl g).sec = h.sec := rfl
@[simp] theorem Hub.fence_modCtl (h : Hub) (g : Ctl → Ctl) : (h.modCtl g).fence = h.fence := rfl
@[simp] theorem Hub.fo_modCtl (h : Hub) (g : Ctl → Ctl) : (h.modCtl g).fo = h.fo := rfl
@[simp] theorem Hub.ports_modCtl (h : Hub) (g : Ctl → Ctl) : (h.modCtl g).ports = h.ports := rfl
@[simp] theorem Hub.flash_modCtl (h : Hub) (g : Ctl → Ctl) : (h.modCtl g).flash = h.flash := rfl
@[simp] theorem Hub.plans_modCtl (h : Hub) (g : Ctl → Ctl) : (h.modCtl g).plans = h.plans := rfl
@[simp] theorem Hub.lines_modCtl (h : Hub) (g : Ctl → Ctl) : (h.modCtl g).lines = h.lines := rfl
@[simp] theorem Hub.bridge_modCtl (h : Hub) (g : Ctl → Ctl) : (h.modCtl g).bridge = h.bridge := rfl
@[simp] theorem Hub.lp5_modCtl (h : Hub) (g : Ctl → Ctl) : (h.modCtl g).lp5 = h.lp5 := rfl
@[simp] theorem Hub.media_modCtl (h : Hub) (g : Ctl → Ctl) : (h.modCtl g).media = h.media := rfl
@[simp] theorem Hub.power_modCtl (h : Hub) (g : Ctl → Ctl) : (h.modCtl g).power = h.power := rfl
@[simp] theorem Hub.usb_modCtl (h : Hub) (g : Ctl → Ctl) : (h.modCtl g).usb = h.usb := rfl
@[simp] theorem Hub.out_modCtl (h : Hub) (g : Ctl → Ctl) : (h.modCtl g).out = h.out := rfl
@[simp] theorem Hub.drawn_modCtl (h : Hub) (g : Ctl → Ctl) : (h.modCtl g).drawn = h.drawn := rfl
@[simp] theorem Hub.get_modCtl (h : Hub) (g : Ctl → Ctl) (f : Fld) : (h.modCtl g).get f = h.get f := rfl

/-! Entries. -/

theorem k1_inj (a b : Nat) : k1 a = k1 b ↔ a = b := by simp [k1]

theorem Hub.link_modLink (h : Hub) (c x : Nat) (g : LinkEnd → LinkEnd) :
    (h.modLink c g).link x = if c = x then g (h.link c) else h.link x :=
  (tabGet_tabSet _ _ _ _ _).trans (by simp only [k1_inj]; rfl)

theorem Hub.egress_modEgress (h : Hub) (c x : Nat) (g : Egress → Egress) :
    (h.modEgress c g).egress x = if c = x then g (h.egress c) else h.egress x :=
  (tabGet_tabSet _ _ _ _ _).trans (by simp only [k1_inj]; rfl)

theorem Hub.tunX_modTunX (h : Hub) (t x : Nat) (g : TunX → TunX) :
    (h.modTunX t g).tunX x = if t = x then g (h.tunX t) else h.tunX x :=
  (tabGet_tabSet _ _ _ _ _).trans (by simp only [k1_inj]; rfl)

theorem Hub.failover_modFailover (h : Hub) (c x : Nat) (g : FailoverSt → FailoverSt) :
    (h.modFailover c g).failover x = if c = x then g (h.failover c) else h.failover x :=
  (tabGet_tabSet _ _ _ _ _).trans (by simp only [k1_inj]; rfl)

theorem Hub.port_modPort (h : Hub) (c x : Nat) (g : PortLanes → PortLanes) :
    (h.modPort c g).port x = if c = x then g (h.port c) else h.port x :=
  (tabGet_tabSet _ _ _ _ _).trans (by simp only [k1_inj]; rfl)

theorem Hub.stk_modStk (h : Hub) (c x : Nat) (g : StrikePort → StrikePort) :
    (h.modStk c g).stk x = if c = x then g (h.stk c) else h.stk x :=
  (tabGet_tabSet _ _ _ _ _).trans (by simp only [k1_inj]; rfl)

theorem Hub.slot_modSlot (h : Hub) (m x : Nat) (g : PlanSlot → PlanSlot) :
    (h.modSlot m g).slot x = if m = x then g (h.slot m) else h.slot x :=
  (tabGet_tabSet _ _ _ _ _).trans (by simp only [k1_inj]; rfl)

theorem Hub.line_modLine (h : Hub) (n x : Nat) (g : LineX → LineX) :
    (h.modLine n g).line x = if n = x then g (h.line n) else h.line x :=
  (tabGet_tabSet _ _ _ _ _).trans (by simp only [k1_inj]; rfl)

theorem Hub.dmaX_modDma (h : Hub) (c x : Nat) (g : DmaX → DmaX) :
    (h.modDma c g).dmaX x = if c = x then g (h.dmaX c) else h.dmaX x :=
  (tabGet_tabSet _ _ _ _ _).trans (by simp only [k1_inj]; rfl)

theorem Hub.head_modHead (h : Hub) (n x : Nat) (g : HeadX → HeadX) :
    (h.modHead n g).head x = if n = x then g (h.head n) else h.head x :=
  (tabGet_tabSet _ _ _ _ _).trans (by simp only [k1_inj]; rfl)

theorem Hub.stage_modStage (h : Hub) (n x : Nat) (g : StageX → StageX) :
    (h.modStage n g).stage x = if n = x then g (h.stage n) else h.stage x :=
  (tabGet_tabSet _ _ _ _ _).trans (by simp only [k1_inj]; rfl)

theorem Hub.cc_modCc (h : Hub) (n x : Nat) (g : CcX → CcX) :
    (h.modCc n g).cc x = if n = x then g (h.cc n) else h.cc x :=
  (tabGet_tabSet _ _ _ _ _).trans (by simp only [k1_inj]; rfl)

theorem Hub.usbDev_modUsbDev (h : Hub) (d x : Nat) (g : UsbDevX → UsbDevX) :
    (h.modUsbDev d g).usbDev x = if d = x then g (h.usbDev d) else h.usbDev x :=
  (tabGet_tabSet _ _ _ _ _).trans (by simp only [k1_inj]; rfl)

theorem Hub.usbPort_modUsbPort (h : Hub) (p x : Nat) (g : UsbPortX → UsbPortX) :
    (h.modUsbPort p g).usbPort x = if p = x then g (h.usbPort p) else h.usbPort x :=
  (tabGet_tabSet _ _ _ _ _).trans (by simp only [k1_inj]; rfl)

theorem Hub.queue_modQueue (h : Hub) (t d t' d' : Nat) (g : Queue → Queue) :
    (h.modQueue t d g).queue t' d' = if t = t' ∧ d = d' then g (h.queue t d) else h.queue t' d' :=
  (tabGet_tabSet _ _ _ _ _).trans (by simp only [k2, Key.mk.injEq, true_and]; rfl)

end Sys2Proof.Machine
end

