-- ==== Sys2Proof/Laws/Receiving.lean ====
section
/-!
SUPPORT. What one block can do when it arrives: a control block built from its fields (Tables 4-2 and 4-3) is recognised by
its type and handed to that type's own operation, with nothing before or after it.
-/

namespace Sys2Proof.Machine

open Sys2Proof

@[simp] theorem ackBlock_type (k a n : Nat) (nak : Bool) : ackBlock k a n nak % 256 = btAck := by
  unfold ackBlock btAck; omega

@[simp] theorem creditBlock_type (ctl iso rtx blk : Nat) : creditBlock ctl iso rtx blk % 256 = btCredit := by
  unfold creditBlock btCredit; omega

@[simp] theorem csyncBlock_type (iso blk : Nat) : csyncBlock iso blk % 256 = btCsync := by
  unfold csyncBlock btCsync; omega

@[simp] theorem probeBlock_type (pid : Nat) (resp : Bool) : probeBlock pid resp % 256 = btProbe := by
  unfold probeBlock btProbe; omega

@[simp] theorem luEndWord_type (u : TxLu) : luEndWord u % 256 = btLuEnd := by
  unfold luEndWord btLuEnd; omega

/-- One block of the stream, on a link that carries it. -/
theorem Hub.streamArrives_one (h : Hub) (c : Nat) (b : Block) (hf : h.linkFlows c = true) :
    h.streamArrives c [b] = h.blockArrives c b := by
  simp [Hub.streamArrives, Hub.each, Hub.when, hf]

/-- A control block of one of the types that a link unit or an answer uses goes to the operation of its type. -/
theorem Hub.blockArrives_ctrl (h : Hub) (c l w : Nat)
    (ht : [btLuEnd, btAck, btCredit, btCsync, btProbe].contains (w % 256) = true) :
    h.blockArrives c { lane := l, hdr := hdrCtrl, w := w } =
      if w % 256 = btLuEnd then h.luEnds c w
      else if w % 256 = btAck then h.ackArrives c w
      else if w % 256 = btCredit then h.creditArrives c w
      else if w % 256 = btCsync then h.csyncArrives c w
      else h.probeArrives c w := by
  simp only [List.contains_cons, List.contains_nil, Bool.or_false, Bool.or_eq_true, beq_iff_eq] at ht
  rcases ht with ht | ht | ht | ht | ht <;>
    simp [Hub.blockArrives, blockError, blockTypes, badHdr, isType, ht, hdrCtrl, hdrData, btLuEnd, btAck, btCredit, btCsync,
      btProbe, btIdle, btStrike, btRowfill, btAlign, btTrain, btEidle]

end Sys2Proof.Machine
end

