-- ==== Sys2Proof/Laws/Sending.lean ====
section
/-!
SUPPORT. What sending can do: rows, whatever they carry, change nothing of the link layer. So a frame's start changes it by
its own account alone.
-/

namespace Sys2Proof.Machine

open Sys2Proof

/-- A fold of changes that each keep a part keeps it. -/
theorem Hub.each_keeps {α β : Type} (p : Hub → β) (l : List α) (f : Hub → α → Hub) (hf : ∀ h a, p (f h a) = p h) (h : Hub) :
    p (h.each l f) = p h := by
  unfold Hub.each
  induction l generalizing h with
  | nil => rfl
  | cons a l ih => rw [List.foldl_cons, ih, hf]

@[simp] theorem Hub.links_inc (h : Hub) (f : Fld) : (h.inc f).links = h.links := rfl

theorem Hub.links_driveLanes (h : Hub) (c : Nat) (l : List (Nat × Nat × Nat)) (plain : Bool) (a : List (Nat × Nat × Nat)) :
    (l.foldl (fun (a : List (Nat × Nat × Nat) × Hub) b =>
      ((a.1 ++ [(a.2.driveLane c b.1 b.2.1 b.2.2 plain).1]), (a.2.driveLane c b.1 b.2.1 b.2.2 plain).2)) (a, h)).2.links
      = h.links := by
  induction l generalizing h a with
  | nil => rfl
  | cons b l ih => rw [List.foldl_cons, ih]; rfl

@[simp] theorem Hub.links_driveRow (h : Hub) (c : Nat) (l : List (Nat × Nat × Nat)) (plain : Bool) :
    (h.driveRow c l plain).links = h.links := Hub.links_driveLanes h c l plain []

@[simp] theorem Hub.links_streamRow (h : Hub) (c : Nat) (bs : List (Nat × Nat)) : (h.streamRow c bs).links = h.links :=
  Hub.links_driveRow h c _ _

@[simp] theorem Hub.links_streamRows (h : Hub) (c fuel : Nat) (bs : List (Nat × Nat)) :
    (h.streamRows c fuel bs).links = h.links := by
  induction fuel generalizing h bs with
  | zero => rfl
  | succ n ih =>
    cases bs with
    | nil => rfl
    | cons b bs =>
      rw [Hub.streamRows, ih, Hub.links_streamRow]
      exact fun h => List.cons_ne_nil _ _ h

@[simp] theorem Hub.links_zeroRows (h : Hub) (c : Nat) (ls : List Nat) (n : Nat) : (h.zeroRows c ls n).links = h.links :=
  Hub.each_keeps Hub.links _ _ (fun h _ => Hub.links_driveRow h c _ _) h

@[simp] theorem Hub.links_exitBurst (h : Hub) (c : Nat) : (h.exitBurst c).links = h.links :=
  Hub.each_keeps Hub.links _ _ (fun h _ => (Hub.links_zeroRows _ c _ _).trans (Hub.links_driveRow h c _ _)) h

@[simp] theorem Hub.links_obsEvent (h : Hub) (r s : Nat) : (h.obsEvent r s).links = h.links := by
  unfold Hub.obsEvent
  refine Hub.each_keeps Hub.links (List.range 8) _ (fun h a => ?_) h
  split <;> rfl

@[simp] theorem Hub.links_strikeHead (h : Hub) (c : Nat) : (h.strikeHead c).links = h.links := by
  unfold Hub.strikeHead
  dsimp only
  split
  · rfl
  · split
    · rfl
    · split <;> simp

@[simp] theorem Hub.links_strikeRows (h : Hub) (c : Nat) : (h.strikeRows c).links = h.links :=
  Hub.each_keeps Hub.links _ _ (fun h _ => Hub.links_strikeHead h c) h

@[simp] theorem Hub.links_sendAlign (h : Hub) (c : Nat) : (h.sendAlign c).links = h.links := by
  unfold Hub.sendAlign
  simp only [Hub.links_modPort, Hub.links_driveRow]
  exact Hub.each_keeps Hub.links (h.lanesUsed c) (fun h l => h.modLane c l (fun x => { x with bip := 0 })) (fun _ _ => rfl) h

@[simp] theorem Hub.links_idleStates (h : Hub) (c : Nat) : (h.idleStates c).links = h.links := by
  unfold Hub.idleStates
  refine Hub.each_keeps Hub.links _ _ (fun h a => ?_) h
  split <;> rfl

@[simp] theorem Hub.links_idleExit (h : Hub) (c : Nat) : (h.idleExit c).links = h.links := by
  unfold Hub.idleExit
  split <;> simp

/-- Blocks that are sent change nothing of the link layer. -/
@[simp] theorem Hub.links_sendBlocks (h : Hub) (c : Nat) (bs : List (Nat × Nat)) : (h.sendBlocks c bs).links = h.links := by
  unfold Hub.sendBlocks
  dsimp only
  split <;> simp

@[simp] theorem Hub.links_sendCtrl (h : Hub) (c w : Nat) : (h.sendCtrl c w).links = h.links := by
  unfold Hub.sendCtrl
  simp

/-! The account of credits (R132). -/

/-- What does not touch the link layer leaves a class's account. -/
theorem Hub.txc_of_links (h h' : Hub) (e : h'.links = h.links) (c k : Nat) : h'.txc c k = h.txc c k := by
  unfold Hub.txc Hub.link
  rw [e]

theorem Hub.txc_modLink (h : Hub) (c k : Nat) (g : LinkEnd → LinkEnd) (hg : ∀ l, (g l).tx = l.tx) :
    (h.modLink c g).txc c k = h.txc c k := by
  unfold Hub.txc
  rw [Hub.link_modLink, if_pos rfl, hg]

theorem Hub.txc_setTxc (h : Hub) (c k k' : Nat) (x : TxClass) :
    (h.setTxc c k x).txc c k' = if k = k' then x else h.txc c k' := by
  unfold Hub.txc Hub.setTxc
  rw [Hub.link_modLink, if_pos rfl]
  simp only [tabGet_tabSet, k1_inj]

theorem Hub.cc_closeUnit (h : Hub) (c k : Nat) (fs : Bool) (b l : List Nat) (bad : Bool) (k' : Nat) :
    ((h.closeUnit c k fs b l bad).txc c k').cc = (h.txc c k').cc := by
  unfold Hub.closeUnit
  dsimp only
  rw [Hub.txc_of_links (e := Hub.links_emit _ _), Hub.txc_of_links (e := Hub.links_sendBlocks _ _ _),
    Hub.txc_modLink (hg := fun l => by rfl), Hub.txc_setTxc]
  split
  · next e => subst e; rfl
  · rfl

theorem Hub.cc_fillUnit (h : Hub) (c : Nat) (x : TxFrame) (fs : Bool) (b : List Nat) (k : Nat) :
    ((h.fillUnit c x fs b).txc c k).cc = (h.txc c k).cc := by
  unfold Hub.fillUnit Hub.placed
  dsimp only
  split
  · rfl
  · split
    · rw [Hub.txc_modLink (hg := fun l => by rfl), Hub.cc_closeUnit]
    · rw [Hub.txc_modLink (hg := fun l => by rfl), Hub.txc_of_links (e := Hub.links_sendBlocks _ _ _),
        Hub.txc_modLink (hg := fun l => by rfl)]

/-- Placing a link unit consumes no credit: a frame's start does. -/
theorem Hub.cc_newLu (h : Hub) (c k k' : Nat) : ((h.newLu c k).txc c k').cc = (h.txc c k').cc := by
  unfold Hub.newLu
  split
  · rfl
  · split
    · exact Hub.cc_fillUnit _ _ _ _ _ _
    · rfl

end Sys2Proof.Machine
end

