-- ==== Sys2Proof/Laws/State.lean ====
section
/-!
SUPPORT. What the shared operations of the state leave alone: the queue of waiting commands, always, and memory, where
the operation is the hub's own.
-/

namespace Sys2Proof.Machine

open Sys2Proof

/-! Record updates of the state. -/

@[simp] theorem State.hub_setPending (s : State) (q : List Instr) : ({ s with pending := q } : State).hub = s.hub := rfl
@[simp] theorem State.mem_setPending (s : State) (q : List Instr) : ({ s with pending := q } : State).mem = s.mem := rfl
@[simp] theorem State.pending_setHub (s : State) (h : Hub) : ({ s with hub := h } : State).pending = s.pending := rfl
@[simp] theorem State.mem_setHub (s : State) (h : Hub) : ({ s with hub := h } : State).mem = s.mem := rfl
@[simp] theorem State.pending_setMem (s : State) (m : Memory) : ({ s with mem := m } : State).pending = s.pending := rfl
@[simp] theorem State.hub_setMem (s : State) (m : Memory) : ({ s with mem := m } : State).hub = s.hub := rfl

/-! The LP5 controller. -/

@[simp] theorem State.lp5Serve1_pending (s : State) (a : Lp5Acc) : (s.lp5Serve1 a).pending = s.pending := by
  unfold State.lp5Serve1; dsimp only; split <;> rfl

/-- A read changes no byte. -/
theorem State.lp5Serve1_read_mem (s : State) (a : Lp5Acc) (h : a.wr = false) : (s.lp5Serve1 a).mem = s.mem := by
  unfold State.lp5Serve1; simp [h]

theorem foldl_lp5Serve1_pending (l : List Lp5Acc) (s : State) : (l.foldl State.lp5Serve1 s).pending = s.pending := by
  induction l generalizing s with
  | nil => rfl
  | cons a l ih => rw [List.foldl_cons, ih, State.lp5Serve1_pending]

@[simp] theorem State.lp5Serve_pending (s : State) : s.lp5Serve.pending = s.pending := by
  unfold State.lp5Serve; dsimp only; split
  · rfl
  · rw [foldl_lp5Serve1_pending]

/-- With no access queued, the controller changes no byte. -/
theorem State.lp5Serve_idle_mem (s : State) (h : s.hub.lp5.queue = []) : s.lp5Serve.mem = s.mem := by
  unfold State.lp5Serve; dsimp only; split
  · rfl
  · simp [h]

/-! Commands. -/

@[simp] theorem State.act_pending (s : State) (f : Hub → Hub) : (s.act f).pending = s.pending := by
  unfold State.act
  exact (State.lp5Serve_pending _).trans (State.pending_setHub s _)

/-- A command that acts on the hub alone stores nothing of its own: bytes change only through accesses that the
controller serves at its end. -/
theorem State.act_mem (s : State) (f : Hub → Hub) (h : ((f s.hub).settleFrom s.hub).lp5.queue = []) :
    (s.act f).mem = s.mem := by
  unfold State.act
  generalize (f s.hub).settleFrom s.hub = x at h ⊢
  exact State.lp5Serve_idle_mem _ h

@[simp] theorem State.actAll_pending (s : State) (f : State → State) : (s.actAll f).pending = (f s).pending := by
  unfold State.actAll
  exact (State.lp5Serve_pending _).trans (State.pending_setHub (f s) _)

@[simp] theorem State.run_pending (s : State) (m op : Nat) (f : Hub → Ans × Hub) : (s.run m op f).pending = s.pending := by
  unfold State.run; split
  · rfl
  · simp

@[simp] theorem State.runParked_pending (s : State) (m op : Nat) (p : Parked) (f : Hub → Ans × Hub) :
    (s.runParked m op p f).pending = s.pending := by
  unfold State.runParked; split
  · rfl
  · simp

@[simp] theorem State.runFree_pending (s : State) (m op : Nat) (p : Parked) (f : Hub → Ans × Hub) :
    (s.runFree m op p f).pending = s.pending := by simp [State.runFree]

@[simp] theorem State.idle_pending (s : State) : s.idle.pending = s.pending := rfl
@[simp] theorem State.idle_mem (s : State) : s.idle.mem = s.mem := rfl

end Sys2Proof.Machine
end

