-- ==== Sys2Proof/Machine/Balls.lean ====
section
/-!
DEFINITION. Ball states outside lit and idle (R644, Table 22-11): a view of the state, which no command reads.
-/

namespace Sys2Proof.Machine

open Sys2Proof

/-- The rows of Table 22-11. -/
inductive BallGroup where
  | stages | feedWarnN | faultN | trigOut | lanes | usbData | lp5 | obs | tdo
deriving DecidableEq, Repr

/-- What a group of balls does. `held` keeps what it drove before; `ruled` follows the rule that the table names. -/
inductive BallState where
  | undriven | low | released | highZ | electricalIdle | noPullUp | off | selfRefresh | csLow (resetN : Bool) | held | ruled
deriving DecidableEq, Repr

/-- The columns of Table 22-11. The first, VAUX only, lies inside POWER_ON. -/
inductive BallColumn where
  | starting | warm | banked | ember
deriving DecidableEq, Repr

/-- The column in force; none in lit, idle and entering. A return shows the column that it comes from (assumption 202). -/
def Hub.ballColumn (h : Hub) : Option BallColumn :=
  if h.psIs psBanked then some .banked
  else if h.psIs psEmber then some .ember
  else if h.psIs psReturning then some (if h.ctl.fromEmber then .ember else .banked)
  else if h.ctl.boot = 1 then some .starting
  else if h.ctl.resetLow then some .warm
  else none

/-- Table 22-11. -/
def ballTable (g : BallGroup) (c : BallColumn) : BallState :=
  match g, c with
  | .stages, .starting => .low
  | .stages, .warm => .ruled
  | .stages, .banked => .ruled
  | .stages, .ember => .undriven
  | .feedWarnN, .starting => .released
  | .feedWarnN, .warm => .held
  | .feedWarnN, .banked => .ruled
  | .feedWarnN, .ember => .released
  | .faultN, .starting => .released
  | .faultN, .warm => .held
  | .faultN, .banked => .held
  | .faultN, .ember => .held
  | .trigOut, .starting => .highZ
  | .trigOut, .warm => .held
  | .trigOut, .banked => .ruled
  | .trigOut, .ember => .undriven
  | .lanes, .starting => .electricalIdle
  | .lanes, .warm => .held
  | .lanes, .banked => .off
  | .lanes, .ember => .undriven
  | .usbData, .starting => .noPullUp
  | .usbData, .warm => .held
  | .usbData, .banked => .noPullUp
  | .usbData, .ember => .undriven
  | .lp5, .starting => .csLow false
  | .lp5, .warm => .held
  | .lp5, .banked => .selfRefresh
  | .lp5, .ember => .csLow true
  | .obs, .starting => .low
  | .obs, .warm => .ruled
  | .obs, .banked => .low
  | .obs, .ember => .undriven
  | .tdo, .starting => .highZ
  | .tdo, .warm => .ruled
  | .tdo, .banked => .low
  | .tdo, .ember => .undriven

/-- What a group of balls does now; none where the group works as its chapter says. -/
def Hub.ballState (h : Hub) (g : BallGroup) : Option BallState := h.ballColumn.map (ballTable g)

end Sys2Proof.Machine
end

