-- ==== Sys2Proof/Tests/Slice0.lean ====
section
/-!
SUPPORT. The model's own tests: a command for each check of well-formedness, the manual's worked examples, and a witness
for each clause of each statement that has hypotheses.
-/

namespace Sys2Proof.Tests

open Sys2Proof Sys2Proof.Machine

/-! Well-formedness: for each check of each command, a command that this check alone refuses. -/

theorem test_wf_StartupResetAndFaultLine : ([
    .powerOn 65536 0 false 0, .powerOn 0 65536 false 0, .powerOn 0 0 false 4, .firmwareReady 256 none,
    .firmwareReady 0 (some (3, false, 0)), .brownOut 65536 0 false 0, .brownOut 0 65536 false 0,
    .brownOut 0 0 false 4, .supplyOutOfRange 65536 0 false 0, .supplyOutOfRange 0 65536 false 0,
    .supplyOutOfRange 0 0 false 4, .errorLineRise 256 0, .errorLineRise 0 65536, .quench 256,
    .regionStatusClear 8 0 0 0 false, .regionStatusClear 0 8 0 0 false, .regionStatusClear 0 0 (2 ^ 32) 0 false,
    .regionStatusClear 0 0 0 65536 false, .registerWrite 8 0 [] 0 false, .registerWrite 0 (2 ^ 27) [] 0 false,
    .registerWrite 0 0 [] 65536 false, .queueCounterReadClear 8 0 0 0, .queueCounterReadClear 0 (2 ^ 27) 0 0,
    .queueCounterReadClear 0 0 0 65536, .errorLineFall 256
    ] : List Instr).all (fun i => !i.wf) = true := by decide

theorem test_wf_TickAndTime : ([
    .timeRequest 4 [], .timeReport 4 []
    ] : List Instr).all (fun i => !i.wf) = true := by decide

theorem test_wf_Hearth : ([
    .frameIngress 25 0 (some { tid := 1, gen := 0, cls := 0 }) 0, .frameIngress 1 4 none 0,
    .frameIngress 21 0 none 0, .frameIngress 1 0 (some { tid := 1, gen := 0, cls := 0 }) 0,
    .frameIngress 21 0 (some { tid := 4096, gen := 0, cls := 0 }) 0, .fenceRelease 25, .holdTimeout 25 0,
    .holdTimeout 1 4, .ctWaitTimeout 4096 0, .ctWaitTimeout 0 2, .scrubSweep (0, [131072]) [],
    .scrubSweep (0, []) [8234], .egressSelect 25 0, .egressSelect 1 4, .bellowsReady 4096 0, .bellowsReady 0 2,
    .guardExpiry 25, .schStarve 25, .drainComplete 4096, .drainTimeout 4096, .quarantineEnd 4096,
    .cutThroughCell 4096 0 1, .cutThroughCell 0 2 1, .cutThroughCell 0 0 25
    ] : List Instr).all (fun i => !i.wf) = true := by decide

theorem test_wf_LinkTrainingAndUnit_a : ([
    .signalDetect 21, .trainReceived 21 0 0, .trainReceived 1 5 0, .fomMeasurement 21 0 (0, 0),
    .fomMeasurement 1 5 (0, 0), .capTimeout 21, .eqTimeout 21, .readyTimeout 21,
    .linkUnitReceived 21 0 0 false 0 0 [] none, .linkUnitReceived 1 4 0 false 0 0 [] none,
    .linkUnitReceived 1 0 (2 ^ 15) false 0 0 [] none, .linkUnitReceived 1 0 0 false 64 0 [] none,
    .linkUnitReceived 1 0 0 false 0 (2 ^ 32) [] none,
    .linkUnitReceived 1 0 0 false 0 0 [{ lane := 5, hdr := 2, w := 0 }] none,
    .linkUnitReceived 1 0 0 false 0 0 [] (some (5, 2)), .linkUnitReceived 1 0 0 false 0 0 [] (some (0, 4)),
    .ackReceived 21 0 0, .ackReceived 1 4 0, .ackReceived 1 0 (2 ^ 15), .nakReceived 21 0 0 0,
    .nakReceived 1 4 0 0, .nakReceived 1 0 (2 ^ 15) 0, .nakReceived 1 0 0 (2 ^ 15), .creditReceived 21 0 0 0 0,
    .creditReceived 1 (2 ^ 14) 0 0 0, .creditReceived 1 0 (2 ^ 14) 0 0, .creditReceived 1 0 0 (2 ^ 14) 0,
    .creditReceived 1 0 0 0 (2 ^ 14), .csyncReceived 21 0 0, .csyncReceived 1 (2 ^ 14) 0
    ] : List Instr).all (fun i => !i.wf) = true := by decide

theorem test_wf_LinkTrainingAndUnit_b : ([
    .csyncReceived 1 0 (2 ^ 14), .probeReceived 21 0 false, .probeReceived 1 (2 ^ 16) false,
    .alignReceived 21 [] false [], .alignReceived 1 [] false [{ lane := 5, hdr := 2, w := 0 }],
    .eidleReceived 21, .ackPeriod 21, .nakResend 21 0, .nakResend 1 4, .replayTimeout 21 0, .replayTimeout 1 4,
    .creditPeriod 21, .csyncPeriod 21, .linkSilent 21
    ] : List Instr).all (fun i => !i.wf) = true := by decide

theorem test_wf_LinkSendingAttachAndLane : ([
    .linkUnitBoundary 21 0, .linkUnitBoundary 1 4, .ident 4 0 [], .ident 0 16 [], .proof 4 [], .proofTimeout 4,
    .electricalIdleEntry 21, .electricalIdleExit 21 false [], .lossOfSignal 21 0, .lossOfSignal 1 5,
    .lossOfLock 21 (0, 0), .lossOfLock 1 (5, 0), .lossOfLock 1 (0, 65), .lossOfAlignment 21 0,
    .lossOfAlignment 1 5, .failedEye 21 0, .failedEye 1 5, .spareMism 21 [], .spareMism 1 [(some 4, 1)],
    .temperUndo 21 0, .temperUndo 1 5, .laneRestoreSwitch 21, .linkUnitWithoutLuEnd 21
    ] : List Instr).all (fun i => !i.wf) = true := by decide

theorem test_wf_StrikeAndFailover : ([
    .trigInEdge 32 false 0, .strikeReceived 21 [], .strikeReceived 1 [{ lane := 5, hdr := 2, w := 0 }],
    .strikeRowSend 21, .pulseEnd 32, .pulseCrossingAck 256, .summaryReconcile 4 0 [], .summaryReconcile 0 5 [],
    .summaryTimeout 4 0, .summaryTimeout 0 (2 ^ 48), .creditStall 4 0, .creditStall 0 4, .retrainWaitExpiry 4,
    .autoReturn 4, .tunnelReturn 4096 0, .tunnelReturn 0 2, .crossingPulse 256
    ] : List Instr).all (fun i => !i.wf) = true := by decide

theorem test_wf_LinePortAndBridge : ([
    .lineAttachCondition 16, .lineAttachConditionEnd 16, .nodeinfo 16 [], .nodeProof 16 [], .depart 16,
    .helloTimeout 16, .lineRetrainWait 16, .nodeBusRd 16 { tid := 1, gen := 0, cls := 0 } false,
    .nodeBusRd 0 { tid := 4096, gen := 0, cls := 0 } false, .nodeBusWr 16 { tid := 1, gen := 0, cls := 0 },
    .nodeBusWr 0 { tid := 4096, gen := 0, cls := 0 }, .nodeBusPwr 16 { tid := 1, gen := 0, cls := 0 },
    .nodeBusPwr 0 { tid := 4096, gen := 0, cls := 0 }, .nodeBusResponse 16 { tid := 1, gen := 0, cls := 0 },
    .nodeBusResponse 0 { tid := 4096, gen := 0, cls := 0 }, .nodeBusTimeout 16,
    .storageRead { tid := 4096, gen := 0, cls := 0 }, .storageWrite { tid := 4096, gen := 0, cls := 0 },
    .holdExpiry 4096 0 0, .holdExpiry 0 16 0, .holdExpiry 0 0 65536, .nodeHoldExpiry 16 0 0,
    .nodeHoldExpiry 0 (2 ^ 40) 0, .nodeHoldExpiry 0 0 257, .telemetryUpdate { tid := 4096, gen := 0, cls := 0 }
    ] : List Instr).all (fun i => !i.wf) = true := by decide

theorem test_wf_DisplayAndMemoryController : ([
    .latchPoint 8, .flipArm 8 0 0 false 0 false, .flipArm 0 8 0 false 0 false, .flipArm 0 0 65536 false 0 false,
    .flipArm 0 0 0 false 65536 false, .flipAddressWrite 8 0 0 false 0 0 false,
    .flipAddressWrite 0 8 0 false 0 0 false, .flipAddressWrite 0 0 3 false 0 0 false,
    .flipAddressWrite 0 0 0 false (2 ^ 32) 0 false, .flipAddressWrite 0 0 0 false 0 65536 false,
    .pixelPllLock 8, .underflow 8, .rasterLineSend 8, .witnessBandCompare 8 none, .irqHpd 2 false false,
    .hpdUnplug 2, .lp5Access 11 0 false 0 0 [], .lp5Access 0 3 false 0 0 [], .lp5Access 0 0 false (2 ^ 40) 0 [],
    .lp5Refresh 32, .lp5Mr4Read 256, .hpdPlug 2, .lp5ReadReturn 11 0, .lp5ReadReturn 0 3
    ] : List Instr).all (fun i => !i.wf) = true := by decide

theorem test_wf_Dma : ([
    .dmaMove 64 0, .dmaMove 0 3, .dmaLoop 64, .dmaEndloop 64, .dmaWait 64, .dmaSignal 64, .dmaFence 64,
    .dmaEnd 64, .dmaWriteResponse 64, .dmaRequest 104, .dmaWaitTimeout 64, .doorbellStart 8 0 0 false,
    .doorbellStart 0 64 0 false, .doorbellStart 0 0 65536 false, .doorbellStop 8 0 0 false,
    .doorbellStop 0 64 0 false, .doorbellStop 0 0 65536 false
    ] : List Instr).all (fun i => !i.wf) = true := by decide

theorem test_wf_Usb_a : ([
    .usbBusReset 2 false false, .usbSuspend 2, .usbHostResume 2 false, .usbRemoteWake 3 false, .setAddress 3 0,
    .setAddress 0 128, .setConfiguration 3 0, .setConfiguration 0 256, .setInterface 3 0 0,
    .setInterface 0 256 0, .setInterface 0 0 256, .logSelect 3 0, .logSelect 0 256, .setPortFeaturePortPower 17,
    .clearPortFeaturePortPower 17, .setPortFeaturePortReset 17, .setPortFeaturePortSuspend 17,
    .clearPortFeaturePortSuspend 17, .usbManagementTransfer 3 none,
    .usbManagementTransfer 0 (some { tid := 4096, gen := 0, cls := 0 }), .usbOverCurrent 17, .vbusLoss 17,
    .downstreamConnect 17, .downstreamDisconnect 17, .downstreamRemoteWake 17, .portResetComplete 17 0,
    .portResetComplete 0 3, .downstreamResumeEnd 17, .setFeature 3 0, .setFeature 0 65536
    ] : List Instr).all (fun i => !i.wf) = true := by decide

theorem test_wf_Usb_b : ([
    .clearPortFeatureChange 17 0, .clearPortFeatureChange 0 5, .upstreamVbusValid 2 false
    ] : List Instr).all (fun i => !i.wf) = true := by decide

theorem test_wf_CableAndPd : ([
    .ccCombinationChange 16 0 0 false 0, .ccCombinationChange 0 4 0 false 0, .ccCombinationChange 0 0 4 false 0,
    .ccCombinationChange 0 0 0 false 4, .ccDebounceExpiry 16, .ccDetach 16, .detachInTransition 16,
    .errorRecoveryEnd 16, .vconnOverCurrent 16, .pdMessageReceived 16 0 0 [] false,
    .pdMessageReceived 0 7 0 [] false, .pdMessageReceived 0 0 65536 [] false, .goodcrcTimeout 16,
    .hardReset 16 false, .hardResetSourceOff 16, .hardResetRecover 16, .hardResetSinkTimeout 16,
    .fastRoleSwapSignal 16, .frsSourceOn 16, .frsTimeout 16, .frsPartnerGone 16, .eprKeepaliveTimeout 16,
    .policyTimerExpiry 16 0, .policyTimerExpiry 0 4, .ccPollWindow 16 false, .vbusLevelReached 16 0,
    .vbusLevelReached 0 4, .sinkVbusLoss 16
    ] : List Instr).all (fun i => !i.wf) = true := by decide

theorem test_wf_PowerStage : ([
    .feedHealthChange 2 false false, .feedInrushEnd 2, .feedBarExpiry 2, .seatingDebounce 16,
    .insertionDelay 16, .startRequest 16, .budgetAdmit [(38, 0)], .budgetAdmit [(0, 4096)],
    .stageRemoval 16 false false, .inrushEnd 16, .inrushTimeout 18, .breakerTrip 18, .instantTrip 18 false,
    .ocTrip 18, .gateFail 18, .ovpTrip 16, .powerGood 16 false, .retryExpiry 16, .triesReset 16, .startStall 16,
    .vsetTimeout 16
    ] : List Instr).all (fun i => !i.wf) = true := by decide

theorem test_wf_PowerStateAndSmbus : ([
    .wake 16 0 false, .wake 0 (2 ^ 24) false, .returnStageReady false (some (3, false, 0)) 0,
    .returnStageReady false none 4, .handshakeAnswer 0 false, .handshakeAnswer 12 false, .doorbell 8 0 0 false,
    .doorbell 0 65536 0 false, .doorbell 0 0 65536 false, .parkedCompletion 8 false,
    .smbusSetPointer 65536 false
    ] : List Instr).all (fun i => !i.wf) = true := by decide

theorem test_wf_SysAndGate : ([
    .sysInfo 8, .sysClaimChallenge 8, .sysClaimProve 8 [], .sysClaimProve 0 [2 ^ 32], .sysClaimRelease 8,
    .sysDeputy 8 0 0, .sysDeputy 0 16 0, .sysDeputy 0 0 65536, .sysResetWarm 8, .sysResetHost 8 0,
    .sysResetHost 0 16, .sysResetPort 8 0, .sysResetPort 0 32, .gateSet 8 0 0 none, .gateSet 0 128 0 none,
    .gateSet 0 0 (2 ^ 32) none, .gateGet 8 0, .gateGet 0 128
    ] : List Instr).all (fun i => !i.wf) = true := by decide

theorem test_wf_TunnelAndPlan : ([
    .tunnelOpen 8 0 [], .tunnelOpen 0 4096 [], .tunnelOpen 0 0 [2 ^ 32], .tunnelClose 8 0 0 false false,
    .tunnelClose 0 4096 0 false false, .tunnelClose 0 0 16 false false, .tunnelModify 8 0 0 [],
    .tunnelModify 0 4096 0 [], .tunnelModify 0 0 16 [], .tunnelModify 0 0 0 [2 ^ 32],
    .tunnelQuery 8 0 0 false false, .tunnelQuery 0 4096 0 false false, .tunnelQuery 0 0 16 false false,
    .planBegin 8, .planStage 8 0 [], .planStage 0 65536 [], .planCheck 8 0, .planCheck 0 65536, .planArm 8 0 0,
    .planArm 0 65536 0, .planArm 0 0 (2 ^ 48), .planAbort 8 0, .planAbort 0 65536, .planStatus 8 false 0,
    .planStatus 0 false 16
    ] : List Instr).all (fun i => !i.wf) = true := by decide

theorem test_wf_PortTickAndTimeSync : ([
    .portTrainConfig 8 0 [], .portTrainConfig 0 32 [], .portTrainConfig 0 0 [2 ^ 32], .portTrainTrain 8 0 [],
    .portTrainTrain 0 32 [], .portTrainTrain 0 0 [2 ^ 32], .portTrainDisable 8 0, .portTrainDisable 0 32,
    .portTrainReturn 8 0, .portTrainReturn 0 32, .portState 8 0 false 0 0, .portState 0 32 false 0 0,
    .portState 0 0 false 256 0, .portState 0 0 false 0 64, .portSpareRestore 8 0 0, .portSpareRestore 0 32 0,
    .portSpareRestore 0 0 8, .portSpareRetire 8 0 0, .portSpareRetire 0 32 0, .portSpareRetire 0 0 8,
    .portRoute 8 [], .tickSet 8 0 0, .tickSet 0 256 0, .tickSet 0 0 (2 ^ 48), .timeSync 8 0 0, .timeSync 0 2 0,
    .timeSync 0 0 4, .timeSyncStep 8 0 0 0, .timeSyncStep 0 2 0 0, .timeSyncStep 0 0 4 0
    ] : List Instr).all (fun i => !i.wf) = true := by decide

theorem test_wf_Pwr : ([
    .pwrFeedConfig 8 0 [], .pwrFeedConfig 0 2 [], .pwrFeedConfig 0 0 [2 ^ 32], .pwrFeedSelect 8 0 0,
    .pwrFeedSelect 0 (2 ^ 32) 0, .pwrFeedSelect 0 0 (2 ^ 32), .pwrFeedQuery 8 0, .pwrFeedQuery 0 2,
    .pwrPortConfig 8 0 [], .pwrPortConfig 0 16 [], .pwrPortConfig 0 0 [2 ^ 32], .pwrPortQuery 8 0,
    .pwrPortQuery 0 16, .pwrPortRestart 8 0, .pwrPortRestart 0 16, .pwrPortOff 8 0, .pwrPortOff 0 16,
    .pwrPortVset 8 0 0, .pwrPortVset 0 16 0, .pwrPortVset 0 0 4096, .pwrCurve 8 0 [], .pwrCurve 0 32 [],
    .pwrCurve 0 0 [2 ^ 32], .pwrBudget 8 0, .pwrBudget 0 (2 ^ 32)
    ] : List Instr).all (fun i => !i.wf) = true := by decide

theorem test_wf_PdMailbox_a : ([
    .pdTx 8 0 [], .pdTx 0 16 [], .pdTx 0 0 [2 ^ 32], .pdRx 8 0 false 0 false, .pdRx 0 16 false 0 false,
    .pdRx 0 0 false 16 false, .pdTimerSet 8 0 0, .pdTimerSet 0 16 0, .pdTimerSet 0 0 (2 ^ 32),
    .pdTimerStart 8 0 0 0, .pdTimerStart 0 16 0 0, .pdTimerStart 0 0 4 0, .pdTimerStart 0 0 0 65536,
    .pdTimerCancel 8 0 0, .pdTimerCancel 0 16 0, .pdTimerCancel 0 0 4, .pdRoleClaim 8 0, .pdRoleClaim 0 16,
    .pdRoleRelease 8 0, .pdRoleRelease 0 16, .pdRoleRp 8 0 0, .pdRoleRp 0 16 0, .pdRoleRp 0 0 4096,
    .pdRoleDrole 8 0 0, .pdRoleDrole 0 16 0, .pdRoleDrole 0 0 4096, .pdRoleVconnOn 8 0, .pdRoleVconnOn 0 16,
    .pdRoleVconnOff 8 0, .pdRoleVconnOff 0 16
    ] : List Instr).all (fun i => !i.wf) = true := by decide

theorem test_wf_PdMailbox_b : ([
    .pdRoleSwapToSink 8 0, .pdRoleSwapToSink 0 16, .pdRoleSwapToSource 8 0, .pdRoleSwapToSource 0 16,
    .pdRoleFrsArm 8 0 0, .pdRoleFrsArm 0 16 0, .pdRoleFrsArm 0 0 4096, .pdRoleEpr 8 0 0, .pdRoleEpr 0 16 0,
    .pdRoleEpr 0 0 4096, .pdRoleErrorRecovery 8 0, .pdRoleErrorRecovery 0 16, .pdRoleVconnIlim 8 0 0,
    .pdRoleVconnIlim 0 16 0, .pdRoleVconnIlim 0 0 4096
    ] : List Instr).all (fun i => !i.wf) = true := by decide

theorem test_wf_RasterAndDmaMailbox : ([
    .rasterSetup 8 0 [] none, .rasterSetup 0 8 [] none, .rasterSetup 0 0 [2 ^ 32] none, .rasterSetupQuery 8 0 0,
    .rasterSetupQuery 0 8 0, .rasterSetupQuery 0 0 2, .rasterWitnessSet 8 0 false 0,
    .rasterWitnessSet 0 8 false 0, .rasterWitnessSet 0 0 false 4, .rasterWitnessResume 8 0,
    .rasterWitnessResume 0 8, .rasterWitnessQuery 8 0, .rasterWitnessQuery 0 8, .dmaLoad 8 0 0 false false 0 0,
    .dmaLoad 0 64 0 false false 0 0, .dmaLoad 0 0 8 false false 0 0, .dmaLoad 0 0 0 false false (2 ^ 40) 0,
    .dmaLoad 0 0 0 false false 0 (2 ^ 32), .dmaStart 8 0, .dmaStart 0 64, .dmaStop 8 0 false,
    .dmaStop 0 64 false, .dmaStopQuery 8 0, .dmaStopQuery 0 64
    ] : List Instr).all (fun i => !i.wf) = true := by decide

theorem test_wf_UsbAndFaultMailbox_a : ([
    .usbCarve 8 [], .usbFuncItems 8 0 0 0, .usbFuncItems 0 128 0 0, .usbFuncItems 0 0 (2 ^ 32) 0,
    .usbFuncItems 0 0 0 (2 ^ 32), .usbFuncVerbosity 8 0 0, .usbFuncVerbosity 0 128 0,
    .usbFuncVerbosity 0 0 4096, .usbFuncQuery 8 0, .usbFuncQuery 0 128, .usbConnectChallenge 8,
    .usbConnectProve 8 0 [], .usbConnectProve 0 2048 [], .usbConnectProve 0 0 [2 ^ 32], .usbConnectDisconnect 8,
    .faultRead 8 0 0 0 0, .faultRead 0 4 0 0 0, .faultRead 0 0 32 0 0, .faultRead 0 0 0 256 0,
    .faultRead 0 0 0 0 64, .faultConfig 8 none [], .faultForceSet 8 0 0, .faultForceSet 0 256 0,
    .faultForceSet 0 0 65536, .faultForceClear 8 0, .faultForceClear 0 256, .faultForcePulse 8 0 0,
    .faultForcePulse 0 256 0, .faultForcePulse 0 0 65536, .faultClear 8 none false false []
    ] : List Instr).all (fun i => !i.wf) = true := by decide

theorem test_wf_UsbAndFaultMailbox_b : ([
    .faultClear 0 none false false [2 ^ 32]
    ] : List Instr).all (fun i => !i.wf) = true := by decide

theorem test_wf_KeyStateAndTestMailbox : ([
    .keyDerive 8 0 0 0 0 0, .keyDerive 0 128 0 0 0 0, .keyDerive 0 0 16 0 0 0, .keyDerive 0 0 0 32 0 0,
    .keyDerive 0 0 0 0 32 0, .keyDerive 0 0 0 0 0 (2 ^ 32), .keyDeriveAdvance 8 0, .keyDeriveAdvance 0 8,
    .keyRevoke 8 0, .keyRevoke 0 128, .keyCheck 8 0 [], .keyCheck 0 128 [], .keyCheck 0 0 [2 ^ 32],
    .keyCheckPatch 8 0 0, .keyCheckPatch 0 (2 ^ 40) 0, .keyCheckPatch 0 0 (2 ^ 32), .stateEnter 8 0 false,
    .stateEnter 0 4 false, .stateEnterConfig 8 0 0, .stateEnterConfig 0 (2 ^ 32) 0,
    .stateEnterConfig 0 0 (2 ^ 32), .stateEnterQuery 8, .testObsSet 8 0 0 0 false, .testObsSet 0 8 0 0 false,
    .testObsSet 0 0 8 0 false, .testObsSet 0 0 0 256 false, .testObsQuery 8
    ] : List Instr).all (fun i => !i.wf) = true := by decide

theorem test_wf_TestPort : ([
    .memacc false (2 ^ 40) 0, .memacc false 0 (2 ^ 32)
    ] : List Instr).all (fun i => !i.wf) = true := by decide

/-- Each field of a frame header. -/
theorem test_wf_frame : ([
    { tid := 4096, gen := 0, cls := 0 }, { tid := 1, gen := 16, cls := 0 }, { tid := 1, gen := 0, cls := 8 },
    { tid := 1, gen := 0, cls := 0, seq := 65536 }, { tid := 1, gen := 0, cls := 0, tag := 65536 },
    { tid := 1, gen := 0, cls := 0, op := 16 }, { tid := 1, gen := 0, cls := 0, status := 16 },
    { tid := 1, gen := 0, cls := 0, rlen := 16384 }, { tid := 1, gen := 0, cls := 0, addr := 2 ^ 64 },
    { tid := 1, gen := 0, cls := 0, nb := some { op := 16, ni := true, status := 0, tag := 0, rlen := 0, addr := 0 } }
    ] : List Frame).all (fun f => !f.wf) = true := by decide

/-- And commands that are well formed, at the bounds. -/
theorem test_wf_holds : ([.quench 255, .ackReceived 20 3 32767,
    .linkUnitReceived 20 3 32767 true 63 (2 ^ 32 - 1) [{ lane := 4, hdr := 3, w := 2 ^ 64 - 1 }] (some (4, 3)), .gateSet 14 127 (2 ^ 32 - 1) none, .planArm 7 65535 (2 ^ 48 - 1),
    .frameIngress 24 0 (some { tid := 4095, gen := 15, cls := 7, seq := 65535 }) 0, .frameIngress 20 3 none 0] : List Instr).all Instr.wf = true := by decide

/-! States of the tests and witnesses. -/

/-- A hub with these register values, no command waiting. -/
def wit (l : List (Fld × Nat)) : State := { State.reset with hub := ({} : Hub).setAll l }

/-- The firmware is ready; trunk D and line port 15 are up, the host's and the service bus are connected. -/
def wUp : State :=
  let h := (wit [(R.psFwrdy, 1), (R.linkState 3, 4), (R.lpState 15, 3), (R.usbUpConn, 1), (R.usbSvcConn, 1),
    (R.usbPortConn 15, 1), (R.laneAutoidle 3, 1), (R.toutMode 31, 1), (fPos 4 0, 0), (fPos 4 4, 4), (fPos 20 0, 0), (R.foCrdEn 3, 1), (R.foState 3, 1),
    (R.foAutoret 3, 1), (R.ttEgr 4095, 4), (R.schGuard 3, 1)]).hub
  let l : PortLanes := { phase := 4, lanes := [(k1 0, { missed := 3, lowRun := 3, step := some (0, true) })] }
  let f : Frame := { tid := 4095, gen := 0, cls := 0 }
  { State.reset with hub := { h with
      ports := [(k1 4, l), (k1 20, l)]
      flash := { h.flash with outs := [(k1 31, { pulse := true })] }
      usb := { h.usb with ports := [(k1 16, { conn := true })], sesDur := some 1 }
      ctl := { h.ctl with resetDue := some 1 }
      power := { h.power with phyOn := true }
      tick := { h.tick with num := 1 }
      links := [(k1 4, { rx := [(k1 2, { nak := some 0 })], csyncDue := true })]
      hearth := { h.hearth with
        queues := [(k2 4095 0, { frames := [{ f := f, cells := 1, ccls := 2 }], active := true })]
        egress := [(k1 24, { guardTicks := 8 })] } } }

/-- The same with a frame that is cut through, a strike event queued at line port 15, and a frame at the bridge. -/
def wMore (idle : Nat) (x : Nat × Frame) : State :=
  let h := wUp.hub.setAll [(R.lpEidleTx 15, idle), (R.lpState 15, 3)]
  let q : QFrame := { f := { tid := 4095, gen := 0, cls := 0, rev := true }, cells := 2, ct := true, written := 1 }
  let e : Strike := { chan := 1, edge := 1, hops := 0, tlow := 0, stseq := 0, toff := 0, late := false }
  { State.reset with hub := { h with
      hearth := { h.hearth with queues := [(k2 4095 1, { frames := [q] })] }
      flash := { h.flash with ports := [(k1 20, { queue := [(0, e)] })] }
      bridge := { h.bridge with inbox := [x] } } }

/-- A frame of storage tunnel 4095, and a telemetry frame. -/
def wStor (op : Nat) : Frame := { tid := 4095, gen := 0, cls := 3, op := op }
def wTel : Frame := { tid := 4095, gen := 0, cls := 6 }

/-- Trunk D is idle and enabled, and has failed over. -/
def wDown : State :=
  let h := (wit [(R.foState 3, 1), (R.foRtrDly 3, 1)]).hub
  { State.reset with hub := { h with ports := [(k1 4, { enabled := true, phase := 1 })] } }

/-- Trunk D has returned, and tunnel 4095 may return to it. -/
def wBack : State :=
  let h := (wit [(R.linkState 3, 4), (R.foState 3, 2), (R.ttFailed 4095, 1), (R.ttOwn 4095, 3), (R.linkHost 3, 3)]).hub
  { State.reset with hub := { h with
      links := [(k1 4, { tx := [(k1 2, { unacked := [⟨2, 0, true, 0, 0, []⟩] })] })]
      tun := { h.tun with x := [(k1 4095, { failTrk := [4] })] }
      fo := [(k1 4, { attached := 65535 })] } }

/-- Line port 15 is a seated board slot whose stage is on. -/
def wSlot : State :=
  let h := (wit [(R.lpKind 15, 1), (R.stgPg 15, 1)]).hub
  { State.reset with hub := { h with power := { h.power with stages := [(k1 15, { cond := true })] } } }

/-- Line port 15 is a cable port whose stage is on. -/
def wCable : State := wit [(R.stgSstate 15, sgOn)]

/-- The LP5 controller sleeps with an access waiting; or is on its way out of sleep. -/
def wSleep (exiting : Bool) : State :=
  let h := (wit [(R.lp5Lpstate, 1)]).hub
  { State.reset with hub := { h with lp5 := { h.lp5 with
      queue := [{ client := clCore, master := 7, wr := false, addr := lp5Base, len := 1 }], exiting := exiting } } }

/-- A node-bus packet. -/
def wNb (op : Nat) : Frame := { tid := 0, gen := 0, cls := 0, nb := some { op := op, ni := true, status := 0, tag := 0, rlen := 0, addr := 0 } }

/-! Worked examples of the manual. -/

/-- Chapter 4, first worked example: the request's four header words. -/
theorem test_frame_words_request :
    frameWords { tid := 0x2C0, gen := 5, cls := 3, ext := true, seq := 0x141, tag := 0x7A10, op := 1, rlen := 512,
                 addr := 0x12000 } = [0x2C057880, 0x00000141, 0x7A101000, 0x08000000] := by decide

/-- The same example: the retry response. -/
theorem test_frame_words_retry :
    frameWords { tid := 0x2C0, gen := 5, cls := 3, retry := true, rev := true, seq := 0xD7, tag := 0x7A10, op := 3 } =
      [0x2C057A20, 0x000000D7, 0x7A103000, 0] := by decide

/-- The same example: the data response costs 3 cells, the request 1. -/
theorem test_frame_cells :
    (ceilDiv (16 + 8 * 0 + 512) 256, ({ tid := 0x2C0, gen := 5, cls := 3, ext := true } : Frame).cells) = (3, 1) := by decide

/-- Chapter 3, first worked example: the descriptor of tunnel 0x123 as it is opened. -/
theorem test_descriptor_words :
    let h := (wit [(R.ttGen 0x123, 2)]).hub.openTunnel 0x123
      (recDesc (tunRecord 1 0x123 0 [0x0A082328, 0x0000106B, 0x00C81205, 0xA3E82C00, 0, 0, 0x00000106, 0])) 0
    h.descWords 0x123 = [0x3A482328, 0x0000106B, 0x00C81205, 0xA3E82C00, 0, 0, 0x00000106, 0] := by decide +kernel

/-- Chapter 18, worked example: word 0 of the first fault record. -/
theorem test_fault_record_word :
    ((({ evt := 1, rsev := 2, forced := false, src := 8, rcnt := 0, detail := 0, occ := 0, ftime := 0 } : LogEntry).words 0).headD 0)
      = 0x15300800 := by decide

/-- R72: the alternates of the four strike-summary tunnels at reset. -/
theorem test_reset_summary_alternates :
    [6, 7, 8, 9].map (fun t => State.reset.hub.get (R.ttAltEgr t)) = [2, 3, 4, 1] := by decide

/-- R206, R207: a valid copy spoilt in one bit is no copy. -/
theorem test_strike_copy_bit :
    copyValid { lane := 0, hdr := hdrCtrl, w :=
      strikeWord { chan := 0x31, edge := 1, hops := 0, tlow := 3, stseq := 7, toff := 1000, late := false } ^^^ 2 ^ 20 }
      = false := by decide +kernel

/-- R47: a boundary counts the tick number up. -/
theorem test_boundary_counts : State.reset.hub.tickBoundary.tickNum = 1 := by
  decide +kernel

/-- R605: a second doorbell with the same SEQ is counted and runs nothing. -/
theorem test_doorbell_twice :
    let h := (State.reset.hub.doorbell 3 5).doorbell 3 5
    (h.get (R.mbxState 3), h.get (R.mbxDbIgnored 3), h.ctl.order) = (1, 1, [3]) := by decide

/-- The command table gives no row any bits, so no word spells a command. -/
theorem test_no_word_spells : decodeTableWord 32 0 = none := by decide

/-! Published vectors of the algorithms that the manual names. -/

/-- FIPS 197, appendix C.3. -/
theorem test_aes256 :
    beNat (aes256 ((List.range 32).map (BitVec.ofNat 8)) ((List.range 16).map (fun i => BitVec.ofNat 8 (0x11 * i))))
      = 0x8ea2b7ca516745bfeafc49904b496089 := by decide +kernel

/-- SP 800-38B, AES-256, the empty message. -/
theorem test_cmac_empty :
    beNat (aesCmac (beBytes 32 0x603deb1015ca71be2b73aef0857d77811f352c073b6108d72d9810a30914dff4) [])
      = 0x028962f61b7bf89efc6b551f4667d983 := by decide +kernel

/-- The GCM specification, test cases 13 and 14: AES-256, a zero key and nonce, no text and one zero block. -/
theorem test_gcm :
    beNat (gcmTag (List.replicate 32 0) (List.replicate 12 0) [] []) = 0x530f8afbc74536b9a963b4f1c4cb738b ∧
    beNat (gcmCrypt (List.replicate 32 0) (List.replicate 12 0) (List.replicate 16 0)) = 0xcea7403d4d606b6e074ec5d3baf39d18 := by
  decide +kernel

/-- FIPS 180-4, "abc". -/
theorem test_sha384 :
    sha384 [0x61, 0x62, 0x63] = 0xcb00753f45a35e8bb5a03d699ac65007272c32ab0eded1631a8b605a43ff5bed8086072ba1e7cc2358baeca134c825a7 := by
  decide +kernel

/-! Witnesses: states and operands that meet the hypotheses of the statements, one for each clause. -/

/-- Master 3 owns the hub and holds every level at the key store; slot 127 holds the domain key of the links. -/
def wOwner : State := wit [(R.secOwned, 1), (R.secOwner, 3), (R.gateWord tgtKeys, 0xC0), (R.keyState 127, 1),
  (R.keyLevel 127, 1), (R.keyDomain 127, domLink)]

theorem witness_StepRunsFrontCommand :
    ({ State.reset with pending := [.resetNLow, .coreWdog] } : State).pending = .resetNLow :: [.coreWdog] := rfl

theorem witness_StepKeepsMemoryCanonical :
    ({ State.reset with mem := [(lp5Base, 1), (lp5Base + 1, 2)] } : State).memSound ∧
      ∃ t, step { State.reset with mem := [(lp5Base, 1), (lp5Base + 1, 2)] } = .next t :=
  ⟨by unfold State.memSound; decide, _, rfl⟩

theorem witness_MemoryByteReadsAsWritten : Memory.wf [(0, 1), (lp5Base, 255)] = true := by decide

theorem witness_Master15HoldsNothing :
    bits (2 ^ 30) 31 30 ≠ 0 ∧ wOwner.hub.isOwner 3 = true ∧
    (Config.gateExists 0x5A = true ∧ isWinTgt 0x5A = false ∧ bits 0x3000C000 15 14 = 3 ∧ bits 0x3000C000 31 30 = 0) ∧
    wOwner.hub.flag R.secDebug = false ∧ (wit [(R.secDebug, 1)]).hub.flag R.secDebug = true := by decide

theorem witness_GateGet :
    (Config.gateExists 0x5A = true ∧ wOwner.hub.isOwner 3 = true) ∧
    (Config.gateExists tgtKeys = true ∧ wOwner.hub.holds 3 tgtKeys 1 = true) ∧
    (Config.gateExists tgtKeys = true ∧ wOwner.hub.isOwner 4 = false ∧ wOwner.hub.holds 4 tgtKeys 1 = false) := by decide

theorem witness_GateSet :
    wOwner.hub.isOwner 4 = false ∧
    (wOwner.hub.isOwner 3 = true ∧ Config.gateExists 0x5A = true ∧ isWinTgt 0x5A = false ∧
      bits 0x3FFFFFFF 15 14 = 3 ∧ bits 0x3FFFFFFF 31 30 = 0) := by decide

/-- Slot 6 holds the owner key, and master 4 has been challenged. -/
def wClaim : State :=
  let h := (wit [(R.keyState 6, 1), (R.keyLevel 6, 2), (R.keyDomain 6, domOwner), (R.keyPurpose 6, 1)]).hub
  { State.reset with hub := { h with sec := { chal := [(k1 4, some { nonce := [], at_ := 0 })] } } }

theorem witness_BadOwnershipProof :
    (4 ≤ 4 ∧ [0, 0, 0, 0].length = 4 ∧ State.reset.hub.claimBarred 4 = false ∧
      State.reset.hub.claimProof 4 ≠ some (wordBytes [0, 0, 0, 0])) ∧
    (∃ (h : Hub) (po : List Nat), po.length = 4 ∧ h.claimBarred 4 = false ∧ h.claimProof 4 = some (wordBytes po)) ∧
    (∃ h : Hub, h.now < tabGet h.sec.holdUntil (k1 4) 0) := by
  refine ⟨by decide, ⟨wClaim.hub, ?_, ?_, by decide, ?_⟩, ⟨{ ({} : Hub) with sec := { holdUntil := [(k1 4, 1)] } }, by decide⟩⟩
  · exact bytesWords (cmacBytes (wClaim.hub.keyMat 6) (labelBytes "OWN" ++ le64 wClaim.hub.sec.hubId ++ le32 4))
  all_goals decide +kernel

theorem witness_KeyCheck :
    wOwner.hub.holds 4 tgtKeys 1 = false ∧
    (wOwner.hub.holds 3 tgtKeys 1 = true ∧ 6 ≤ 127 ∧ 127 ≤ 127 ∧ [0, 0, 0, 0].length = 4 ∧
      wOwner.hub.get (R.keyState 127) = 1) ∧
    (6 ≤ 6 ∧ 6 ≤ 127 ∧ wOwner.hub.get (R.keyState 6) ≠ 1) := by decide

/-- The same with a purpose key of the nodes in slot 126. -/
def wPurpose : State :=
  { wOwner with hub := wOwner.hub.setAll [(R.keyState 126, 1), (R.keyLevel 126, 2), (R.keyDomain 126, domNode)] }

theorem witness_KeyDerive_instance :
    wPurpose.hub.isOwner 3 = true ∧ wPurpose.hub.holds 3 tgtKeys 3 = true ∧ 126 ≤ 127 ∧
    wPurpose.hub.get (R.keyState 126) = 1 ∧ wPurpose.hub.get (R.keyLevel 126) = 2 ∧
    (wPurpose.hub.get (R.keyDomain 126) = domNode ∧ 15 ≤ 15) ∧ 4 ≤ 4 ∧ 16 ≤ 16 ∧
    wPurpose.hub.findKey (wPurpose.hub.get (R.keyDomain 126)) 3 1 15 = none ∧ wPurpose.hub.freeSlot = some 6 := by
  decide +kernel

theorem witness_KeyDerive :
    wOwner.hub.isOwner 4 = false ∧
    (wOwner.hub.isOwner 3 = true ∧ wOwner.hub.holds 3 tgtKeys 3 = true ∧ 127 ≤ 127 ∧
      wOwner.hub.get (R.keyState 127) = 1 ∧ wOwner.hub.get (R.keyLevel 127) = 1 ∧
      wOwner.hub.findKey (wOwner.hub.get (R.keyDomain 127)) 2 1 0 = none ∧ wOwner.hub.freeSlot = some 6) := by
  decide +kernel

/-- Source 255 is latched and its line high. -/
def wFault : State := wit [(R.fcStatus 7, 2 ^ 31), (R.srcActive 255, 1), (R.srcQper 255, 0)]

theorem witness_RisingSource : 255 < 256 ∧ wFault.hub.latched 255 = true ∧ wFault.hub.latched 0 = false := by decide

theorem witness_OnlyItsOwnBit :
    255 < 256 ∧ wFault.hub.flag (R.srcActive 255) = true ∧ wFault.hub.latched 0 = false ∧
    wFault.hub.get (R.srcQper 255) = 0 := by decide

theorem witness_Completion : 7 < 8 ∧ (List.replicate 256 1).length ≤ 256 ∧ 255 < (List.replicate 256 1).length := by
  rw [List.length_replicate]; decide

/-- Mailbox 6 is QUEUED, mailbox 5 DONE. -/
def wMail : State := wit [(R.mbxState 6, 1), (R.mbxState 5, 4), (R.mbxSeq 5, 65535)]

theorem witness_Doorbell :
    (wMail.hub.get (R.mbxState 0) = 0 ∧ wMail.hub.get (R.mbxSeq 0) ≠ 65535) ∧
    (wMail.hub.get (R.mbxState 5) = 4 ∧ wMail.hub.get (R.mbxSeq 5) ≠ 0) ∧
    (wMail.hub.get (R.mbxState 6) ≠ 0 ∧ wMail.hub.get (R.mbxState 6) ≠ 4) ∧ wMail.hub.get (R.mbxSeq 5) = 65535 ∧
    65535 < 2 ^ 16 ∧ 6 < 7 := by decide

theorem witness_CommandBuffer :
    6 < 7 ∧ 255 < 256 ∧ wMail.hub.mbLocked 6 = true ∧ wMail.hub.mbLocked 5 = false := by decide

theorem witness_TickSet :
    wOwner.hub.isOwner 4 = false ∧ (wOwner.hub.isOwner 3 = true ∧ (24 < 25 ∨ 200 < 24) ∧ (201 < 25 ∨ 200 < 201)) ∧
    (25 ≤ 25 ∧ 200 ≤ 200 ∧ 2 ^ 48 - 1 < 2 ^ 48) ∧
    (4 < 5 ∧ (wit [(R.planState 4, pArmed)]).hub.planState 4 = pArmed) ∧
    ((∀ s, s < 5 → wOwner.hub.planState s ≠ pArmed ∧ wOwner.hub.planState s ≠ pWindow ∧ wOwner.hub.planState s ≠ pReverting) ∧
      1 < wOwner.hub.tickNum + 2 ∧ wOwner.hub.tickNum + 2 ≤ 2) := by decide

theorem witness_PeriodChanges :
    ((wit [(R.tickPend, 1), (R.tickNext, 200)]).hub.get R.tickPend = 1 ∧
      (wit [(R.tickPend, 1), (R.tickNext, 200)]).hub.tick.pendAt = (wit [(R.tickPend, 1), (R.tickNext, 200)]).hub.tickNum) ∧
    State.reset.hub.get R.tickPend = 0 := by decide

/-- Master 3 holds every level at tunnel 4095, generation 5. -/
def wTun : State := wit [(R.gateWord (tgtTunnel 4095), 0xC0), (R.ttGen 4095, 5)]

theorem witness_StaleGeneration :
    wTun.hub.get (R.ttGen 4095) ≠ 15 ∧ isUser 4095 = true ∧ wTun.hub.holds 3 (tgtTunnel 4095) 3 = true ∧
    wTun.hub.holds 3 (tgtTunnel 4095) 1 = true := by decide

theorem witness_FrameOfAClosedTunnel :
    formatOk { tid := 4095, gen := 0, cls := 6 } = true ∧ State.reset.hub.noRequest { tid := 4095, gen := 0, cls := 6 } 24 = false ∧
    State.reset.hub.get (R.ttState 4095) ≠ 1 ∧ State.reset.hub.holdRepeat { tid := 4095, gen := 0, cls := 6 } = false := by
  decide

/-- Trunk D has sent link units 32767 and 0 of the retransmit class and has no acknowledgement. -/
def wSent : State := { State.reset with hub := { State.reset.hub with
  links := [(k1 4, { tx := [(k1 2, { oldest := 32767, nextSeq := 1 })] })] } }

theorem witness_AckOutsideTheWindow :
    isTrunk 4 = true ∧ (wSent.hub.txc 4 2).oldest < 32768 ∧
    ((wSent.hub.txc 4 2).nextSeq + 32768 - (wSent.hub.txc 4 2).oldest) % 32768 = 2 ∧
    (bits (ackBlock 2 32766 0 false) 9 8 = 2 ∧ bit (ackBlock 2 32766 0 false) 10 = false ∧
      16384 ≤ (bits (ackBlock 2 32766 0 false) 25 11 + 32768 - (wSent.hub.txc 4 2).oldest) % 32768) ∧
    (bits (ackBlock 2 1 0 false) 9 8 = 2 ∧ bit (ackBlock 2 1 0 false) 10 = false ∧ bit (ackBlock 2 1 5 true) 10 = true ∧
      (bits (ackBlock 2 1 5 true) 25 11 + 32768 - (wSent.hub.txc 4 2).oldest) % 32768 = 2) := by
  decide

theorem witness_CreditCost :
    1 ≤ 4095 ∧
    ({ tid := 4095, gen := 15, cls := 7, seq := 65535, payload := [1] } : Frame).nb = none ∧ 4095 < 2 ^ 12 ∧ 15 < 16 ∧ 7 < 8 ∧
    65535 < 2 ^ 16 ∧ ({ tid := 4095, gen := 15, cls := 7, seq := 65535, payload := [1] } : Frame).len < 2 ^ 14 := by decide

theorem witness_StrikeBlock : 255 < 256 ∧ 1 < 2 ∧ 7 < 8 ∧ 15 < 16 ∧ 1023 < 1024 ∧ 262143 < 2 ^ 18 := by decide

theorem witness_Scrambler : 2 ^ 58 - 1 < 2 ^ 58 ∧ 2 ^ 64 - 1 < 2 ^ 64 ∧ 63 < 64 := by decide

theorem witness_StrikeNotAdmitted :
    (State.reset.hub.stk 20).window.find? (fun p => p.1 == 1023) = none ∧ (6 : Nat) ≠ 7 ∧
    bit (State.reset.hub.get (R.routeSrc 255)) (20 - 1) = false := by decide

theorem witness_PlanCommands :
    4 < 5 ∧ (4 ≤ 4 ∧ (wit [(R.planState 4, pArmed)]).hub.planState 4 ≠ pEmpty) ∧
    (wit [(R.planState 4, pArmed)]).hub.get (R.planPlanId 4) ≠ 65535 := by decide

/-- Master 4 has a checked plan 9; nobody else has one, or master 3 is in its window. -/
def wPlan (w : Nat) : State := wit [(R.planState 4, pChecked), (R.planPlanId 4, 9), (R.planState 3, w)]

theorem witness_PlanArm :
    (4 ≤ 4 ∧ (9 : Nat) ≠ 0 ∧ (wPlan 0).hub.get (R.planPlanId 4) = 9 ∧ 65536 < 2 ^ 48) ∧
    State.reset.hub.planState 4 ≠ pChecked ∧
    ((wPlan 0).hub.planState 4 = pChecked ∧ 1 < (wPlan 0).hub.tickNum + 2 ∧ (wPlan 0).hub.tickNum + 65536 < 65537) ∧
    (3 < 5 ∧ (wPlan pWindow).hub.planState 3 = pWindow ∧ (wPlan pWindow).hub.tickNum + 2 ≤ 65536 ∧
      65536 ≤ (wPlan pWindow).hub.tickNum + 65536) ∧
    ((∀ s, s < 5 → (wPlan 0).hub.planState s ≠ pWindow ∧ (wPlan 0).hub.planState s ≠ pReverting) ∧
      (wPlan 0).hub.armCheck 4 2 = none) := by decide +kernel

/-- Window 15 covers the second MiB of 2 MiB of LP5 and lets master 3 read. -/
def wLp5 : State := wit [(R.lp5CapMib, 2), (R.winEn 15, 1), (R.winBase 15, 1), (R.winSize 15, 1), (R.gateWord (tgtWin 15), 0x40)]

/-- An access of master 3 of `len` bytes at an LP5 offset. -/
def wAcc (wr : Bool) (off len : Nat) : Lp5Acc := { client := clCore, master := 3, wr := wr, addr := lp5Base + off, len := len }

theorem witness_MemoryAccess :
    wLp5.hub.lp5Down = false ∧ wLp5.hub.lp5Allowed (wAcc false (2 ^ 21 - 1) 1) = true ∧
    wLp5.hub.lp5Allowed (wAcc false (2 ^ 21 - 1) 2) = false ∧ wLp5.hub.lp5Allowed (wAcc false (2 ^ 20 - 1) 2) = false ∧
    wLp5.hub.lp5Allowed (wAcc true (2 ^ 20) 1) = false := by decide +kernel

theorem witness_LineFrames :
    5 ≤ 5 ∧ 20 ≤ 20 ∧ ({ tid := 15, gen := 0, cls := 0 } : Frame).nb = none ∧ 1 ≤ 15 ∧ 15 ≤ 15 := by decide

/-- Head 7 is armed; its pending plane addresses are 0. -/
def wFlip : State := wit [(R.flipArmBit 7, 1), (R.flipFlipId 7, 65535)]

/-- Head 7 is armed for two planes of no line at the LP5 base, in window 0, which heads may read. -/
def wFlipOk : State := wit [(R.flipArmBit 7, 1), (R.flipPHi 7 0, 4), (R.flipPHi 7 1, 4), (R.rhWmask 7, 1), (R.winEn 0, 1), (R.winSize 0, 1),
  (R.lp5CapMib, 1), (R.gateWord (tgtWin 0), 2 ^ 24)]

theorem witness_FlipLatches :
    State.reset.hub.get (R.flipArmBit 7) = 0 ∧
    (wFlip.hub.get (R.flipArmBit 7) = 1 ∧ wFlip.hub.flipError 7 ≠ 0) ∧
    (wFlipOk.hub.get (R.flipArmBit 7) = 1 ∧ wFlipOk.hub.flipError 7 = 0) ∧ 2 < 3 := by decide +kernel

/-- Channel 63 runs LOOP `n`, FENCE, ENDLOOP, END. -/
def wDma (n : Nat) : State :=
  let h := (wit [(R.dmaState 63, dsRunning)]).hub
  { State.reset with hub := { h with media := { h.media with
      dma := [(k1 63, { prog := [[2 * 2 ^ 28 + n], [6 * 2 ^ 28], [3 * 2 ^ 28], [7 * 2 ^ 28]] })] } } }

theorem witness_Loop :
    (wDma 0).hub.dmaRuns 63 = true ∧
    ((wDma 0).hub.dmaX 63).prog = [] ++ [2 * 2 ^ 28] :: [[6 * 2 ^ 28]] ++ [3 * 2 ^ 28] :: [[7 * 2 ^ 28]] ∧
    (wDma 0).hub.get (R.dmaPc 63) = ([] : List (List Nat)).length ∧ iOp [2 * 2 ^ 28] = 2 ∧ iOp [3 * 2 ^ 28] = 3 ∧
    iOp [6 * 2 ^ 28] ≠ 2 ∧ iOp [6 * 2 ^ 28] ≠ 3 ∧ ((wDma 0).hub.dmaX 63).prog.length < 4096 ∧
    bits ([2 * 2 ^ 28].headD 0) 23 0 = 0 ∧ bits ([2 * 2 ^ 28 + (2 ^ 24 - 1)].headD 0) 23 0 = 2 ^ 24 - 1 ∧
    (wDma 1).hub.get (R.dmaDepth 63) < 4 := by decide

/-- The stage of port 15 has been tripped by its breaker. -/
def wTripped : State := wit [(R.stgSstate 15, sgRetry), (R.stgCause 15, 2 ^ caCurve)]

theorem witness_OverCurrent :
    15 < 16 ∧ (wTripped.hub.stageOc 15 = true ∧ wTripped.hub.get (R.usbPortOc 15) = 0) ∧
    State.reset.hub.stageOc 15 = false ∧ (wit [(R.usbPortOc 15, 1)]).hub.get (R.usbPortOc 15) = 1 := by decide

/-- Cable port 15 is attached and its receive queue full. -/
def wFull : State :=
  let h := (wit [(R.ccAstate 15, asSrc)]).hub
  let m : PdMsg := { sopt := 0, hdr := 0, data := [], ftime := 0 }
  { State.reset with hub := { h with power := { h.power with phyOn := true, cc := [(k1 15, { rx := List.replicate 8 m })] } } }

theorem witness_FullReceiveQueue :
    wFull.hub.ccOn 15 = true ∧ wFull.hub.ccAttached 15 = true ∧ 4 ≤ 4 ∧ pdCtrl 0 1 = false ∧ (wFull.hub.cc 15).tx = none ∧
    8 ≤ (wFull.hub.cc 15).rx.length := by decide

theorem witness_Trip :
    15 < 16 ∧ (∀ c ∈ [0, 7], c < (R.stgCause 15).width) ∧
    (wit [(R.stgSstate 15, sgInrush)]).hub.stageState 15 = sgInrush ∧ wCable.hub.stageState 15 = sgOn ∧
    (wit [(R.stgSstate 15, sgSink)]).hub.stageState 15 = sgSink ∧
    (State.reset.hub.stageState 15 ≠ sgInrush ∧ State.reset.hub.stageState 15 ≠ sgOn ∧ State.reset.hub.stageState 15 ≠ sgSink) := by
  decide

/-! Witnesses of the completion statements: for each guarded clause, in order, its guards at the ends of their ranges. -/

theorem witness_StartupResetAndFaultLineCommandsComplete :
    wUp.hub.suppliesWatched = true ∧ wUp.hub.ctl.resetDue = some 1 := by decide

theorem witness_TickAndTimeCommandsComplete :
    3 < 4 ∧ 3 < 4 ∧ (wUp.hub.tick.slotEnded = false ∧ wUp.hub.domainsOn = true) := by decide

theorem witness_LinkTrainingAndUnitCommandsComplete :
    (isTrunk 4 = true ∧ wDown.hub.domainsOn = true ∧ wDown.hub.linksPowered = true ∧ wDown.hub.get (R.linkState (4 - 1)) = 0 ∧ (wDown.hub.port 4).enabled = true ∧ wDown.hub.trunkBarred (4 - 1) = false ∧ wDown.hub.replayEmpty (4 - 1) = true) ∧
    (isTrunk 4 = true ∧ (wit [(R.psState, psEmber)]).hub.domainsOn = false) ∧
    (isLink 4 = true ∧ 4 < laneCount 4) ∧ wDown.hub.inPhase 4 1 = true ∧ wUp.hub.linkFlows 20 = true ∧
    wUp.hub.linkFlows 20 = true ∧ wUp.hub.linkFlows 20 = true ∧ wUp.hub.linkFlows 20 = true ∧
    wUp.hub.linkFlows 20 = true ∧ wUp.hub.linkFlows 20 = true ∧ (isLink 20 = true ∧ (wUp.hub.port 20).phase = 4) ∧
    (isLink 20 = true ∧ wUp.hub.linkFlows 20 = true) ∧
    (wUp.hub.linkFlows 20 = true ∧ wUp.hub.flag (fEidleTx 20) = false) ∧
    (wUp.hub.linkFlows 4 = true ∧ reliable 2 = true ∧ (wUp.hub.rxc 4 2).nak = some (wUp.hub.rxc 4 2).nextSeq) ∧
    (wBack.hub.linkFlows 4 = true ∧ reliable 2 = true ∧ (wBack.hub.txc 4 2).unacked.isEmpty = false) ∧
    (wUp.hub.linkFlows 20 = true ∧ wUp.hub.flag (fEidleTx 20) = false) ∧
    (wUp.hub.linkFlows 4 = true ∧ wUp.hub.flag (fEidleTx 4) = false ∧ (wUp.hub.link 4).csyncDue = true) ∧
    (isLink 20 = true ∧ wUp.hub.portUp 20 = true ∧ wUp.hub.flag (fEidleRx 20) = false) := by decide

theorem witness_LinkSendingAttachAndLaneCommandsComplete :
    wUp.hub.linkFlows 20 = true ∧ 3 < 4 ∧ 3 < 4 ∧ 3 < 4 ∧
    (isLink 4 = true ∧ wUp.hub.mayIdle 4 (wUp.hub.psIs psIdle) = true) ∧
    (wUp.hub.laneInUse 20 0 = true ∧ wUp.hub.flag (fEidleRx 20) = false) ∧ wUp.hub.laneInUse 4 (0, 0).1 = true ∧
    (wUp.hub.laneInUse 20 0 = true ∧ 3 ≤ (wUp.hub.laneX 20 0).missed) ∧
    (wUp.hub.laneInUse 4 0 = true ∧ 3 ≤ (wUp.hub.laneX 4 0).lowRun) ∧
    (isTrunk 4 = true ∧ wUp.hub.laneInUse 4 4 = true ∧ wUp.hub.laneRole 4 4 = 3) ∧
    (isTrunk 4 = true ∧ wUp.hub.laneInUse 4 0 = true ∧ (wUp.hub.laneX 4 0).step.isSome = true) ∧
    isTrunk 4 = true ∧ wUp.hub.linkFlows 20 = true := by decide

theorem witness_StrikeAndFailoverCommandsComplete :
    31 < 32 ∧ wUp.hub.strikeUp 20 = true ∧
    ((wMore 0 (0, wTel)).hub.strikeUp 20 = true ∧ ((wMore 0 (0, wTel)).hub.stk 20).queue.isEmpty = false ∧ (wMore 0 (0, wTel)).hub.flag (fEidleTx 20) = false) ∧
    ((wMore 1 (0, wTel)).hub.strikeUp 20 = true ∧ ((wMore 1 (0, wTel)).hub.stk 20).queue.isEmpty = false ∧ (wMore 1 (0, wTel)).hub.flag (fEidleTx 20) = true) ∧
    (31 < 32 ∧ (wUp.hub.trigOut 31).pulse = true ∧ wUp.hub.get (R.toutMode 31) = 1) ∧ 255 < 256 ∧ 3 < 4 ∧
    (3 < 4 ∧ 0 < wUp.hub.tickNum ∧ (wUp.hub.strikeUp (3 + 1) || wUp.hub.trunkFailed 3) = true) ∧
    (3 < 4 ∧ reliable 2 = true ∧ wUp.hub.flag (R.foCrdEn 3) = true ∧ wUp.hub.get (R.linkState 3) = 4 ∧ wUp.hub.creditWait 3 2 = true) ∧
    (3 < 4 ∧ wDown.hub.get (R.foState 3) = 1 ∧ wDown.hub.get (R.linkState 3) ≠ 4 ∧ wDown.hub.get (R.foRtrDly 3) ≠ 0) ∧
    (3 < 4 ∧ ({ wUp with hub := { wUp.hub with fo := [(k1 4, { attached := 65535 })] } } : State).hub.get (R.foState 3) = 1 ∧ ({ wUp with hub := { wUp.hub with fo := [(k1 4, { attached := 65535 })] } } : State).hub.get (R.linkState 3) = 4 ∧ ({ wUp with hub := { wUp.hub with fo := [(k1 4, { attached := 65535 })] } } : State).hub.flag (R.foAutoret 3) = true ∧ ({ wUp with hub := { wUp.hub with fo := [(k1 4, { attached := 65535 })] } } : State).hub.get (R.foRetHold 3) ≤ (({ wUp with hub := { wUp.hub with fo := [(k1 4, { attached := 65535 })] } } : State).hub.failover (3 + 1)).attached) ∧
    (1 < 2 ∧ wBack.hub.mayReturn 4095 1 = true) ∧ 255 < 256 := by decide

theorem witness_HearthCommandsComplete :
    (isLink 20 = true ∧ 3 < 4 ∧ wUp.hub.linkFlows 20 = true) ∧ isEngine 24 = true ∧ isTrunk 4 = true ∧
    (1 < 2 ∧ (wMore 0 (0, wTel)).hub.cutsInto (qkey 4095 1) = true) ∧ (isLink 24 || isEngine 24) = true ∧
    (isUser 4095 = true ∧ 1 < 2) ∧
    ((isLink 4 || isEngine 4) = true ∧ wUp.hub.get (R.schGuard (4 - 1)) ≠ 0 ∧ (wUp.hub.groupActive 4).isEmpty = false ∧ (isTrunk 4 && wUp.hub.safe) = false) ∧
    ((isLink 24 || isEngine 24) = true ∧ 8 ≤ (wUp.hub.egress 24).guardTicks) ∧ 1 < 2 := by decide +kernel

theorem witness_LinePortAndBridgeCommandsComplete :
    (15 < 16 ∧ wSlot.hub.attachCond 15 = true) ∧ (15 < 16 ∧ wUp.hub.attachCond 15 = false) ∧ 15 < 16 ∧ 15 < 16 ∧
    15 < 16 ∧ 15 < 16 ∧ 15 < 16 ∧
    ((wMore 0 (20, wNb 1)).hub.nodeOp 15 1 (wNb 1) = true ∧ (wNb 1).nb = some { op := 1, ni := true, status := 0, tag := 0, rlen := 0, addr := 0 }) ∧
    ((wMore 0 (20, wNb 2)).hub.nodeOp 15 2 (wNb 2) = true ∧ (wNb 2).nb = some { op := 2, ni := true, status := 0, tag := 0, rlen := 0, addr := 0 }) ∧
    ((wMore 0 (20, wNb 3)).hub.nodeOp 15 3 (wNb 3) = true ∧ (wNb 3).nb = some { op := 3, ni := true, status := 0, tag := 0, rlen := 0, addr := 0 }) ∧
    ((wMore 0 (20, wNb 4)).hub.nodeOp 15 4 (wNb 4) = true ∧ (wNb 4).nb = some { op := 4, ni := true, status := 0, tag := 0, rlen := 0, addr := 0 }) ∧
    ((wMore 0 (20, wNb 5)).hub.nodeOp 15 5 (wNb 5) = true ∧ (wNb 5).nb = some { op := 5, ni := true, status := 0, tag := 0, rlen := 0, addr := 0 }) ∧
    15 < 16 ∧ ((wMore 0 (0, wStor 1)).hub.bridge.inbox.find? ofStorage = some (0, (wStor 1)) ∧ (wStor 1).op ≠ 2) ∧
    ((wMore 0 (0, wStor 2)).hub.bridge.inbox.find? ofStorage = some (0, (wStor 2)) ∧ (wStor 2).op = 2) ∧ 15 < 16 ∧
    (wMore 0 (0, wTel)).hub.bridge.inbox.find? ofTelemetry = some (0, wTel) := by decide

theorem witness_DisplayAndMemoryControllerCommandsComplete :
    7 < 8 ∧ 7 < 8 ∧ (7 < 8 ∧ 2 < 3) ∧ 7 < 8 ∧ 7 < 8 ∧ 7 < 8 ∧ 7 < 8 ∧ 1 < 2 ∧ 1 < 2 ∧ wUp.hub.domainsOn = true ∧
    wUp.hub.lp5Working = true ∧ wUp.hub.lp5Working = true ∧ wUp.hub.lp5Working = true ∧
    wUp.hub.lp5Working = true ∧ wUp.hub.domainsOn = true ∧
    ((wSleep false).hub.domainsOn = true ∧ (wSleep false).hub.lp5MustExit = true) ∧ 1 < 2 ∧
    ((wSleep true).hub.domainsOn = true ∧ (wSleep true).hub.lp5.exiting = true) ∧ wUp.hub.domainsOn = true := by decide

theorem witness_DmaCommandsComplete :
    (63 < 64 ∧ wUp.hub.domainsOn = true) ∧ (63 < 64 ∧ wUp.hub.domainsOn = true) ∧
    (63 < 64 ∧ wUp.hub.domainsOn = true) ∧ (63 < 64 ∧ wUp.hub.domainsOn = true) ∧
    (63 < 64 ∧ wUp.hub.domainsOn = true) ∧ (63 < 64 ∧ wUp.hub.domainsOn = true) ∧
    (63 < 64 ∧ wUp.hub.domainsOn = true) ∧ 63 < 64 ∧ 103 < 104 ∧ 63 < 64 ∧ 63 < 64 ∧ 63 < 64 := by decide

theorem witness_UsbCommandsComplete :
    (1 < 2 ∧ wUp.hub.busOn 1 = true) ∧ (1 < 2 ∧ wUp.hub.busOn 1 = true) ∧ (1 < 2 ∧ wUp.hub.busOn 1 = true) ∧
    wUp.hub.devOn 2 = true ∧ (wUp.hub.devOn 2 = true ∧ 127 < 128) ∧ wUp.hub.devOn 2 = true ∧
    wUp.hub.devOn 2 = true ∧ wUp.hub.devOn 1 = true ∧ (wUp.hub.devOn 1 = true ∧ 1 ≠ 0) ∧ wUp.hub.hubOn 16 = true ∧
    wUp.hub.hubOn 16 = true ∧ wUp.hub.hubOn 16 = true ∧ wUp.hub.hubOn 16 = true ∧ wUp.hub.hubOn 16 = true ∧
    (wUp.hub.devOn 2 = true ∧ 2 ≠ 0) ∧ wUp.hub.devOn 1 = true ∧ 15 < 16 ∧
    (15 < 16 ∧ wUp.hub.vbusGood 15 = false) ∧ wUp.hub.sessionOpen = true ∧ 15 < 16 ∧
    (15 < 16 ∧ wUp.hub.portConn 15 = true) ∧ 15 < 16 ∧ (16 < 17 ∧ 2 < 3) ∧ 16 < 17 ∧ wUp.hub.devOn 2 = true ∧
    (wUp.hub.hubOn 16 = true ∧ 4 < 5) ∧ 1 < 2 := by decide

theorem witness_CableAndPdCommandsComplete :
    (15 < 16 ∧ 3 < 4 ∧ 3 < 4 ∧ 3 < 4) ∧ (15 < 16 ∧ wUp.hub.ccOn 15 = true) ∧ (15 < 16 ∧ wUp.hub.ccOn 15 = true) ∧
    (15 < 16 ∧ wUp.hub.ccOn 15 = true) ∧ (15 < 16 ∧ wUp.hub.ccOn 15 = true) ∧ (15 < 16 ∧ wUp.hub.ccOn 15 = true) ∧
    15 < 16 ∧ 15 < 16 ∧ 15 < 16 ∧ 15 < 16 ∧ 15 < 16 ∧ 15 < 16 ∧ (15 < 16 ∧ wUp.hub.ccOn 15 = true) ∧ 15 < 16 ∧
    15 < 16 ∧ 15 < 16 ∧ 15 < 16 ∧ 15 < 16 ∧ (15 < 16 ∧ wUp.hub.ccOn 15 = true) ∧
    (15 < 16 ∧ wUp.hub.ccOn 15 = true) := by decide

theorem witness_PowerStageCommandsComplete :
    1 < 2 ∧ 1 < 2 ∧ 1 < 2 ∧ (15 < 16 ∧ wSlot.hub.isSlot 15 = true) ∧ (15 < 16 ∧ wSlot.hub.isSlot 15 = true) ∧
    15 < 16 ∧ (15 < 16 ∧ wSlot.hub.isSlot 15 = true) ∧ 15 < 16 ∧ 15 < 16 ∧ 15 < 16 ∧ 15 < 16 ∧ 15 < 16 ∧
    (15 < 16 ∧ wCable.hub.isSlot 15 = false ∧ wCable.hub.stageIs 15 sgOn = true) := by decide

theorem witness_PowerStateAndSmbusCommandsComplete :
    7 < 8 := by decide

theorem witness_SysAndGateCommandsComplete :
    wUp.hub.serves 6 0x0101 = true ∧ wUp.hub.serves 6 0x0102 = true ∧
    (wUp.hub.serves 6 0x0102 = true ∧ words32 [] = true) ∧ wUp.hub.serves 6 0x0102 = true ∧
    wUp.hub.serves 6 0x0103 = true ∧ wUp.hub.serves 6 0x0104 = true ∧ wUp.hub.serves 6 0x0104 = true ∧
    wUp.hub.serves 6 0x0104 = true ∧ (wUp.hub.serves 6 0x0201 = true ∧ words32 [4294967295] = true) ∧
    wUp.hub.serves 6 0x0202 = true := by decide

theorem witness_TunnelAndPlanCommandsComplete :
    (wUp.hub.serves 6 0x0301 = true ∧ 4095 < 4096 ∧ (List.replicate 8 4294967295).length = 8 ∧ words32 (List.replicate 8 4294967295) = true) ∧
    (wUp.hub.serves 6 0x0302 = true ∧ 4095 < 4096 ∧ 15 < 16) ∧
    (wUp.hub.serves 6 0x0303 = true ∧ 4095 < 4096 ∧ 15 < 16 ∧ (List.replicate 8 4294967295).length = 8 ∧ words32 (List.replicate 8 4294967295) = true) ∧
    (wUp.hub.serves 6 0x0304 = true ∧ 4095 < 4096 ∧ 15 < 16) ∧ wUp.hub.serves 6 0x0401 = true ∧
    (wUp.hub.serves 6 0x0402 = true ∧ 65535 < 65536 ∧ [].all (fun r => r.length == 10 && words32 r) = true) ∧
    (wUp.hub.serves 6 0x0403 = true ∧ 65535 < 65536) ∧
    (wUp.hub.serves 6 0x0404 = true ∧ 65535 < 65536 ∧ 281474976710655 < 2 ^ 48) ∧
    (wUp.hub.serves 6 0x0405 = true ∧ 65535 < 65536) ∧ (wUp.hub.serves 6 0x0406 = true ∧ 15 < 16) := by decide

theorem witness_PortTickAndTimeSyncCommandsComplete :
    (wUp.hub.serves 6 0x0501 = true ∧ words32 [] = true) ∧ (wUp.hub.serves 6 0x0501 = true ∧ words32 [] = true) ∧
    wUp.hub.serves 6 0x0501 = true ∧ wUp.hub.serves 6 0x0501 = true ∧ wUp.hub.serves 6 0x0502 = true ∧
    (wUp.hub.serves 6 0x0503 = true ∧ (wUp.hub.serving 6).objectBusy (.spare 0 0) = false) ∧
    (wUp.hub.serves 6 0x0503 = true ∧ (wUp.hub.serving 6).objectBusy (.spare 0 0) = false) ∧
    (wUp.hub.serves 6 0x0504 = true ∧ [].all words32 = true) ∧ wUp.hub.serves 6 0x0601 = true ∧
    (wUp.hub.serves 6 0x0701 = true ∧ 1 < 2 ∧ 3 < 4) ∧
    (wUp.hub.serves 6 0x0701 = true ∧ 1 < 2 ∧ 3 < 4 ∧ 9223372036854775807 < 2 ^ 63 ∧ -(2 ^ 63) ≤ 9223372036854775807) := by decide

theorem witness_PwrCommandsComplete :
    (wUp.hub.serves 6 0x0801 = true ∧ 1 < 2 ∧ words32 [] = true) ∧
    (wUp.hub.serves 6 0x0801 = true ∧ words32 [0, 0] = true) ∧ (wUp.hub.serves 6 0x0801 = true ∧ 1 < 2) ∧
    (wUp.hub.serves 6 0x0802 = true ∧ 15 < 16 ∧ words32 [] = true) ∧ (wUp.hub.serves 6 0x0802 = true ∧ 15 < 16) ∧
    (wUp.hub.serves 6 0x0802 = true ∧ 15 < 16) ∧ (wUp.hub.serves 6 0x0802 = true ∧ 15 < 16) ∧
    (wUp.hub.serves 6 0x0802 = true ∧ 15 < 16) ∧ (wUp.hub.serves 6 0x0803 = true ∧ words32 [] = true) ∧
    (wUp.hub.serves 6 0x0804 = true ∧ words32 [4294967295] = true) := by decide

theorem witness_PdMailboxCommandsComplete :
    (wUp.hub.serves 6 0x0901 = true ∧ (wUp.hub.serving 6).objectBusy (.pd 15) = false ∧ 15 < 16 ∧ words32 [] = true) ∧
    (wUp.hub.serves 6 0x0902 = true ∧ (wUp.hub.serving 6).objectBusy (.pd 15) = false ∧ 15 < 16) ∧
    (wUp.hub.serves 6 0x0903 = true ∧ (wUp.hub.serving 6).objectBusy (.pd 15) = false ∧ 15 < 16 ∧ words32 [4294967295] = true) ∧
    (wUp.hub.serves 6 0x0903 = true ∧ (wUp.hub.serving 6).objectBusy (.pd 15) = false ∧ 15 < 16) ∧
    (wUp.hub.serves 6 0x0903 = true ∧ (wUp.hub.serving 6).objectBusy (.pd 15) = false ∧ 15 < 16) ∧
    (wUp.hub.serves 6 0x0904 = true ∧ (wUp.hub.serving 6).objectBusy (.pd 15) = false ∧ 15 < 16) ∧
    (wUp.hub.serves 6 0x0904 = true ∧ (wUp.hub.serving 6).objectBusy (.pd 15) = false ∧ 15 < 16) ∧
    (wUp.hub.serves 6 0x0904 = true ∧ (wUp.hub.serving 6).objectBusy (.pd 15) = false ∧ 15 < 16) ∧
    (wUp.hub.serves 6 0x0904 = true ∧ (wUp.hub.serving 6).objectBusy (.pd 15) = false ∧ 15 < 16) ∧
    (wUp.hub.serves 6 0x0904 = true ∧ (wUp.hub.serving 6).objectBusy (.pd 15) = false ∧ 15 < 16) ∧
    (wUp.hub.serves 6 0x0904 = true ∧ (wUp.hub.serving 6).objectBusy (.pd 15) = false ∧ 15 < 16) ∧
    (wUp.hub.serves 6 0x0904 = true ∧ (wUp.hub.serving 6).objectBusy (.pd 15) = false ∧ 15 < 16) ∧
    (wUp.hub.serves 6 0x0904 = true ∧ (wUp.hub.serving 6).objectBusy (.pd 15) = false ∧ 15 < 16) ∧
    (wUp.hub.serves 6 0x0904 = true ∧ (wUp.hub.serving 6).objectBusy (.pd 15) = false ∧ 15 < 16) ∧
    (wUp.hub.serves 6 0x0904 = true ∧ (wUp.hub.serving 6).objectBusy (.pd 15) = false ∧ 15 < 16) ∧
    (wUp.hub.serves 6 0x0904 = true ∧ (wUp.hub.serving 6).objectBusy (.pd 15) = false ∧ 15 < 16) ∧
    (wUp.hub.serves 6 0x0904 = true ∧ (wUp.hub.serving 6).objectBusy (.pd 15) = false ∧ 15 < 16) := by decide

theorem witness_RasterAndDmaMailboxCommandsComplete :
    (wUp.hub.serves 6 0x0A01 = true ∧ (wUp.hub.serving 6).objectBusy (rasterWait 7 [] (some (1, 4294967295))) = false ∧ 7 < 8 ∧ words32 [] = true ∧ (1 < 2 ∧ words32 [4294967295] = true)) ∧
    (wUp.hub.serves 6 0x0A01 = true ∧ (wUp.hub.serving 6).objectBusy (.raster 7 0 0 []) = false ∧ 7 < 8 ∧ 1 < 2) ∧
    (wUp.hub.serves 6 0x0A02 = true ∧ (wUp.hub.serving 6).objectBusy (.raster 7 0 0 []) = false ∧ 7 < 8) ∧
    (wUp.hub.serves 6 0x0A02 = true ∧ (wUp.hub.serving 6).objectBusy (.raster 7 0 0 []) = false ∧ 7 < 8) ∧
    (wUp.hub.serves 6 0x0A02 = true ∧ (wUp.hub.serving 6).objectBusy (.raster 7 0 0 []) = false ∧ 7 < 8) ∧
    (wUp.hub.serves 6 0x0B01 = true ∧ 63 < 64 ∧ 7 < 8 ∧ 1099511627775 < 2 ^ 40) ∧
    (wUp.hub.serves 6 0x0B02 = true ∧ 63 < 64) ∧ (wUp.hub.serves 6 0x0B03 = true ∧ 63 < 64) ∧
    (wUp.hub.serves 6 0x0B03 = true ∧ 63 < 64) := by decide

theorem witness_UsbAndFaultMailboxCommandsComplete :
    (wUp.hub.serves 6 0x0C01 = true ∧ words32 (([] : List (Nat × Nat)).map (fun p => p.2)) = true) ∧
    wUp.hub.serves 6 0x0C02 = true ∧ wUp.hub.serves 6 0x0C02 = true ∧ wUp.hub.serves 6 0x0C02 = true ∧
    wUp.hub.serves 6 0x0C03 = true ∧ (wUp.hub.serves 6 0x0C03 = true ∧ words32 [] = true) ∧
    wUp.hub.serves 6 0x0C03 = true ∧ wUp.hub.serves 6 0x0D01 = true ∧
    (wUp.hub.serves 6 0x0D02 = true ∧ words32 ((some 4294967295).getD 0 :: ([] : List (Nat × Nat)).map (fun p => p.2)) = true) ∧
    (wUp.hub.serves 6 0x0D03 = true ∧ 65535 < 65536) ∧ wUp.hub.serves 6 0x0D03 = true ∧
    (wUp.hub.serves 6 0x0D03 = true ∧ 65535 < 65536) ∧ (wUp.hub.serves 6 0x0D04 = true ∧ words32 [] = true) := by decide

theorem witness_KeyStateAndTestMailboxCommandsComplete :
    (wUp.hub.serves 6 0x0E01 = true ∧ words32 [0] = true) ∧
    (wUp.hub.serves 6 0x0E01 = true ∧ (wUp.hub.serving 6).objectBusy (.advance 2) = false) ∧
    wUp.hub.serves 6 0x0E02 = true ∧ (wUp.hub.serves 6 0x0E03 = true ∧ words32 [] = true) ∧
    (wUp.hub.serves 6 0x0E03 = true ∧ 1099511627775 < 2 ^ 40) ∧
    (wUp.hub.serves 6 0x0F01 = true ∧ (wUp.hub.serving 6).objectBusy .enter = false ∧ 3 < 4) ∧
    (wUp.hub.serves 6 0x0F01 = true ∧ words32 [0, 0] = true) ∧ wUp.hub.serves 6 0x0F01 = true ∧
    wUp.hub.serves 6 0x1001 = true ∧ wUp.hub.serves 6 0x1001 = true := by decide

end Sys2Proof.Tests
end

section
/-!
PROOFS. Gates: what GATE.SET answers (R37, R576) and the levels of masters 14 and 15 (R37, R575).
-/

namespace Sys2Proof.Machine

open Sys2Proof

/-! GATE.SET. -/

theorem Hub.gateSet_of_not_isOwner (h : Hub) (m t w : Nat) (win : Option (Nat × Nat)) (hm : h.isOwner m = false) :
    h.gateSet m t w win = h.refuse stNotOwner := by
  simp [Hub.gateSet, hm]

/-- The owner's word is checked before the window words are looked at. -/
theorem Hub.gateSet_of_illegal_word (h : Hub) (m t w : Nat) (win : Option (Nat × Nat)) (hm : h.isOwner m = true)
    (hw : Config.gateExists t = false ∨ bits w 15 14 ≠ 3 ∨ bits w 31 30 ≠ 0) :
    h.gateSet m t w win = h.refuse stBadArg := by
  simp [Hub.gateSet, hm, hw]

theorem Hub.gateSet_of_legal_word (h : Hub) (m t w : Nat) (hm : h.isOwner m = true)
    (ht : Config.gateExists t = true) (hwin : isWinTgt t = false) (h7 : bits w 15 14 = 3) (h15 : bits w 31 30 = 0) :
    h.gateSet m t w none = (h.set (R.gateWord t) w).ok [0, 0] := by
  simp [Hub.gateSet, hm, ht, hwin, h7, h15]

/-- A word that gives master 15 a level is refused by the first check of an issuer that is not the owner, by the second
of the owner. -/
theorem Hub.gateSet_of_master15_field (h : Hub) (m t w : Nat) (win : Option (Nat × Nat)) (hw : bits w 31 30 ≠ 0) :
    h.gateSet m t w win = h.refuse (if h.isOwner m then stBadArg else stNotOwner) := by
  cases hm : h.isOwner m with
  | false => exact h.gateSet_of_not_isOwner m t w win hm
  | true => exact h.gateSet_of_illegal_word m t w win hm (.inr (.inr hw))

/-! Levels. -/

@[simp] theorem Hub.level_master15 (h : Hub) (t : Nat) : h.level 15 t = 0 := by
  simp [Hub.level]

theorem Hub.level_master14 (h : Hub) (t : Nat) :
    h.level 14 t = if h.flag R.secDebug then bits (h.get (R.gateWord t)) 29 28 else 0 := by
  cases hd : h.flag R.secDebug <;> simp [Hub.level, hd]

/-- Settles O8: `gateSet_of_master15_field` leaves no gate word for master 15, `gateSet_of_legal_word` puts no condition
on the field of master 14, and the two laws of levels give the rest. -/
theorem master15HoldsNothingAndMaster14OnlyUnderDebug :
    Obligations.Master15HoldsNothingAndMaster14OnlyUnderDebug := by
  intro h
  refine ⟨fun m t w win hw => ?_, h.level_master15, fun m t w hm ht hwin h7 h15 => ?_, fun hd t => ?_, fun hd t => ?_⟩
  · rw [h.gateSet_of_master15_field m t w win hw]
    have hstatus : (if h.isOwner m then stBadArg else stNotOwner) ≠ stOk := by split <;> decide
    exact ⟨rfl, hstatus, fun hm => by rw [if_pos hm]; rfl⟩
  · rw [h.gateSet_of_legal_word m t w hm ht hwin h7 h15]
    rfl
  · simp [h.level_master14, hd]
  · simp [h.level_master14, hd]

end Sys2Proof.Machine
end

section
/-!
PROOFS. Acknowledgements: what an ACK block does whose ACK_SEQ names no link unit that waits for one (R127).
-/

namespace Sys2Proof.Machine

open Sys2Proof

/-! Trunks. -/

theorem isTrunk_iff (c : Nat) : isTrunk c = true ↔ 1 ≤ c ∧ c ≤ 4 := by
  simp [isTrunk]

theorem fNakRx_of_isTrunk (c : Nat) (hc : isTrunk c = true) : fNakRx c = R.linkNakRx (c - 1) := by
  simp [fNakRx, linkFld, hc]

theorem Hub.linkProtocol_of_isTrunk (h : Hub) (c : Nat) (hc : isTrunk c = true) :
    h.linkProtocol c = h.raise (srcLinkProto (c - 1)) 0 := by
  simp [Hub.linkProtocol, hc]

theorem srcSeverity_srcLinkProto (n : Nat) (hn : n < 4) : Config.srcSeverity (srcLinkProto n) = 2 := by
  have hgroup : (8 * n + 1) / 32 = 0 := by omega
  simp [Config.srcSeverity, srcLinkProto, hgroup]

/-! Acknowledgements. -/

theorem reliable_iff (k : Nat) : reliable k = true ↔ k = 0 ∨ k = 2 := by
  simp [reliable]

@[simp] theorem Hub.txc_inc (h : Hub) (f : Fld) (c k : Nat) : (h.inc f).txc c k = h.txc c k :=
  Hub.txc_of_links _ _ (h.links_inc f) c k

/-- ACK_SEQ lies past the link units sent: nothing is freed, and it counts as lying before the oldest where it is half
the sequence space or more ahead of it. -/
theorem Hub.applyAck_of_sent_le (h : Hub) (c k a : Nat)
    (hout : ((h.txc c k).nextSeq + 32768 - (h.txc c k).oldest) % 32768 ≤ (a + 32768 - (h.txc c k).oldest) % 32768) :
    h.applyAck c k a = (decide (16384 ≤ (a + 32768 - (h.txc c k).oldest) % 32768), h) := by
  simp [Hub.applyAck, Nat.not_lt.mpr hout]

/-- An ACK block with NAK 0 orders no replay: it does what its ACK_SEQ does. -/
theorem Hub.ackArrives_of_not_nak (h : Hub) (c w : Nat) (hr : reliable (bits w 9 8) = true) (hn : bit w 10 = false)
    {before : Bool} {h' : Hub} (ha : h.applyAck c (bits w 9 8) (bits w 25 11) = (before, h')) :
    h.ackArrives c w = if before then h' else h'.linkProtocol c := by
  cases before <;> simp [Hub.ackArrives, hr, hn, ha]

/-- An ACK block with NAK 1 is counted first, and orders a replay where its ACK_SEQ is no protocol error. -/
theorem Hub.ackArrives_of_nak (h : Hub) (c w : Nat) (hr : reliable (bits w 9 8) = true) (hn : bit w 10 = true)
    {before : Bool} {h' : Hub} (ha : (h.inc (fNakRx c)).applyAck c (bits w 9 8) (bits w 25 11) = (before, h')) :
    h.ackArrives c w = if before then h'.orderReplay c (bits w 9 8) (bits w 40 26) else h'.linkProtocol c := by
  cases before <;> simp [Hub.ackArrives, hr, hn, ha]

/-- Settles O25: `applyAck_of_sent_le` frees nothing, before and after NAK_RX has counted; what is left of
`ackArrives` is the protocol error of a trunk. -/
theorem ackOutsideTheWindowFreesNothing : Obligations.AckOutsideTheWindowFreesNothing := by
  intro h c w hc hk t d sent _ _ hout
  have hr : reliable (bits w 9 8) = true := (reliable_iff _).mpr hk
  have happly : h.applyAck c (bits w 9 8) (bits w 25 11) = (decide (16384 ≤ d), h) := h.applyAck_of_sent_le c _ _ hout
  have hcounted : (h.inc (fNakRx c)).applyAck c (bits w 9 8) (bits w 25 11) = (decide (16384 ≤ d), h.inc (fNakRx c)) := by
    simpa using (h.inc (fNakRx c)).applyAck_of_sent_le c (bits w 9 8) (bits w 25 11) (by simpa using hout)
  refine ⟨fun hn hbefore => ?_, fun hn hbeyond => ?_, fun hn hbeyond => ?_, ?_⟩
  · rw [h.ackArrives_of_not_nak c w hr hn happly, if_pos (decide_eq_true hbefore)]
  · rw [h.ackArrives_of_not_nak c w hr hn happly, if_neg (by simpa using hbeyond), h.linkProtocol_of_isTrunk c hc,
      srcLinkProto]
  · rw [h.ackArrives_of_nak c w hr hn hcounted, if_neg (by simpa using hbeyond), Hub.linkProtocol_of_isTrunk _ c hc,
      fNakRx_of_isTrunk c hc, srcLinkProto]
  · obtain ⟨_, _⟩ := (isTrunk_iff c).mp hc
    exact srcSeverity_srcLinkProto (c - 1) (by omega)

end Sys2Proof.Machine
end

section
/-!
PROOFS. Plans: what PLAN.ARM answers (R307), by the slot's state, the tick named and the other slots.
-/

namespace Sys2Proof.Machine

open Sys2Proof

/-! The plan named, and the slots in execution. -/

theorem Hub.planNamed_eq_stOk (h : Hub) (m pid : Nat) (hm : m ≤ 4) (hpid : pid ≠ 0) (hid : h.get (R.planPlanId m) = pid) :
    h.planNamed m pid = stOk := by
  simp [Hub.planNamed, Nat.not_lt.mpr hm, hpid, hid]

theorem Hub.planIn_iff (h : Hub) (l : List Nat) : h.planIn l = true ↔ ∃ s, s < 5 ∧ h.planState s ∈ l := by
  have hslots : [0, 1, 2, 3, 4] = List.range 5 := by decide
  simp [Hub.planIn, hslots]

/-- The slots in execution, as PLAN.ARM looks for them. -/
theorem Hub.any_window_or_reverting (h : Hub) :
    [0, 1, 2, 3, 4].any (fun s => h.planState s == pWindow || h.planState s == pReverting) =
      h.planIn [pWindow, pReverting] := by
  simp only [Hub.planIn, List.contains_cons, List.contains_nil, Bool.or_false]

/-! The slot's change. -/

/-- The slot of `m` is ARMED for tick `n`. -/
def Hub.armSlot (h : Hub) (m n : Nat) : Hub :=
  h.setAll [(R.planState m, pArmed), (R.planArmLo m, n % 2 ^ 32), (R.planArmHi m, n / 2 ^ 32)]

theorem Hub.armSlot_eq_set (h : Hub) (m n : Nat) : h.armSlot m n =
    ((h.set (R.planState m) pArmed).set (R.planArmLo m) (n % 2 ^ 32)).set (R.planArmHi m) (n / 2 ^ 32) := rfl

theorem Hub.planState_armSlot (h : Hub) (m n : Nat) : (h.armSlot m n).planState m = pArmed := by
  rw [Hub.planState, Hub.armSlot_eq_set, Hub.get_set_ne _ _ _ _ (by simp), Hub.get_set_ne _ _ _ _ (by simp), Hub.get_set]
  rfl

theorem Hub.get_planArmLo_armSlot (h : Hub) (m n : Nat) : (h.armSlot m n).get (R.planArmLo m) = n % 2 ^ 32 := by
  rw [Hub.armSlot_eq_set, Hub.get_set_ne _ _ _ _ (by simp), Hub.get_set, Nat.mod_mod]

theorem Hub.get_planArmHi_armSlot (h : Hub) (m n : Nat) (hn : n < 2 ^ 48) :
    (h.armSlot m n).get (R.planArmHi m) = n / 2 ^ 32 := by
  rw [Hub.armSlot_eq_set, Hub.get_set, Nat.mod_eq_of_lt (by simp only; omega)]

theorem Hub.get_armSlot_ne (h : Hub) (m n : Nat) (f : Fld) (hst : f.key ≠ (R.planState m).key)
    (hlo : f.key ≠ (R.planArmLo m).key) (hhi : f.key ≠ (R.planArmHi m).key) : (h.armSlot m n).get f = h.get f :=
  Hub.get_setAll_ne _ h f (by simp [Ne.symm hst, Ne.symm hlo, Ne.symm hhi])

/-! PLAN.ARM of the slot's own plan. -/

section
variable {h : Hub} {m pid n : Nat} (hnamed : h.planNamed m pid = stOk)
include hnamed

theorem Hub.planArm_of_not_checked (hst : h.planState m ≠ pChecked) : h.planArm m pid n = h.refuse stBusy := by
  simp [Hub.planArm, hnamed, hst]

variable (hst : h.planState m = pChecked)
include hst

theorem Hub.planArm_of_too_late (hn : n < h.tickNum + 2) : h.planArm m pid n = h.refuse stTooLate := by
  simp [Hub.planArm, hnamed, hst, hn]

theorem Hub.planArm_of_too_far (hn : h.tickNum + 65536 < n) : h.planArm m pid n = h.refuse stBadArg := by
  have hlate : ¬ n < h.tickNum + 2 := by omega
  simp [Hub.planArm, hnamed, hst, hlate, hn]

variable (hlo : h.tickNum + 2 ≤ n) (hhi : n ≤ h.tickNum + 65536)
include hlo hhi

theorem Hub.planArm_of_in_execution (hx : h.planIn [pWindow, pReverting] = true) :
    h.planArm m pid n = h.refuse stInPlan := by
  rw [Hub.planArm, hnamed, if_neg (by simp), if_neg (by simp [hst]), if_neg (by omega), if_neg (by omega),
    h.any_window_or_reverting, if_pos hx]

/-- Where the checks on arming pass as well, PLAN.ARM completes with OK and arms the slot. -/
theorem Hub.planArm_of_armCheck (hx : h.planIn [pWindow, pReverting] = false) (hcheck : h.armCheck m n = none) :
    (h.planArm m pid n).1.status = stOk ∧ (h.planArm m pid n).2 = h.armSlot m n := by
  rw [Hub.planArm, hnamed, if_neg (by simp), if_neg (by simp [hst]), if_neg (by omega), if_neg (by omega),
    h.any_window_or_reverting, if_neg (by simp [hx]), hcheck]
  exact ⟨rfl, rfl⟩

end

/-- Settles O31: one lemma for each answer of PLAN.ARM (`planArm_of_not_checked` to `planArm_of_armCheck`), in the order
in which it checks; the fields of the armed slot are those of `armSlot`. -/
theorem planArmIsAcceptedOnlyCheckedAndInTime : Obligations.PlanArmIsAcceptedOnlyCheckedAndInTime := by
  intro h m pid n hm hpid hid hn
  have hnamed : h.planNamed m pid = stOk := h.planNamed_eq_stOk m pid hm hpid hid
  refine ⟨Hub.planArm_of_not_checked hnamed, Hub.planArm_of_too_late hnamed, Hub.planArm_of_too_far hnamed,
    fun hst hlo hhi => ⟨fun hx => ?_, fun hidle hcheck => ?_⟩⟩
  · exact Hub.planArm_of_in_execution hnamed hst hlo hhi ((h.planIn_iff _).mpr (by simpa using hx))
  · have hnone : h.planIn [pWindow, pReverting] = false := by
      simpa [← Bool.not_eq_true, Hub.planIn_iff] using hidle
    obtain ⟨hok, harmed⟩ := Hub.planArm_of_armCheck hnamed hst hlo hhi hnone hcheck
    rw [harmed]
    exact ⟨hok, h.planState_armSlot m n, h.get_planArmLo_armSlot m n, h.get_planArmHi_armSlot m n hn,
      h.get_armSlot_ne m n⟩

end Sys2Proof.Machine
end

section
/-!
PROOFS. Line ports: what becomes of a line port's frame that names a system tunnel (R352).
-/

namespace Sys2Proof.Machine

open Sys2Proof

/-! Saturating counters. -/

theorem Hub.get_inc (h : Hub) (f : Fld) : (h.inc f).get f = min (h.get f + 1) (2 ^ f.width - 1) := by
  have hpos : 0 < 2 ^ f.width := Nat.two_pow_pos f.width
  have hfits : min (h.get f + 1) (2 ^ f.width - 1) < 2 ^ f.width := by omega
  rw [Hub.inc, Hub.add, Hub.get_set, Nat.mod_eq_of_lt hfits]

theorem Hub.get_inc_ne (h : Hub) (f g : Fld) (hk : f.key ≠ g.key) : (h.inc f).get g = h.get g :=
  h.get_set_ne f g _ hk

/-- Counting changes nothing of the hub but its register fields. -/
theorem Hub.inc_frame (h : Hub) (f : Fld) : { h.inc f with regs := h.regs } = h :=
  h.set_frame f _

/-! Frames of a line port. -/

theorem fPreDrop_of_line (c : Nat) (hc : 5 ≤ c) : fPreDrop c = R.lpPreDrop (c - 5) := by
  have htrunk : ¬ isTrunk c = true := fun ht => by
    obtain ⟨_, hle⟩ := (isTrunk_iff c).mp ht
    omega
  rw [fPreDrop, linkFld, if_neg htrunk]

/-- A frame that is no node-bus packet and names a tunnel below 0x010 is counted in PRE_DROP and goes no further, whether
the port is UP or not (R351, R352). -/
theorem Hub.lineFrame_of_system_tunnel (h : Hub) (c : Nat) (f : Frame) (arrived : Nat) (nos : List Nat)
    (hnb : f.nb = none) (htid : f.tid < 16) : h.lineFrame c f arrived nos = h.inc (fPreDrop c) := by
  simp [Hub.lineFrame, hnb, Nat.not_le.mpr htid]

/-- Settles O33: `lineFrame_of_system_tunnel` leaves the one count, in the port's own PRE_DROP, and the laws of a
saturating counter say what it does. -/
theorem lineFramesNeverReachTheSystemTunnels : Obligations.LineFramesNeverReachTheSystemTunnels := by
  intro h c n f nos hc _ hnb _ htid
  have hcounted : h.lineFrame c f n nos = h.inc (R.lpPreDrop (c - 5)) := by
    rw [h.lineFrame_of_system_tunnel c f n nos hnb (by omega), fPreDrop_of_line c hc]
  rw [hcounted]
  exact ⟨h.get_inc _, fun g hg => h.get_inc_ne _ g (Ne.symm hg), h.inc_frame _⟩

end Sys2Proof.Machine
end

section
/-!
PROOFS. What GATE.GET (R577) and KEY.CHECK (R566) answer, and what a claim of ownership does with a good and with a bad
proof (R571, R572).
-/

namespace Sys2Proof.Machine

open Sys2Proof

/-! GATE.GET. -/

theorem Hub.gateGet_of_granted (h : Hub) (m t : Nat) (ht : Config.gateExists t = true)
    (hm : h.isOwner m = true ∨ h.holds m t 1 = true) :
    h.gateGet m t = h.ok (h.get (R.gateWord t) :: (if isWinTgt t then h.winWords (t - 0x40) else [0, 0])) := by
  have hgranted : ¬ (!h.isOwner m ∧ !h.holds m t 1) := by
    rcases hm with ho | hr
    · simp [ho]
    · simp [hr]
  rw [Hub.gateGet, if_neg (by simp [ht]), if_neg hgranted]

theorem Hub.gateGet_of_not_granted (h : Hub) (m t : Nat) (ht : Config.gateExists t = true) (ho : h.isOwner m = false)
    (hr : h.holds m t 1 = false) : h.gateGet m t = h.refuse stDenied := by
  rw [Hub.gateGet, if_neg (by simp [ht]), if_pos (by simp [ho, hr])]

/-- Settles O9: an existing target leaves `gateGet` the one question whether the issuer may read it. -/
theorem gateGetNeedsReadUnlessOwner : Obligations.GateGetNeedsReadUnlessOwner :=
  fun h m t ht => ⟨h.gateGet_of_granted m t ht, h.gateGet_of_not_granted m t ht⟩

/-! KEY.CHECK. -/

theorem Hub.keyValid_iff (h : Hub) (s : Nat) : h.keyValid s = true ↔ h.get (R.keyState s) = 1 := by
  simp [Hub.keyValid, ksValid]

theorem Hub.keyCheck_of_not_holds (h : Hub) (m s : Nat) (n : List Nat) (hm : h.holds m tgtKeys 1 = false) :
    h.keyCheck m s n = h.refuse stDenied := by
  simp [Hub.keyCheck, hm]

section
variable {h : Hub} {m s : Nat} {n : List Nat} (hm : h.holds m tgtKeys 1 = true) (hlo : 6 ≤ s) (hhi : s ≤ 127)
  (hn : n.length = 4)
include hm hlo hhi hn

theorem Hub.keyCheck_of_valid (hs : h.keyValid s = true) : h.keyCheck m s n =
    h.ok (bytesWords (cmacBytes (h.keyMat s) (labelBytes "CHK" ++ wordBytes n ++ le64 h.sec.hubId)) ++
      h.slotStatus s) := by
  rw [Hub.keyCheck, if_neg (by simp [hm]), if_neg (by omega), if_neg (by simp [hs])]

theorem Hub.keyCheck_of_not_valid (hs : h.keyValid s = false) : h.keyCheck m s n = h.ok (h.slotStatus s) := by
  rw [Hub.keyCheck, if_neg (by simp [hm]), if_neg (by omega), if_pos (by simp [hs])]

end

/-- Settles O12: one lemma for each answer of `keyCheck`, by the issuer's level and the slot's state. -/
theorem keyCheckAnswersTheCmacOfAValidSlot : Obligations.KeyCheckAnswersTheCmacOfAValidSlot := by
  refine fun h m k n => ⟨h.keyCheck_of_not_holds m k n, fun hm hlo hhi hn hvalid => ?_, fun hm hlo hhi hn hother => ?_⟩
  · exact Hub.keyCheck_of_valid hm hlo hhi hn ((h.keyValid_iff k).mpr hvalid)
  · exact Hub.keyCheck_of_not_valid hm hlo hhi hn (by simpa [← h.keyValid_iff k] using hother)

/-! Tables: what is read at the key that was entered or removed. -/

@[simp] theorem tabGet_tabPut_self {α : Type} (t : Tab α) (k : Key) (v d : α) : tabGet (tabPut t k v) k d = v := by
  simp [tabGet, tabFind_tabPut]

@[simp] theorem tabGet_tabErase_self {α : Type} (t : Tab α) (k : Key) (d : α) : tabGet (tabErase t k) k d = d := by
  simp [tabGet, tabFind_tabErase]

/-! The record of a change of ownership (Table 21-5) is the notification task's alone. -/

@[simp] theorem Hub.regs_addRecord (h : Hub) (m : Nat) (r : Record) : (h.addRecord m r).regs = h.regs := by
  unfold Hub.addRecord
  split <;> rfl

@[simp] theorem Hub.sec_addRecord (h : Hub) (m : Nat) (r : Record) : (h.addRecord m r).sec = h.sec := by
  unfold Hub.addRecord
  split <;> rfl

@[simp] theorem Hub.regs_ownerRecord (h : Hub) (evt new old : Nat) : (h.ownerRecord evt new old).regs = h.regs :=
  Hub.each_keeps Hub.regs _ _ (fun h _ => h.regs_addRecord _ _) h

@[simp] theorem Hub.sec_ownerRecord (h : Hub) (evt new old : Nat) : (h.ownerRecord evt new old).sec = h.sec :=
  Hub.each_keeps Hub.sec _ _ (fun h _ => h.sec_addRecord _ _) h

/-! Ownership is two register fields. -/

theorem Hub.isOwner_of_regs {h h' : Hub} (e : h'.regs = h.regs) (m : Nat) : h'.isOwner m = h.isOwner m := by
  simp only [Hub.isOwner, Hub.flag, Hub.get, e]

theorem Hub.isOwner_setSec (h : Hub) (x : Security) (m : Nat) : ({ h with sec := x } : Hub).isOwner m = h.isOwner m := rfl

/-- The number of the owner has 4 bits. -/
theorem Hub.isOwner_setAll_owner (h : Hub) (m : Nat) (hm : m < 16) :
    (h.setAll [(R.secOwned, 1), (R.secOwner, m)]).isOwner m = true := by
  have howned : (h.setAll [(R.secOwned, 1), (R.secOwner, m)]).get R.secOwned = 1 := by
    change ((h.set R.secOwned 1).set R.secOwner m).get R.secOwned = 1
    rw [Hub.get_set_ne _ _ _ _ (by decide), Hub.get_set]
    rfl
  have howner : (h.setAll [(R.secOwned, 1), (R.secOwner, m)]).get R.secOwner = m := by
    change ((h.set R.secOwned 1).set R.secOwner m).get R.secOwner = m
    exact (Hub.get_set _ _ _).trans (Nat.mod_eq_of_lt hm)
  simp [Hub.isOwner, Hub.flag, howned, howner]

theorem Hub.isOwner_inc (h : Hub) (f : Fld) (m : Nat) (howned : f.key ≠ R.secOwned.key)
    (howner : f.key ≠ R.secOwner.key) : (h.inc f).isOwner m = h.isOwner m := by
  simp only [Hub.isOwner, Hub.flag, h.get_inc_ne f _ howned, h.get_inc_ne f _ howner]

/-! A good proof. -/

theorem Hub.status_claimed (h : Hub) (m : Nat) : (h.claimed m).1.status = stOk := rfl

/-- Whatever the former owner's slot undergoes comes before the new owner is entered. -/
theorem Hub.isOwner_claimed (h : Hub) (m : Nat) (hm : m < 16) : (h.claimed m).2.isOwner m = true := by
  have hentered (h : Hub) : ((h.setAll [(R.secOwned, 1), (R.secOwner, m)]).inc R.secClaims).isOwner m = true := by
    rw [Hub.isOwner_inc _ _ _ (by decide) (by decide), h.isOwner_setAll_owner m hm]
  simp only [Hub.claimed, Hub.ok]
  rw [Hub.isOwner_of_regs (Hub.regs_ownerRecord _ _ _ _), Hub.isOwner_setSec, hentered]

theorem Hub.bad_claimed (h : Hub) (m : Nat) : tabGet (h.claimed m).2.sec.bad (k1 m) 0 = 0 := by
  simp [Hub.claimed, Hub.ok]

theorem Hub.holdUntil_claimed (h : Hub) (m : Nat) : tabGet (h.claimed m).2.sec.holdUntil (k1 m) 0 = 0 := by
  simp [Hub.claimed, Hub.ok]

/-! A bad proof. -/

/-- The hold-off after `n` bad proofs in a row and one more (R572). -/
theorem holdOff_succ (n : Nat) : holdOff (n + 1) = min (100000000 * 2 ^ n) 12800000000 := by
  unfold holdOff
  rcases Nat.le_total n 7 with hle | hge
  · have hcapped : 2 ^ n ≤ 2 ^ 7 := Nat.pow_le_pow_right (by decide) hle
    rw [Nat.min_eq_left (by omega : n + 1 ≤ 8), Nat.add_sub_cancel]
    omega
  · have hfull : 2 ^ 7 ≤ 2 ^ n := Nat.pow_le_pow_right (by decide) hge
    rw [Nat.min_eq_right (by omega : 8 ≤ n + 1)]
    omega

theorem Hub.fst_claimFailed (h : Hub) (m : Nat) : (h.claimFailed m).1 = { status := stDenied } := rfl

theorem Hub.get_secBadClaim_claimFailed (h : Hub) (m : Nat) :
    (h.claimFailed m).2.get R.secBadClaim = min (h.get R.secBadClaim + 1) 65535 :=
  h.get_inc R.secBadClaim

theorem Hub.get_claimFailed_ne (h : Hub) (m : Nat) (f : Fld) (hf : f.key ≠ R.secBadClaim.key) :
    (h.claimFailed m).2.get f = h.get f :=
  h.get_inc_ne R.secBadClaim f (Ne.symm hf)

theorem Hub.bad_claimFailed (h : Hub) (m : Nat) :
    tabGet (h.claimFailed m).2.sec.bad (k1 m) 0 = tabGet h.sec.bad (k1 m) 0 + 1 :=
  tabGet_tabPut_self _ _ _ _

theorem Hub.holdUntil_claimFailed (h : Hub) (m : Nat) : tabGet (h.claimFailed m).2.sec.holdUntil (k1 m) 0 =
    h.now + min (100000000 * 2 ^ tabGet h.sec.bad (k1 m) 0) 12800000000 :=
  (tabGet_tabPut_self _ _ _ _).trans (congrArg (h.now + ·) (holdOff_succ _))

/-! SYS.CLAIM. -/

/-- The challenge of `m` is spent: it answers for one PROVE (R571). -/
def Hub.challengeSpent (h : Hub) (m : Nat) : Hub :=
  { h with sec := { h.sec with chal := tabErase h.sec.chal (k1 m) } }

section
variable {h : Hub} {m : Nat} {po : List Nat} (hm : m ≤ 4) (hpo : po.length = 4) (hbar : h.claimBarred m = false)
include hm hpo hbar

theorem Hub.claimProve_of_good (hproof : h.claimProof m = some (wordBytes po)) :
    h.claimProve m po = (h.challengeSpent m).claimed m := by
  simp [Hub.claimProve, Nat.not_lt.mpr hm, hpo, hbar, hproof, Hub.challengeSpent]

theorem Hub.claimProve_of_bad (hproof : h.claimProof m ≠ some (wordBytes po)) :
    h.claimProve m po = (h.challengeSpent m).claimFailed m := by
  simp [Hub.claimProve, Nat.not_lt.mpr hm, hpo, hbar, hproof, Hub.challengeSpent]

end

theorem Hub.claimChallenge_of_hold_off (h : Hub) (m : Nat) (hm : m ≤ 4)
    (hhold : h.now < tabGet h.sec.holdUntil (k1 m) 0) : h.claimChallenge m = h.refuse stBusy := by
  simp [Hub.claimChallenge, Nat.not_lt.mpr hm, hhold]

/-- Settles O11: PROVE comes down to `claimFailed` or `claimed` once the challenge is spent, which changes no register
field, no count and no hold-off. -/
theorem badOwnershipProofStartsAHoldOff : Obligations.BadOwnershipProofStartsAHoldOff := by
  refine fun h m po hm => ⟨fun hpo hbar hbad => ?_, fun hpo hbar hgood => ?_, h.claimChallenge_of_hold_off m hm⟩
  · rw [Hub.claimProve_of_bad hm hpo hbar hbad]
    exact ⟨Hub.fst_claimFailed _ m, Hub.get_secBadClaim_claimFailed _ m, Hub.bad_claimFailed _ m,
      Hub.holdUntil_claimFailed _ m, Hub.get_claimFailed_ne _ m⟩
  · rw [Hub.claimProve_of_good hm hpo hbar hgood]
    exact ⟨Hub.status_claimed _ m, Hub.isOwner_claimed _ m (by omega), Hub.bad_claimed _ m, Hub.holdUntil_claimed _ m⟩

end Sys2Proof.Machine
end

section
/-!
PROOFS. Doorbells: which one a mailbox accepts, what becomes of the others, and that no master's own doorbell is refused
(R43, R605).
-/

namespace Sys2Proof.Machine

open Sys2Proof

/-! An event signal pulses pins (R661). -/

/-- An event signal changes nothing of the hub but what has been driven outwards. -/
theorem Hub.obsEvent_eq (h : Hub) (r s : Nat) : ∃ driven, h.obsEvent r s = { h with out := driven } := by
  refine List.foldlRecOn (motive := fun x : Hub => ∃ driven, x = { h with out := driven }) _ _ ⟨h.out, rfl⟩ ?_
  rintro _ ⟨driven, rfl⟩ p _
  split
  · exact ⟨.pin "OBS" p 2 :: driven, rfl⟩
  · exact ⟨driven, rfl⟩

/-! An accepted doorbell. -/

/-- The hub once the doorbell of mailbox `m` is accepted with SEQ `seq`; `driven` is what has been driven outwards by
then. -/
def Hub.bellAccepted (h : Hub) (m seq : Nat) (driven : List Out) : Hub :=
  { (h.set (R.mbxSeq m) seq).set (R.mbxState m) mbQueued with
    out := driven, ctl := { h.ctl with order := h.ctl.order ++ [m] } }

section
variable (h : Hub) (m seq : Nat) (driven : List Out)

theorem Hub.get_bellAccepted (f : Fld) :
    (h.bellAccepted m seq driven).get f = ((h.set (R.mbxSeq m) seq).set (R.mbxState m) mbQueued).get f := rfl

theorem Hub.get_mbxSeq_bellAccepted (hseq : seq < 2 ^ 16) :
    (h.bellAccepted m seq driven).get (R.mbxSeq m) = seq := by
  rw [h.get_bellAccepted, Hub.get_set_ne _ _ _ _ (by simp), Hub.get_set, Nat.mod_eq_of_lt hseq]

theorem Hub.get_mbxState_bellAccepted :
    (h.bellAccepted m seq driven).get (R.mbxState m) = mbQueued := by
  rw [h.get_bellAccepted, Hub.get_set]
  rfl

theorem Hub.get_bellAccepted_ne (f : Fld) (hs : f.key ≠ (R.mbxSeq m).key)
    (hst : f.key ≠ (R.mbxState m).key) : (h.bellAccepted m seq driven).get f = h.get f := by
  rw [h.get_bellAccepted, Hub.get_set_ne _ _ _ _ (Ne.symm hst), Hub.get_set_ne _ _ _ _ (Ne.symm hs)]

theorem Hub.mbLocked_bellAccepted : (h.bellAccepted m seq driven).mbLocked m = true := by
  rw [Hub.mbLocked, Hub.mbState, h.get_mbxState_bellAccepted]
  rfl

theorem Hub.order_bellAccepted : (h.bellAccepted m seq driven).ctl.order = h.ctl.order ++ [m] := rfl

theorem Hub.bellAccepted_frame :
    { h.bellAccepted m seq driven with
      regs := h.regs, out := h.out, ctl := { (h.bellAccepted m seq driven).ctl with order := h.ctl.order } } = h := rfl

end

/-! Which doorbell is accepted. -/

theorem Hub.mbLocked_eq_false_iff (h : Hub) (m : Nat) :
    h.mbLocked m = false ↔ h.get (R.mbxState m) = 0 ∨ h.get (R.mbxState m) = 4 := by
  rw [Hub.mbLocked, Hub.mbState, mbIdle, mbDone, Bool.and_eq_false_iff, bne_eq_false_iff_eq, bne_eq_false_iff_eq]

theorem Hub.doorbell_of_accepted (h : Hub) (m seq : Nat) (hfree : h.mbLocked m = false)
    (hnew : h.get (R.mbxSeq m) ≠ seq) : ∃ driven, h.doorbell m seq = h.bellAccepted m seq driven := by
  obtain ⟨driven, hpulse⟩ := Hub.obsEvent_eq (h.setAll [(R.mbxSeq m, seq), (R.mbxState m, mbQueued)]) 7 7
  rw [Hub.doorbell, if_pos (by simp [hfree, Ne.symm hnew]), hpulse]
  exact ⟨driven, rfl⟩

theorem Hub.doorbell_of_ignored (h : Hub) (m seq : Nat) (hbar : h.mbLocked m = true ∨ h.get (R.mbxSeq m) = seq) :
    h.doorbell m seq = h.inc (R.mbxDbIgnored m) := by
  have hno : ¬ (!h.mbLocked m && seq != h.get (R.mbxSeq m)) = true := by
    rcases hbar with hlocked | hsame
    · simp [hlocked]
    · simp [hsame]
  rw [Hub.doorbell, if_neg hno]

/-! The mailbox windows (Table 1-13). -/

theorem winOf_mailbox (m o : Nat) (hm : m < 8) (ho : o < 0x1000) :
    winOf (0x7010000 + m * 0x1000 + o) = some (.mailbox m) := by
  have hblock : (0x7010000 + m * 0x1000 + o - 0x7010000) / 0x1000 = m := by omega
  rw [winOf, if_neg (by omega), if_neg (by omega), if_pos (by omega), hblock]

/-- The lock bars a write of the command block alone, so never one of the doorbell (R606). -/
theorem Hub.wordAllowed_own_doorbell (h : Hub) (m : Nat) (hm : m < 7) :
    h.wordAllowed m true (0x7010800 + m * 0x1000) = true := by
  have haddr : 0x7010800 + m * 0x1000 = 0x7010000 + m * 0x1000 + 0x800 := by omega
  have hoff : ¬ (0x7010000 + m * 0x1000 + 0x800) % 0x1000 < 0x400 := by omega
  simp [haddr, Hub.wordAllowed, winOf_mailbox m 0x800 (by omega) (by omega), hm, hoff]

/-- Settles O18: a doorbell comes down to `bellAccepted` or to one count in DB_IGNORED, by `mbLocked` and SEQ; the laws
of each say what it changes. -/
theorem doorbellIsAcceptedOnceOrCounted : Obligations.DoorbellIsAcceptedOnceOrCounted := by
  refine fun h m seq hseq => ⟨fun hstate hnew => ?_, fun hbar => ?_, h.wordAllowed_own_doorbell m⟩
  · obtain ⟨driven, haccepted⟩ := h.doorbell_of_accepted m seq ((h.mbLocked_eq_false_iff m).mpr hstate) hnew
    rw [haccepted]
    exact ⟨h.get_mbxSeq_bellAccepted m seq driven hseq, h.get_mbxState_bellAccepted m seq driven,
      h.mbLocked_bellAccepted m seq driven, h.order_bellAccepted m seq driven, h.get_bellAccepted_ne m seq driven,
      h.bellAccepted_frame m seq driven⟩
  · have hignored : h.mbLocked m = true ∨ h.get (R.mbxSeq m) = seq :=
      hbar.imp_left fun hstate => by simpa [← Bool.not_eq_false, h.mbLocked_eq_false_iff m] using hstate
    rw [h.doorbell_of_ignored m seq hignored]
    exact ⟨h.get_inc _, fun f hf => h.get_inc_ne _ f (Ne.symm hf), h.inc_frame _⟩

end Sys2Proof.Machine
end

section
/-!
PROOFS. The queue of waiting commands and the form of memory: every command is a change of the state that does not look at the queue
behind it and keeps memory canonical.
-/

namespace Sys2Proof.Machine

open Sys2Proof

/-- A change of the state that does not look at the queue of waiting commands and keeps memory canonical. -/
structure Orderly (g : State → State) : Prop where
  setPending (s : State) (q : List Instr) : g { s with pending := q } = { g s with pending := q }
  memSound (s : State) (hs : s.memSound) : (g s).memSound

theorem Orderly.id : Orderly (fun s => s) := ⟨fun _ _ => rfl, fun _ hs => hs⟩

theorem Orderly.comp {f g : State → State} (hf : Orderly f) (hg : Orderly g) : Orderly (fun s => f (g s)) :=
  ⟨fun s q => by rw [hg.setPending, hf.setPending], fun s hs => hf.memSound _ (hg.memSound s hs)⟩

/-- The hub alone changes. -/
theorem Orderly.setHub (f : Hub → Memory → Hub) : Orderly (fun s => { s with hub := f s.hub s.mem }) :=
  ⟨fun _ _ => rfl, fun _ hs => hs⟩

/-- What is decided by hub and memory can be taken as decided. -/
theorem Orderly.of_parts {g : Hub → Memory → State → State} (hg : ∀ h m, Orderly (g h m)) :
    Orderly (fun s => g s.hub s.mem s) :=
  ⟨fun s q => (hg s.hub s.mem).setPending s q, fun s hs => (hg s.hub s.mem).memSound s hs⟩

theorem Orderly.ite {c : Prop} [Decidable c] {f g : State → State} (hf : Orderly f) (hg : Orderly g) :
    Orderly (fun s => if c then f s else g s) := by
  split
  · exact hf
  · exact hg
theorem orderly_lp5Serve1 (a : Lp5Acc) : Orderly (fun s => s.lp5Serve1 a) where
  setPending s q := by
    unfold State.lp5Serve1
    cases a.wr <;> rfl
  memSound s hs := s.lp5Serve1_memSound a hs

theorem orderly_foldl {α : Type} {g : State → α → State} (hg : ∀ a, Orderly (fun s => g s a)) (l : List α) :
    Orderly (fun s => l.foldl g s) := by
  induction l with
  | nil => exact .id
  | cons a l ih => exact ih.comp (hg a)

theorem orderly_lp5Serve : Orderly State.lp5Serve := by
  refine .of_parts (g := fun h _ s =>
    if h.get R.lp5Lpstate ≠ 0 ∨ h.lp5.exiting then s
    else (h.lp5.queue.filter h.accUrgent ++ h.lp5.queue.filter (fun a => !h.accUrgent a)).foldl State.lp5Serve1
      { s with hub := { s.hub with lp5 := { s.hub.lp5 with queue := [] } } }) fun h _ => .ite .id ?_
  exact (orderly_foldl orderly_lp5Serve1 _).comp (.setHub fun h _ => { h with lp5 := { h.lp5 with queue := [] } })

/-- The hub is brought in order after a change, by what it was before. -/
theorem Orderly.settled {f : State → State} (hf : Orderly f) (g : Hub → Hub → Hub) :
    Orderly (fun s => { f s with hub := g (f s).hub s.hub }) where
  setPending s q := by rw [hf.setPending]
  memSound s hs := hf.memSound s hs

theorem orderly_actAll {f : State → State} (hf : Orderly f) : Orderly (fun s => s.actAll f) := by
  unfold State.actAll
  exact orderly_lp5Serve.comp (hf.settled Hub.settleFrom)

theorem orderly_act (f : Hub → Hub) : Orderly (fun s => s.act f) :=
  orderly_lp5Serve.comp (.setHub fun h _ => (f h).settleFrom h)

/-! Services of the firmware. -/

theorem orderly_served {g : State → State} (hg : Orderly g) (m op : Nat) :
    Orderly (fun s => if !s.hub.serves m op then s else g s) :=
  .of_parts (g := fun h _ s => if !h.serves m op then s else g s) fun _ _ => .ite .id hg

theorem orderly_run (m op : Nat) (f : Hub → Ans × Hub) : Orderly (fun s => s.run m op f) :=
  orderly_served (orderly_act _) m op

/-- `t` is `u` but for the queue `q`, and memory that is canonical in `s` is so in `u`: what one operation leaves on `s` with
another queue, and on `s`. -/
structure State.Requeued (s : State) (q : List Instr) (t u : State) : Prop where
  eq : t = { u with pending := q }
  memSound : s.memSound → u.memSound

theorem Orderly.of_requeued {g : State → State}
    (hg : ∀ (s : State) q, s.Requeued q (g { s with pending := q }) (g s)) : Orderly g :=
  ⟨fun s q => (hg s q).eq, fun s => (hg s s.pending).memSound⟩

theorem Orderly.requeued {g : State → State} (hg : Orderly g) (s : State) (q : List Instr) :
    s.Requeued q (g { s with pending := q }) (g s) :=
  ⟨hg.setPending s q, hg.memSound s⟩

/-- Where the hub alone is changed, by the same change. -/
theorem State.Requeued.hub {s : State} {q : List Instr} {h : Hub} :
    s.Requeued q { s with hub := h, pending := q } { s with hub := h } :=
  ⟨rfl, fun hs => hs⟩

/-- A further change of the hub, by the same change. -/
theorem State.Requeued.setHub {s t u : State} {q : List Instr} (htu : s.Requeued q t u) (f : Hub → Memory → Hub) :
    s.Requeued q { t with hub := f t.hub t.mem } { u with hub := f u.hub u.mem } := by
  obtain ⟨rfl, hsound⟩ := htu
  exact ⟨rfl, hsound⟩

theorem orderly_setHubMem {f : Hub → Hub} {p : Hub → Bool} {g : Memory → Memory}
    (hg : ∀ m, Memory.wf m = true → Memory.wf (g m) = true) :
    Orderly (fun s => { s with hub := f s.hub, mem := if p s.hub then g s.mem else s.mem }) where
  setPending _ _ := rfl
  memSound s hs := by
    unfold State.memSound
    dsimp only
    split
    · exact hg s.mem hs
    · exact hs

theorem orderly_cold (cause lkind lsnk : Nat) (hbcompat : Bool) (smbadr : Nat) :
    Orderly (fun s => s.cold cause lkind lsnk hbcompat smbadr) :=
  ⟨fun _ _ => rfl, fun _ _ => rfl⟩

theorem orderly_lp5Now : Orderly State.lp5Now :=
  orderly_lp5Serve.comp (.of_parts (g := fun h _ s => if h.get R.lp5Lpstate ≠ 0 ∨ h.lp5.exiting then
    { s with hub := s.hub.lp5Awake } else s) fun _ _ => .ite (.setHub fun h _ => h.lp5Awake) .id)

theorem orderly_memacc (wr : Bool) (a w : Nat) : Orderly (fun s => s.memacc wr a w) := by
  refine .of_requeued fun s q => ?_
  have hnow := orderly_lp5Now.requeued s q
  unfold State.memacc
  dsimp -zeta only
  extract_lets h s' u
  repeat' split
  · exact .hub
  · exact .hub
  · exact .hub
  · exact .hub
  · exact .hub
  · exact .hub
  · exact ⟨by rw [show s' = _ from hnow.eq], fun hs => memWrite_wf _ _ _ (hnow.memSound hs)⟩
  · exact hnow.setHub fun h m => h.memaccResult false (leWord (memRead m a 4))

theorem orderly_nodeRead (n : Nat) (f : Frame) (x : NbHead) (inTime : Bool) :
    Orderly (fun s => s.nodeRead n f x inTime) := by
  refine .of_requeued fun s q => ?_
  have hserved := orderly_lp5Serve.requeued s q
  unfold State.nodeRead
  dsimp -zeta only
  extract_lets
  split
  · exact .hub
  split
  · exact .hub
  split
  · split
    · exact .hub
    split
    · exact .hub
    split
    · exact hserved.setHub fun h m =>
        ({ h with lp5 := { h.lp5 with idleSince := h.now } } : Hub).nbAnswer _ 4 0 x.tag (memRead m x.addr x.rlen)
    · exact .hub
  · exact .hub
  · exact .hub

theorem orderly_takeNodeRead (n : Nat) (f : Frame) (inTime : Bool) : Orderly (fun s => s.takeNodeRead n f inTime) := by
  unfold State.takeNodeRead
  cases f.nb with
  | none => exact .id
  | some x =>
    exact .of_parts (g := fun h _ s => if h.nodeOp n 1 f then
      ({ s with hub := s.hub.nodeTaken n f } : State).nodeRead n f x inTime else s) fun _ _ =>
        .ite ((orderly_nodeRead n f x inTime).comp (.setHub fun h _ => h.nodeTaken n f)) .id

/-! The DMA engine. -/

/-- An operation that answers beside its change of the state. -/
structure OrderlyWith {α : Type} (f : State → α × State) : Prop where
  setPending (s : State) (q : List Instr) : f { s with pending := q } = ((f s).1, { (f s).2 with pending := q })
  memSound (s : State) (hs : s.memSound) : (f s).2.memSound

theorem orderly_dmaRefused (spc e : Nat) : Orderly (fun s => s.dmaRefused spc e) :=
  .ite (.setHub fun h _ => h.inc R.lp5Refused) .id

theorem State.dmaRead_setPending (s : State) (q : List Instr) (c : Nat) (m : Move) (start n k : Nat) :
    ({ s with pending := q } : State).dmaRead c m start n k = s.dmaRead c m start n k := by
  induction n generalizing k with
  | zero => rfl
  | succ n ih => simp only [State.dmaRead, ih]

theorem orderlyWith_dmaWrite (c : Nat) (m : Move) (start : Nat) (l : List Byte) (k : Nat) :
    OrderlyWith (fun s => s.dmaWrite c m start l k) := by
  induction l generalizing k with
  | nil => exact ⟨fun _ _ => rfl, fun _ hs => hs⟩
  | cons b rest ih =>
    refine ⟨fun s q => ?_, fun s hs => ?_⟩
    · simp only [State.dmaWrite, (orderly_dmaRefused _ _).setPending s q]
      generalize (if k % m.dw = 0 then _ else _ : Nat) = e
      split
      · rfl
      · exact (ih (k + 1)).setPending { s with mem := memSet s.mem _ b } q
    · simp only [State.dmaWrite]
      generalize (if k % m.dw = 0 then _ else _ : Nat) = e
      split
      · exact (orderly_dmaRefused _ _).memSound s hs
      · exact (ih (k + 1)).memSound { s with mem := memSet s.mem _ b } (memSet_wf _ _ _ hs)

theorem orderlyWith_dmaBlocks (c : Nat) (m : Move) (src dst stop fuel k : Nat) :
    OrderlyWith (fun s => s.dmaBlocks c m src dst stop fuel k) := by
  induction fuel generalizing k with
  | zero => exact ⟨fun _ _ => rfl, fun _ hs => hs⟩
  | succ fuel ih =>
    refine ⟨fun s q => ?_, fun s hs => ?_⟩
    · simp only [State.dmaBlocks, State.dmaRead_setPending, (orderly_dmaRefused _ _).setPending s q,
        (orderlyWith_dmaWrite _ _ _ _ _).setPending s q]
      repeat' split
      · rfl
      · rfl
      · exact (ih _).setPending { s with hub := _ } q
      · rfl
      · exact (ih _).setPending { (s.dmaWrite c m dst _ k).2 with hub := _ } q
    · simp only [State.dmaBlocks]
      repeat' split
      · exact hs
      · exact (orderly_dmaRefused _ _).memSound s hs
      · exact (ih _).memSound _ hs
      · exact (orderlyWith_dmaWrite _ _ _ _ _).memSound s hs
      · exact (ih _).memSound _ ((orderlyWith_dmaWrite _ _ _ _ _).memSound s hs)

/-- The hub as a MOVE sets out: the burst of a paced one is taken from its request line, LP5 is in use, and a corrected read
counts (R432, R451). -/
def Hub.moveBegun (h : Hub) (m : Move) (ecc : Nat) : Hub :=
  let h := if m.pace then h.set (fPend m.req) (h.get (fPend m.req) - 1) else h
  let h := if m.sspc = 0 ∨ m.dspc = 0 then { h with lp5 := { h.lp5 with dmaWait := false, idleSince := h.now } } else h
  if ecc = 1 then h.inc R.lp5EccCe else h

/-- How far a MOVE goes that sets out: one burst where it is paced (R451). -/
def Hub.moveStop (h : Hub) (c : Nat) (m : Move) : Nat :=
  let h' := if m.pace then h.set (fPend m.req) (h.get (fPend m.req) - 1) else h
  if m.pace then min m.count ((h.dmaX c).moved + 16 * 2 ^ h'.get (R.dmaBurst c)) else m.count

/-- The hub once all bytes of a MOVE have been moved (R447, R449). -/
def Hub.moveEnded (h : Hub) (c : Nat) (m : Move) (src dst : Nat) : Hub :=
  let h := h.modDma c (fun x => { x with moved := 0 })
  let h := h.setPtrs c (if m.smode = 2 then src else src + m.count) (if m.dmode = 2 then dst else dst + m.count)
  (if m.dspc = 2 then h.dmaFrame c m else h).dmaNext c

/-- A MOVE that has set out with hub `h` moves its bytes, from `k` to `stop`. -/
def State.moveBytes (s : State) (h : Hub) (c : Nat) (m : Move) (src dst stop k : Nat) : State :=
  let r := ({ s with hub := h } : State).dmaBlocks c m src dst stop (m.count / 128 + 1) k
  if r.1 ≠ 0 then { r.2 with hub := r.2.hub.dmaStopWith c r.1 }
  else if stop < m.count then { r.2 with hub := r.2.hub.modDma c (fun x => { x with moved := stop }) }
  else { r.2 with hub := r.2.hub.moveEnded c m src dst }

/-- A MOVE sets out, or changes the hub alone. -/
theorem State.dmaMove_eq (s : State) (c ecc : Nat) : s.dmaMove c ecc =
    match s.hub.dmaAt c 1 with
    | none => s
    | some i =>
      let m := moveOf i
      let src := if m.smode = 1 then s.hub.dmaSptr c else m.saddr
      let dst := if m.dmode = 1 then s.hub.dmaDptr c else m.daddr
      let h := s.hub.moveBegun m ecc
      if m.count = 0 then { s with hub := s.hub.dmaNext c }
      else if m.dspc = 2 ∧ s.hub.dmaTunnel c m ≠ 0 then { s with hub := s.hub.dmaStopWith c (s.hub.dmaTunnel c m) }
      else if (m.sspc = 0 ∨ m.dspc = 0) ∧ (s.hub.get R.lp5Lpstate ≠ 0 ∨ s.hub.lp5.exiting) then
        { s with hub := { s.hub with lp5 := { s.hub.lp5 with dmaWait := true } } }
      else if m.dspc = 2 ∧ ¬ s.hub.e1Room c m.count then s
      else if m.pace ∧ s.hub.get (fPend m.req) = 0 then s
      else if ecc = 2 ∧ m.sspc = 0 then
        { s with hub := ((h.inc R.lp5EccUe).raise srcLp5Ecc (bits src 11 11)).dmaStopWith c deTarget }
      else s.moveBytes h c m src dst (s.hub.moveStop c m) (s.hub.dmaX c).moved := rfl

theorem State.requeued_moveBytes (s : State) (q : List Instr) (h : Hub) (c : Nat) (m : Move) (src dst stop k : Nat) :
    s.Requeued q (({ s with pending := q } : State).moveBytes h c m src dst stop k) (s.moveBytes h c m src dst stop k) := by
  have hblocks := orderlyWith_dmaBlocks c m src dst stop (m.count / 128 + 1) k
  have hsound := hblocks.memSound { s with hub := h }
  unfold State.moveBytes
  rw [hblocks.setPending { s with hub := h } q]
  dsimp only
  split
  · exact ⟨rfl, hsound⟩
  · split
    · exact ⟨rfl, hsound⟩
    · exact ⟨rfl, hsound⟩

theorem orderly_dmaMove (c ecc : Nat) : Orderly (fun s => s.dmaMove c ecc) := by
  refine .of_requeued fun s q => ?_
  rw [State.dmaMove_eq, State.dmaMove_eq]
  dsimp -zeta only
  split
  · exact .hub
  extract_lets m src dst h
  iterate 6
    split
    · exact .hub
  exact s.requeued_moveBytes q _ c _ _ _ _ _

/-! Commands that read memory. -/

theorem orderlyWith_dmaLoad (m c burst : Nat) (prio note : Bool) (addr len : Nat) :
    OrderlyWith (fun s => s.dmaLoad m c burst prio note addr len) where
  setPending s q := by
    unfold State.dmaLoad
    rw [orderly_lp5Now.setPending s q]
    dsimp only
    iterate 5
      split
      · rfl
    split
    · rfl
    · split <;> rfl
  memSound s hs := by
    have hnow : s.lp5Now.memSound := orderly_lp5Now.memSound s hs
    unfold State.memSound State.dmaLoad at *
    dsimp only
    iterate 5
      split
      · exact hs
    split
    · exact hs
    · split
      · exact hnow
      · exact hnow

/-- The same of PATCH, whose second answer is what the command waits for. -/
theorem orderlyWith_patchStart (m addr len : Nat) :
    OrderlyWith (fun s => (((s.patchStart m addr len).1, (s.patchStart m addr len).2.1), (s.patchStart m addr len).2.2)) where
  setPending s q := by
    unfold State.patchStart
    rw [orderly_lp5Now.setPending s q]
    dsimp only
    iterate 4
      split
      · rfl
    split <;> rfl
  memSound s hs := by
    have hnow : s.lp5Now.memSound := orderly_lp5Now.memSound s hs
    unfold State.memSound State.patchStart at *
    dsimp only
    iterate 4
      split
      · exact hs
    split
    · exact hnow
    · exact hnow

/-- What is done with an answer is a change of the hub. -/
theorem OrderlyWith.answered {α : Type} {f : State → α × State} (hf : OrderlyWith f) (g : Hub → Hub) (k : α → Hub → Hub) :
    Orderly (fun s =>
      let r := f { s with hub := g s.hub }
      { r.2 with hub := k r.1 r.2.hub }) where
  setPending s q := by rw [hf.setPending { s with hub := g s.hub } q]
  memSound s hs := hf.memSound { s with hub := g s.hub } hs

theorem OrderlyWith.within {f : State → Ans × State} (hf : OrderlyWith f) (c : Bool) :
    OrderlyWith (fun s => s.within c f) := by
  cases c with
  | false => exact ⟨fun _ _ => rfl, fun _ hs => hs⟩
  | true => exact hf

theorem orderly_runAll {f : State → Ans × State} (hf : OrderlyWith f) (m op : Nat) : Orderly (fun s => s.runAll m op f) :=
  orderly_served (orderly_actAll (hf.answered (fun h => h.serving m) (fun a h => h.complete m op a))) m op

theorem orderly_runPatch {f : State → Ans × Parked × State}
    (hf : OrderlyWith (fun s => (((f s).1, (f s).2.1), (f s).2.2))) (m op : Nat) :
    Orderly (fun s => s.runPatch m op f) :=
  orderly_served (orderly_actAll (hf.answered (fun h => h.serving m) (fun a h => h.finish m op a.2 a.1))) m op

/-! Meanings. -/

/-- The meaning answers a next state, and its change of the state is orderly. -/
def Meaning.Orderly (f : Meaning) : Prop := ∃ g, Machine.Orderly g ∧ ∀ s, f s = .next (g s)

theorem Meaning.Orderly.next {g : State → State} (hg : Machine.Orderly g) : Meaning.Orderly (fun s => .next (g s)) :=
  ⟨g, hg, fun _ => rfl⟩

theorem Meaning.Orderly.act (f : Hub → Hub) : Meaning.Orderly (fun s => .next (s.act f)) := .next (orderly_act f)

theorem orderly_execDmaLoad (m c burst : Nat) (prio note : Bool) (addr len : Nat) :
    Meaning.Orderly (execDmaLoad m c burst prio note addr len) :=
  .next (orderly_runAll ((orderlyWith_dmaLoad m c burst prio note addr len).within _) m 0x0B01)

theorem orderly_execKeyCheckPatch (m addr len : Nat) : Meaning.Orderly (execKeyCheckPatch m addr len) := by
  refine .next (orderly_runPatch ?_ m 0x0E03)
  cases decide (addr < 2 ^ 40) with
  | false => exact ⟨fun _ _ => rfl, fun _ hs => hs⟩
  | true => exact orderlyWith_patchStart m addr len

/-! The argument blocks of the mailbox. -/

/-- A command that an argument block spells, if it spells one, is orderly. -/
inductive OrderlyCommand : Option Meaning → Prop
  | none : OrderlyCommand none
  | some {f : Meaning} (hf : Meaning.Orderly f) : OrderlyCommand (some f)

theorem OrderlyCommand.onlyBits {o : Option Meaning} (w mask : Nat) (ho : OrderlyCommand o) :
    OrderlyCommand (onlyBits w mask o) := by
  unfold Machine.onlyBits
  split
  · exact ho
  · exact .none

theorem OrderlyCommand.ite {c : Prop} [Decidable c] {o o' : Option Meaning} (ho : OrderlyCommand o)
    (ho' : OrderlyCommand o') : OrderlyCommand (if c then o else o') := by
  split
  · exact ho
  · exact ho'

theorem Meaning.Orderly.ite {c : Prop} [Decidable c] {f g : Meaning} (hf : Meaning.Orderly f) (hg : Meaning.Orderly g) :
    Meaning.Orderly (if c then f else g) := by
  split
  · exact hf
  · exact hg

/-- A command that the firmware serves, unless its answer needs memory. -/
theorem Meaning.Orderly.served (m op : Nat) (f : Hub → Hub) :
    Meaning.Orderly (fun s => .next (if !s.hub.serves m op then s else s.act f)) :=
  .next (orderly_served (orderly_act f) m op)

theorem orderly_sysCommand (m op : Nat) (ws : List Nat) : OrderlyCommand (sysCommand m op ws) := by
  unfold sysCommand
  repeat' split
  all_goals apply_rules [OrderlyCommand.none, OrderlyCommand.onlyBits, OrderlyCommand.ite, OrderlyCommand.some,
    Meaning.Orderly.ite, Meaning.Orderly.served]

theorem orderly_tunnelCommand (m op : Nat) (ws : List Nat) : OrderlyCommand (tunnelCommand m op ws) := by
  unfold tunnelCommand
  repeat' split
  all_goals apply_rules [OrderlyCommand.none, OrderlyCommand.onlyBits, OrderlyCommand.ite, OrderlyCommand.some,
    Meaning.Orderly.ite, Meaning.Orderly.served]

theorem orderly_portCommand (m op : Nat) (ws : List Nat) : OrderlyCommand (portCommand m op ws) := by
  unfold portCommand
  repeat' split
  all_goals apply_rules [OrderlyCommand.none, OrderlyCommand.onlyBits, OrderlyCommand.ite, OrderlyCommand.some,
    Meaning.Orderly.ite, Meaning.Orderly.served]

theorem orderly_powerCommand (m op : Nat) (ws : List Nat) : OrderlyCommand (powerCommand m op ws) := by
  unfold powerCommand
  repeat' split
  all_goals apply_rules [OrderlyCommand.none, OrderlyCommand.onlyBits, OrderlyCommand.ite, OrderlyCommand.some,
    Meaning.Orderly.ite, Meaning.Orderly.served]

theorem orderly_pdCommand (m op : Nat) (ws : List Nat) : OrderlyCommand (pdCommand m op ws) := by
  unfold pdCommand
  repeat' split
  all_goals apply_rules [OrderlyCommand.none, OrderlyCommand.onlyBits, OrderlyCommand.ite, OrderlyCommand.some,
    Meaning.Orderly.ite, Meaning.Orderly.served]

theorem orderly_usbCommand (m op : Nat) (ws : List Nat) : OrderlyCommand (usbCommand m op ws) := by
  unfold usbCommand
  repeat' split
  all_goals apply_rules [OrderlyCommand.none, OrderlyCommand.onlyBits, OrderlyCommand.ite, OrderlyCommand.some,
    Meaning.Orderly.ite, Meaning.Orderly.served]

theorem orderly_faultCommand (m op : Nat) (ws : List Nat) : OrderlyCommand (faultCommand m op ws) := by
  unfold faultCommand
  repeat' split
  all_goals apply_rules [OrderlyCommand.none, OrderlyCommand.onlyBits, OrderlyCommand.ite, OrderlyCommand.some,
    Meaning.Orderly.ite, Meaning.Orderly.served]

theorem orderly_mediaCommand (m op : Nat) (ws : List Nat) : OrderlyCommand (mediaCommand m op ws) := by
  unfold mediaCommand
  split
  case h_3 => exact .onlyBits _ _ (.onlyBits _ _ (.onlyBits _ _ (.some (orderly_execDmaLoad ..))))
  all_goals repeat' split
  all_goals apply_rules [OrderlyCommand.none, OrderlyCommand.onlyBits, OrderlyCommand.ite, OrderlyCommand.some,
    Meaning.Orderly.ite, Meaning.Orderly.served]

theorem orderly_keyCommand (m op : Nat) (ws : List Nat) : OrderlyCommand (keyCommand m op ws) := by
  unfold keyCommand
  split
  case h_4 => exact .ite (.onlyBits _ _ (.some (orderly_execKeyCheckPatch ..))) .none
  all_goals repeat' split
  all_goals apply_rules [OrderlyCommand.none, OrderlyCommand.onlyBits, OrderlyCommand.ite, OrderlyCommand.some,
    Meaning.Orderly.ite, Meaning.Orderly.served]
theorem orderly_mailboxCommand (m op : Nat) (ws : List Nat) : OrderlyCommand (mailboxCommand m op ws) := by
  unfold mailboxCommand
  split
  all_goals apply_rules [orderly_sysCommand, orderly_tunnelCommand, orderly_portCommand, orderly_powerCommand,
    orderly_pdCommand, orderly_mediaCommand, orderly_usbCommand, orderly_faultCommand, orderly_keyCommand,
    OrderlyCommand.none]

/-! The service slot. -/

theorem Meaning.Orderly.after {f : Meaning} (hf : Meaning.Orderly f) : Machine.Orderly (fun s => Machine.after (f s) s) := by
  obtain ⟨g, hg, hnext⟩ := hf
  simpa only [hnext, Machine.after] using hg

/-- What the hub alone decides can be taken as decided. -/
theorem Orderly.of_hub {g : Hub → State → State} (hg : ∀ h, Orderly (g h)) : Orderly (fun s => g s.hub s) :=
  .of_parts (g := fun h _ => g h) fun h _ => hg h

/-- The command that the command buffer of mailbox `m` spells, in the argument block of its length. -/
def Hub.bufferCommand (h : Hub) (m : Nat) : Option Meaning :=
  let w := h.get (R.mbxCmdWord m 0)
  let n := bits w 9 0
  if n % 4 = 0 ∧ n ≤ 1016 ∧ bits w 14 10 = 0 then
    mailboxCommand m (h.bufferOp m) ((List.range (n / 4)).map (fun k => h.get (R.mbxCmdWord m (2 + k))))
  else none

theorem Hub.orderly_bufferCommand (h : Hub) (m : Nat) : OrderlyCommand (h.bufferCommand m) :=
  .ite (orderly_mailboxCommand ..) .none

theorem orderly_serveMailbox (m : Nat) : Orderly (fun s => s.serveMailbox m) := by
  refine .of_hub (g := fun h s => match h.bufferCommand m with
    | some f => after (f s) s
    | none => s.run m (h.bufferOp m) (fun h => h.refuse stBadArg)) fun h => ?_
  have hcommand := h.orderly_bufferCommand m
  generalize h.bufferCommand m = o at hcommand ⊢
  cases hcommand with
  | none => exact orderly_run ..
  | some hf => exact hf.after

theorem orderly_serveFirst (done : Bool) : Orderly (fun s => s.serveFirst done) := by
  refine .of_hub (g := fun h s => match h.nextServed with
    | none => s
    | some m => match h.parkedOf m with
      | some (op, p) => if done then s.act (fun h => h.completionStep m op p) else s
      | none => if done then s.serveMailbox m else s.act (fun h => h.serving m)) fun h => ?_
  cases h.nextServed with
  | none => exact .id
  | some m =>
    dsimp only
    cases h.parkedOf m with
    | none => exact .ite (orderly_serveMailbox m) (orderly_act _)
    | some p => exact .ite (orderly_act _) .id

theorem orderly_execTwiopCommandService (done : Bool) : Meaning.Orderly (execTwiopCommandService done) := by
  have hserved : Orderly (fun s => 
      if s.hub.tick.slotEnded ∨ ¬ s.hub.domainsOn then s
      else ({ s with hub := { s.hub with tick := { s.hub.tick with task := 11 } } } : State).serveFirst done) :=
    .of_hub (g := fun h s => if h.tick.slotEnded ∨ ¬ h.domainsOn then s
      else ({ s with hub := { s.hub with tick := { s.hub.tick with task := 11 } } } : State).serveFirst done) fun h =>
      .ite .id ((orderly_serveFirst done).comp (.setHub fun h _ => { h with tick := { h.tick with task := 11 } }))
  refine ⟨_, hserved, fun s => ?_⟩
  unfold execTwiopCommandService
  dsimp only
  split
  · rfl
  · rfl

/-! Every command. -/

theorem orderly_execWarmReset : Meaning.Orderly execWarmReset := by
  refine .next (.of_hub (g := fun h s => match h.ctl.resetDue with
    | some cause => s.act (fun h => h.warmBegin cause)
    | none => s) fun h => ?_)
  cases h.ctl.resetDue with
  | none => exact .id
  | some cause => exact orderly_act _

theorem orderly_execSupplyOutOfRange (lkind lsnk : Nat) (hbcompat : Bool) (smbadr : Nat) :
    Meaning.Orderly (execSupplyOutOfRange lkind lsnk hbcompat smbadr) :=
  .next (.of_hub (g := fun h s => if h.suppliesWatched then s.cold 1 lkind lsnk hbcompat smbadr else s) fun _ =>
    .ite (orderly_cold ..) .id)

/-- Memory is lost with the hub's return from Ember. -/
theorem orderly_execReturnStageReady (answers : Bool) (training : Option (Nat × Bool × Nat)) (dp : Nat) :
    Meaning.Orderly (execReturnStageReady answers training dp) := by
  unfold execReturnStageReady
  generalize (!answers) = unanswered
  exact .next (orderly_actAll (orderly_setHubMem
    (p := fun h => unanswered && h.psIs psReturning && h.get R.psStage == 3 && h.ctl.fromEmber)
    (f := fun h => h.returnStage (if unanswered && h.psIs psReturning && h.get R.psStage == 3 && h.ctl.fromEmber
      then some training else none) dp) (filter_wf _)))

theorem orderly_execReturnStageTimeout : Meaning.Orderly execReturnStageTimeout :=
  .next (orderly_actAll (orderly_setHubMem (p := fun h => h.psIs psReturning) (f := Hub.returnTimeout) memEmber_wf))

theorem orderly_execEntrySequence : Meaning.Orderly execEntrySequence :=
  .next (orderly_actAll (orderly_setHubMem (f := Hub.entrySequence) (p := fun h =>
    match h.ctl.entry with | some e => e.past.isSome && e.target != 2 | none => false) memEmber_wf))

theorem orderly_execDmaMove (c ecc : Nat) : Meaning.Orderly (execDmaMove c ecc) :=
  .next (orderly_actAll (.of_hub (g := fun h s => if c < 64 && h.domainsOn then s.dmaMove c ecc else s) fun _ =>
    .ite (orderly_dmaMove c ecc) .id))

theorem orderly_execMemacc (wr : Bool) (addr w : Nat) : Meaning.Orderly (execMemacc wr addr w) :=
  .next (orderly_actAll ((orderly_memacc wr _ _).comp (.setHub fun h _ => h.jtagLoad 0x11)))

/-- Every command answers a next state, in which what waits behind it still waits and memory has kept its form. -/
theorem orderly_exec (c : Instr) : Meaning.Orderly (exec c) := by
  cases c with
  | powerOn => exact .next (orderly_cold ..)
  | brownOut => exact .next (orderly_cold ..)
  | supplyOutOfRange => exact orderly_execSupplyOutOfRange ..
  | warmReset => exact orderly_execWarmReset
  | twiopCommandService => exact orderly_execTwiopCommandService ..
  | nodeBusRd => exact .next (orderly_actAll (orderly_takeNodeRead ..))
  | dmaMove => exact orderly_execDmaMove ..
  | returnStageReady => exact orderly_execReturnStageReady ..
  | returnStageTimeout => exact orderly_execReturnStageTimeout
  | entrySequence => exact orderly_execEntrySequence
  | memacc => exact orderly_execMemacc ..
  | dmaLoad => exact orderly_execDmaLoad ..
  | keyCheckPatch => exact orderly_execKeyCheckPatch ..
  | sysInfo | sysClaimChallenge | sysClaimProve | sysClaimRelease | sysDeputy | sysResetWarm | sysResetHost
  | sysResetPort | gateSet | gateGet | tunnelOpen | tunnelClose | tunnelModify | tunnelQuery | planBegin | planStage
  | planCheck | planArm | planAbort | planStatus | portTrainConfig | portTrainTrain | portTrainDisable
  | portTrainReturn | portState | portSpareRestore | portSpareRetire | portRoute | tickSet | timeSync | timeSyncStep
  | pwrFeedConfig | pwrFeedSelect | pwrFeedQuery | pwrPortConfig | pwrPortQuery | pwrPortRestart | pwrPortOff
  | pwrPortVset | pwrCurve | pwrBudget | pdTx | pdRx | pdTimerSet | pdTimerStart | pdTimerCancel | pdRoleClaim
  | pdRoleRelease | pdRoleRp | pdRoleDrole | pdRoleVconnOn | pdRoleVconnOff | pdRoleSwapToSink | pdRoleSwapToSource
  | pdRoleFrsArm | pdRoleEpr | pdRoleErrorRecovery | pdRoleVconnIlim | rasterSetup | rasterSetupQuery
  | rasterWitnessSet | rasterWitnessResume | rasterWitnessQuery | dmaStart | dmaStop | dmaStopQuery | usbCarve
  | usbFuncItems | usbFuncVerbosity | usbFuncQuery | usbConnectChallenge | usbConnectProve | usbConnectDisconnect
  | faultRead | faultConfig | faultForceSet | faultForceClear | faultForcePulse | faultClear | keyDerive
  | keyDeriveAdvance | keyRevoke | keyCheck | stateEnter | stateEnterConfig | stateEnterQuery | testObsSet
  | testObsQuery => exact .served ..
  | _ => exact .act _

/-- The state that a command leaves, with the queue as it was: what waits behind the command does not change its effect. -/
theorem exec_setPending (c : Instr) (s : State) (q : List Instr) :
    exec c { s with pending := q } = .next { after (exec c s) s with pending := q } := by
  obtain ⟨g, hg, hnext⟩ := orderly_exec c
  rw [hnext, hnext, hg.setPending]
  rfl

/-- A step with commands waiting. -/
theorem step_setPending_cons (c : Instr) (rest : List Instr) (s : State) :
    step { s with pending := c :: rest } = .next { after (exec c s) s with pending := rest } :=
  exec_setPending c s rest

/-- A run whose first step answers a next state goes on from there. -/
theorem core_run_succ {M : Host.Core} {s s' : M.State} {k : Nat} (hstep : M.step s = .next s') :
    M.run (k + 1) s = M.run k s' := by
  simp only [Host.Core.run, hstep]

/-- Settles O1. -/
theorem stepRunsFrontCommand : Obligations.StepRunsFrontCommand := by
  intro c rest s hfront
  rw [step, hfront]

/-- Settles O2: every meaning is a change of the state. -/
theorem everyCommandAnswers : Obligations.EveryCommandAnswers := by
  intro c s
  obtain ⟨g, _, hnext⟩ := orderly_exec c
  exact ⟨g s, hnext s⟩

/-- Settles O3, by induction on the queue: a command's effect does not look at the queue behind it. -/
theorem queueRunsFirstInFirstOut : Obligations.QueueRunsFirstInFirstOut := by
  intro cs
  induction cs with
  | nil => exact fun _ => rfl
  | cons c cs ih =>
    intro s
    have hstep : Sys2Proof.core.step ({ s with pending := c :: cs } : State) =
        .next ({ after (exec c s) s with pending := cs } : State) := step_setPending_cons c cs s
    exact (core_run_succ hstep).trans (ih (after (exec c s) s))

/-- Settles O4: the change that a command makes keeps memory canonical, and idling does not touch it. -/
theorem stepKeepsMemoryCanonical : Obligations.StepKeepsMemoryCanonical := by
  intro s t hs hstep
  unfold step at hstep
  cases hqueue : s.pending with
  | nil =>
    rw [hqueue] at hstep
    obtain rfl : s.idle = t := Host.Outcome.next.inj hstep
    exact hs
  | cons c rest =>
    rw [hqueue] at hstep
    obtain ⟨g, hg, hnext⟩ := orderly_exec c
    obtain rfl : g { s with pending := rest } = t := Host.Outcome.next.inj ((hnext _).symm.trans hstep)
    exact hg.memSound _ hs

/-- Settles O5. -/
theorem resetMemoryIsCanonical : Obligations.ResetMemoryIsCanonical := rfl

/-! A byte of memory. -/

/-- Below the first address that can be listed every byte reads as 0. -/
theorem memByte_of_lt_wfFrom {m : Memory} {lo a : Nat} (hm : Memory.wfFrom lo m = true) (ha : a < lo) : memByte m a = 0 := by
  induction m generalizing lo with
  | nil => rfl
  | cons cell t ih =>
    obtain ⟨k, v⟩ := cell
    simp only [Memory.wfFrom, Bool.and_eq_true, decide_eq_true_eq] at hm
    obtain ⟨⟨hk, -⟩, ht⟩ := hm
    rw [memByte, if_neg (by omega), ih ht (by omega)]

theorem memByte_memSet {m : Memory} {lo : Nat} (hm : Memory.wfFrom lo m = true) (a a' : Nat) (b : Byte) :
    memByte (memSet m a b) a' = if a = a' then b else memByte m a' := by
  induction m generalizing lo with
  | nil =>
    by_cases hb : b = 0
    · simp [memSet, memByte, hb]
    · simp only [memSet, if_neg hb, memByte]
  | cons cell t ih =>
    obtain ⟨k, v⟩ := cell
    simp only [Memory.wfFrom, Bool.and_eq_true, decide_eq_true_eq] at hm
    obtain ⟨-, ht⟩ := hm
    have hbelow : a' ≤ k → memByte t a' = 0 := fun h => memByte_of_lt_wfFrom ht (by omega)
    rcases Nat.lt_trichotomy a k with hlt | rfl | hgt
    · by_cases hb : b = 0 <;> grind [memSet, memByte]
    · by_cases hb : b = 0 <;> grind [memSet, memByte]
    · grind [memSet, memByte]

/-- Settles O6. -/
theorem memoryByteReadsAsWritten : Obligations.MemoryByteReadsAsWritten := fun _ a a' b hm => memByte_memSet hm a a' b


end Sys2Proof.Machine
end

section
/-!
PROOFS. The STRIKE block (chapter 6).
-/

namespace Sys2Proof.Machine

open Sys2Proof

/-! The STRIKE block. -/

theorem crc8Step_lt {c : Nat} (hc : c < 256) : crc8Step c < 256 := by
  unfold crc8Step
  split
  · exact Nat.xor_lt_two_pow (n := 8) (Nat.mod_lt _ (by decide)) (by decide)
  · omega

theorem crc8Byte_lt {c : Nat} (hc : c < 256) (b : Byte) : crc8Byte c b < 256 := by
  have hxor : c ^^^ b.toNat < 256 := Nat.xor_lt_two_pow (n := 8) hc b.isLt
  unfold crc8Byte
  iterate 8 apply crc8Step_lt
  exact hxor

theorem foldl_crc8Byte_lt (l : List Byte) {c : Nat} (hc : c < 256) : l.foldl crc8Byte c < 256 := by
  induction l generalizing c with
  | nil => exact hc
  | cons b l ih =>
    rw [List.foldl_cons]
    exact ih (crc8Byte_lt hc b)

theorem crc8_lt (l : List Byte) : crc8 l < 256 := by
  unfold crc8
  exact foldl_crc8Byte_lt l (by decide)

theorem b2n_le_one (b : Bool) : b2n b ≤ 1 := by cases b <;> decide

/-- The fields of a micro-frame at every value they can have (Table 6-2). -/
structure StrikeFits (x : Strike) : Prop where
  chan : x.chan < 256
  edge : x.edge < 2
  hops : x.hops < 8
  tlow : x.tlow < 16
  stseq : x.stseq < 1024
  toff : x.toff < 2 ^ 18

section
variable {x : Strike} (hx : StrikeFits x)
include hx

theorem strikeLow_lt : strikeLow x < 2 ^ 56 := by
  obtain ⟨hchan, hedge, hhops, htlow, hstseq, htoff⟩ := hx
  have hlate := b2n_le_one x.late
  unfold strikeLow
  omega

theorem strikeWord_lt : strikeWord x < 2 ^ 64 := by
  have hlow := strikeLow_lt hx
  have hcrc := crc8_lt (leBytes 7 (strikeLow x))
  unfold strikeWord
  omega

theorem strikeWord_mod : strikeWord x % 2 ^ 56 = strikeLow x := by
  have hlow := strikeLow_lt hx
  unfold strikeWord
  omega

theorem bits_strikeWord_crc : bits (strikeWord x) 63 56 = crc8 (leBytes 7 (strikeLow x)) := by
  have hlow := strikeLow_lt hx
  have hcrc := crc8_lt (leBytes 7 (strikeLow x))
  simp only [bits, strikeWord]
  omega

theorem copyValid_strikeWord (l : Nat) : copyValid { lane := l, hdr := hdrCtrl, w := strikeWord x } = true := by
  have hlow := strikeWord_mod hx
  have htype : strikeWord x % 256 = 0x66 := by
    unfold strikeLow at hlow
    omega
  have hreserved : bits (strikeWord x) 10 8 = 0 := by
    unfold strikeLow at hlow
    simp only [bits]
    omega
  simp only [copyValid, hlow, bits_strikeWord_crc hx]
  simp [isType, btStrike, htype, hreserved]

theorem strikeOf_strikeWord : strikeOf (strikeWord x) = x := by
  have hlow := strikeWord_mod hx
  generalize strikeWord x = w at hlow
  obtain ⟨hchan, hedge, hhops, htlow, hstseq, htoff⟩ := hx
  unfold strikeLow at hlow
  obtain ⟨chan, edge, hops, tlow, stseq, toff, late⟩ := x
  dsimp only at *
  have hle := b2n_le_one late
  have hfoot : bits w 11 11 = b2n late := by
    simp only [bits]
    omega
  have hlate : bit w 11 = late := by cases late <;> simp [bit, hfoot, b2n]
  simp only [strikeOf, bits, hlate, Strike.mk.injEq]
  refine ⟨?_, ?_, ?_, ?_, ?_, ?_, trivial⟩ <;> omega

end

/-- Settles O27: every field lies in bits of its own, which nothing carries into. -/
theorem strikeBlockReadsAsItWasSent : Obligations.StrikeBlockReadsAsItWasSent := by
  intro x hchan hedge hhops htlow hstseq htoff
  have hx : StrikeFits x := ⟨hchan, hedge, hhops, htlow, hstseq, htoff⟩
  exact ⟨copyValid_strikeWord hx, strikeOf_strikeWord hx, strikeWord_lt hx⟩

end Sys2Proof.Machine
end

section
/-!
PROOFS. Register fields written together (R4) and the bits of a word.
-/

namespace Sys2Proof.Machine

open Sys2Proof

/-! Several fields at once. -/

/-- The last write to a key counts. -/
theorem Hub.get_setAll_last (l : List (Fld × Nat)) (h : Hub) (f : Fld) (v : Nat) (hl : ∀ p ∈ l, p.1.key ≠ f.key) :
    (h.setAll ((f, v) :: l)).get f = v % 2 ^ f.width :=
  ((h.set f v).get_setAll_ne l f hl).trans (h.get_set f v)

/-- Where no key is written twice, each field reads as it was written. -/
theorem Hub.get_setAll (l : List (Fld × Nat)) (h : Hub) {f : Fld} {v : Nat} (hmem : (f, v) ∈ l)
    (hkeys : (l.map (fun p => p.1.key)).Nodup) : (h.setAll l).get f = v % 2 ^ f.width := by
  induction l generalizing h with
  | nil => exact absurd hmem List.not_mem_nil
  | cons p l ih =>
    obtain ⟨hp, hl⟩ := List.nodup_cons.mp hkeys
    rcases List.mem_cons.mp hmem with rfl | htail
    · exact h.get_setAll_last l f v fun q hq heq => hp (List.mem_map.mpr ⟨q, hq, heq⟩)
    · exact ih (h.set p.1 p.2) htail hl

theorem Hub.setAll_frame (l : List (Fld × Nat)) (h : Hub) : { h.setAll l with regs := h.regs } = h := by
  induction l generalizing h with
  | nil => rfl
  | cons p l ih =>
    have htail := congrArg (fun x : Hub => { x with regs := h.regs }) (ih (h.set p.1 p.2))
    exact htail

@[simp] theorem Hub.sec_setAll (l : List (Fld × Nat)) (h : Hub) : (h.setAll l).sec = h.sec := by
  have hsec := congrArg Hub.sec (h.setAll_frame l)
  exact hsec

@[simp] theorem Hub.tick_setAll (l : List (Fld × Nat)) (h : Hub) : (h.setAll l).tick = h.tick := by
  have htick := congrArg Hub.tick (h.setAll_frame l)
  exact htick

/-! Bits of a word. -/

/-- A field that lies below the cut reads the same. -/
theorem bits_mod_two_pow {w hi lo n : Nat} (hn : hi < n) : bits (w % 2 ^ n) hi lo = bits w hi lo := by
  unfold bits
  apply Nat.eq_of_testBit_eq
  intro i
  simp only [Nat.testBit_mod_two_pow, Nat.testBit_div_two_pow]
  by_cases hi' : i < hi + 1 - lo
  · simp [hi', show i + lo < n by omega]
  · simp [hi']

theorem bit_eq_testBit (w n : Nat) : bit w n = w.testBit n := by
  simp [bit, bits, Nat.testBit_eq_decide_div_mod_eq, Bool.beq_eq_decide_eq]

/-- Setting a bit that is clear carries into no other. -/
theorem testBit_two_pow_add_ne {w n k : Nat} (hclear : w.testBit n = false) (hk : k ≠ n) :
    (2 ^ n + w).testBit k = w.testBit k := by
  rcases Nat.lt_or_gt_of_ne hk with hlt | hgt
  · exact Nat.testBit_two_pow_add_gt hlt w
  · have heven : w / 2 ^ n % 2 = 0 := by simpa [Nat.testBit_eq_decide_div_mod_eq] using hclear
    have habove : (2 ^ n + w) / 2 ^ (n + 1) = w / 2 ^ (n + 1) := by
      rw [Nat.pow_succ, ← Nat.div_div_eq_div_mul, ← Nat.div_div_eq_div_mul, Nat.add_comm,
        Nat.add_div_right _ (Nat.two_pow_pos n)]
      omega
    have hsplit (v : Nat) : v.testBit k = (v / 2 ^ (n + 1)).testBit (k - (n + 1)) := by
      rw [Nat.testBit_div_two_pow, Nat.sub_add_cancel hgt]
    rw [hsplit, habove, ← hsplit]

theorem testBit_setBit (w n k : Nat) : (setBit w n).testBit k = (decide (k = n) || w.testBit k) := by
  rw [setBit, bit_eq_testBit, Nat.add_comm]
  cases hbit : w.testBit n with
  | true =>
    by_cases hk : k = n
    · simp [hk, hbit]
    · simp [hk]
  | false =>
    by_cases hk : k = n
    · simp [hk, Nat.testBit_two_pow_add_eq, hbit]
    · simp [hk, testBit_two_pow_add_ne hbit hk]

theorem testBit_clrBit (w n k : Nat) : (clrBit w n).testBit k = (!decide (k = n) && w.testBit k) := by
  rw [clrBit, bit_eq_testBit]
  cases hbit : w.testBit n with
  | true =>
    have hsum : 2 ^ n + (w - 2 ^ n) = w := Nat.add_sub_cancel' (Nat.ge_two_pow_of_testBit hbit)
    have hclear : (w - 2 ^ n).testBit n = false := by
      have hflip := Nat.testBit_two_pow_add_eq (w - 2 ^ n) n
      rw [hsum, hbit] at hflip
      simpa using hflip
    by_cases hk : k = n
    · simp [hk, hclear]
    · have hkeep := testBit_two_pow_add_ne hclear hk
      rw [hsum] at hkeep
      simp [hk, hkeep]
  | false =>
    by_cases hk : k = n
    · simp [hk, hbit]
    · simp [hk]

end Sys2Proof.Machine
end

section
/-!
PROOFS. Ownership, generations and locks: GATE.SET (R576), TUNNEL commands of an old generation (R82), PLAN commands (R292 to
R294) and the command buffer (R606).
-/

namespace Sys2Proof.Machine

open Sys2Proof

/-! GATE.SET. -/

theorem Hub.level_of_gateWord (h : Hub) {k : Nat} (t : Nat) (hk : k < 14) (hohmale : k ≠ 7) :
    h.level k t = bits (h.get (R.gateWord t)) (2 * k + 1) (2 * k) := by
  rw [Hub.level, if_neg (by omega), if_neg hohmale, if_neg (by omega)]

/-- Settles O10: a legal word of the owner is one write to the gate, and a level is two bits of that word. -/
theorem gateSetIsTheOwnersAlone : Obligations.GateSetIsTheOwnersAlone := by
  intro h m t w
  refine ⟨fun win hm => h.gateSet_of_not_isOwner m t w win hm, fun hm ht hwin h7 h15 => ?_⟩
  have hword : (h.set (R.gateWord t) w).get (R.gateWord t) = w % 2 ^ 32 := h.get_set _ _
  rw [h.gateSet_of_legal_word m t w hm ht hwin h7 h15]
  refine ⟨rfl, hword, fun k hk hohmale => ?_, fun f hf => h.get_set_ne _ _ _ hf.symm, h.set_frame _ _⟩
  calc (h.set (R.gateWord t) w).level k t = bits (w % 2 ^ 32) (2 * k + 1) (2 * k) := by
        rw [Hub.level_of_gateWord _ t hk hohmale, hword]
    _ = bits w (2 * k + 1) (2 * k) := bits_mod_two_pow (by omega)

/-! Generations, and plan commands without a plan of their own. -/

theorem not_isUser_of_summary {t : Nat} (ht : isUser t = true) : ¬ (6 ≤ t ∧ t ≤ 9) := by
  simp only [isUser, Bool.and_eq_true, decide_eq_true_eq] at ht
  omega

/-- Settles O23. -/
theorem staleGenerationActsOnNothing : Obligations.StaleGenerationActsOnNothing := by
  intro h m t gen hgen
  refine ⟨fun abort force ht hm => ?_, fun ws ht hm => ?_, fun clear hm => ?_, fun f hf => h.get_inc_ne _ f hf.symm⟩
  · simp [Hub.tunnelClose, hm, ht, hgen, Hub.refuseGen, Hub.refuse]
  · simp [Hub.tunnelModify, not_isUser_of_summary ht, hm, ht, hgen, Hub.refuseGen, Hub.refuse]
  · simp [Hub.tunnelQuery, hm, hgen, Hub.refuseGen, Hub.refuse]

theorem Hub.planNamed_of_no_slot (h : Hub) {m : Nat} (pid : Nat) (hm : 4 < m) : h.planNamed m pid = stDenied := if_pos hm

theorem Hub.planNamed_of_other_plan (h : Hub) {m pid : Nat} (hm : m ≤ 4) (hpid : h.get (R.planPlanId m) ≠ pid) :
    h.planNamed m pid = stStale := by
  rw [Hub.planNamed, if_neg (by omega), if_pos (.inr hpid)]

section
variable {h : Hub} {m pid st : Nat} (hnamed : h.planNamed m pid = st) (hst : st ≠ stOk)
include hnamed hst

theorem Hub.planStage_of_not_named (l : List (List Nat)) : h.planStage m pid l = h.refuse st := by
  simp [Hub.planStage, hnamed, hst]

theorem Hub.planCheck_of_not_named : h.planCheck m pid = h.refuse st := by
  simp [Hub.planCheck, hnamed, hst]

theorem Hub.planArm_of_not_named (n : Nat) : h.planArm m pid n = h.refuse st := by
  simp [Hub.planArm, hnamed, hst]

end

/-- Settles O30: every PLAN command but BEGIN and ABORT begins with `planNamed`. -/
theorem planCommandsNeedTheSlotsOwnPlan : Obligations.PlanCommandsNeedTheSlotsOwnPlan := by
  intro h m pid
  refine ⟨fun hm => ?_, fun hm hst => ?_, fun hm hpid => ?_⟩
  · have hnamed := h.planNamed_of_no_slot pid hm
    exact ⟨if_pos hm, fun l => Hub.planStage_of_not_named hnamed (by decide) l,
      Hub.planCheck_of_not_named hnamed (by decide), fun n => Hub.planArm_of_not_named hnamed (by decide) n, if_pos hm⟩
  · rw [Hub.planBegin, if_neg (by omega), if_pos hst]
    rfl
  · have hnamed := h.planNamed_of_other_plan hm hpid
    refine ⟨fun l => Hub.planStage_of_not_named hnamed (by decide) l, Hub.planCheck_of_not_named hnamed (by decide),
      fun n => Hub.planArm_of_not_named hnamed (by decide) n, fun hst => ?_⟩
    simp [Hub.planAbort, Nat.not_lt.mpr hm, hst, hpid, Hub.refuse]

/-! The command buffer. -/

theorem Hub.wordAllowed_commandBuffer (h : Hub) {m k : Nat} (m' : Nat) (wr : Bool) (hm : m < 7) (hk : k < 256) :
    h.wordAllowed m' wr (0x7010000 + m * 0x1000 + 4 * k) = (m == m' && !(wr && h.mbLocked m)) := by
  have hword : (0x7010000 + m * 0x1000 + 4 * k) % 0x1000 < 0x400 := by omega
  simp [Hub.wordAllowed, winOf_mailbox m (4 * k) (by omega) (by omega), hm, hword]

/-- Settles O19. -/
theorem commandBufferIsLockedUntilDone : Obligations.CommandBufferIsLockedUntilDone := by
  intro h m k hm hk
  refine ⟨fun hlock => ?_, fun hopen => ?_, ?_, fun m' wr hm' => ?_⟩
  · simp [h.wordAllowed_commandBuffer m true hm hk, hlock]
  · simp [h.wordAllowed_commandBuffer m true hm hk, hopen]
  · simp [h.wordAllowed_commandBuffer m false hm hk]
  · simp [h.wordAllowed_commandBuffer m' wr hm hk, hm'.symm]

end Sys2Proof.Machine
end

section
/-!
PROOFS. The tick period: TICK.SET and the change at its boundary (R48 to R50).
-/

namespace Sys2Proof.Machine

open Sys2Proof

/-! The tick period. -/

theorem Hub.flag_eq_true_iff (h : Hub) (f : Fld) : h.flag f = true ↔ h.get f = 1 := beq_iff_eq

/-- TICK.SET that passes every check. -/
def Hub.tickPending (h : Hub) (code n : Nat) : Hub :=
  let h := h.setAll [(R.tickPend, 1), (R.tickNext, code)]
  { h with tick := { h.tick with pendAt := n } }

section
variable {h : Hub} {m code n : Nat} (hm : h.isOwner m = true)
include hm

theorem Hub.tickSet_of_reserved (hcode : code < 25 ∨ 200 < code) : h.tickSet m code n = h.refuse stBadArg := by
  rw [Hub.tickSet, hm, if_neg (by decide), if_pos (by omega)]

variable (hlo : 25 ≤ code) (hhi : code ≤ 200) (hn : n < 2 ^ 48)
include hlo hhi hn

theorem Hub.tickSet_of_in_plan (hplan : h.planIn [pArmed, pWindow, pReverting] = true) :
    h.tickSet m code n = h.refuse stInPlan := by
  rw [Hub.tickSet, hm, if_neg (by decide), if_neg (by omega), if_pos hplan]

variable (hfree : h.planIn [pArmed, pWindow, pReverting] = false)
include hfree

theorem Hub.tickSet_of_too_late (hlate : n < h.tickNum + 2) : h.tickSet m code n = h.refuse stTooLate := by
  rw [Hub.tickSet, hm, if_neg (by decide), if_neg (by omega), hfree, if_neg (by decide), if_pos hlate]

theorem Hub.tickSet_of_in_time (htime : h.tickNum + 2 ≤ n) :
    h.tickSet m code n = (h.tickPending code n).ok (twoWords n) := by
  rw [Hub.tickSet, hm, if_neg (by decide), if_neg (by omega), hfree, if_neg (by decide), if_neg (by omega)]
  rfl

end

/-- Settles O20: the checks in the order in which `tickSet` makes them, and two register fields where all pass. -/
theorem tickSetRefusesOrLeavesTheChangePending : Obligations.TickSetRefusesOrLeavesTheChangePending := by
  intro h m code n
  refine ⟨fun hm => by simp [Hub.tickSet, hm, Hub.refuse], fun hm hcode => Hub.tickSet_of_reserved hm hcode,
    fun hm hlo hhi hn => ⟨fun ⟨s, hs, hst⟩ => ?_, fun hidle => ?_⟩⟩
  · have hplan : h.planIn [pArmed, pWindow, pReverting] = true := (h.planIn_iff _).mpr ⟨s, hs, by simpa using .imp_right .inl hst⟩
    exact Hub.tickSet_of_in_plan hm hlo hhi hn hplan
  · have hfree : h.planIn [pArmed, pWindow, pReverting] = false := by
      rw [← Bool.not_eq_true, h.planIn_iff]
      rintro ⟨s, hs, hst⟩
      obtain ⟨harmed, hwindow, hreverting⟩ := hidle s hs
      simp [harmed, hwindow, hreverting] at hst
    refine ⟨fun hlate => Hub.tickSet_of_too_late hm hlo hhi hn hfree hlate, fun htime => ?_⟩
    have hcode : code % 2 ^ R.tickNext.width = code := Nat.mod_eq_of_lt (by simp only; omega)
    rw [Hub.tickSet_of_in_time hm hlo hhi hn hfree htime]
    dsimp only [Hub.ok]
    refine ⟨rfl, h.get_setAll_last _ _ _ (by simp), (Hub.get_setAll _ h (v := code) (by simp) (by simp)).trans hcode, rfl,
      Hub.get_setAll_ne _ h _ (by simp), fun f hpend hnext => Hub.get_setAll_ne _ h f (by simp [hpend.symm, hnext.symm])⟩

/-- The period changes to the pending one. -/
theorem Hub.periodChange_of_due (h : Hub) (hpend : h.get R.tickPend = 1) (hat : h.tick.pendAt = h.tickNum) :
    h.periodChange =
      { h.setAll [(R.tickPeriod, h.get R.tickNext), (R.tickPend, 0), (R.tickNext, 0)] with
        tick := { h.tick with changed := some (h.get R.tickNext, h.tickNum) } } := by
  have hdue : (h.flag R.tickPend && h.tick.pendAt == h.tickNum) = true := by
    simp [(h.flag_eq_true_iff R.tickPend).mpr hpend, hat]
  rw [Hub.periodChange, if_pos hdue]
  rfl

/-- Settles O21. -/
theorem periodChangesAtItsBoundaryOnly : Obligations.PeriodChangesAtItsBoundaryOnly := by
  refine fun h => ⟨fun hpend hat => ?_, fun hnot => ?_⟩
  · have hperiod : (h.setAll [(R.tickPeriod, h.get R.tickNext), (R.tickPend, 0), (R.tickNext, 0)]).get R.tickPeriod =
        h.get R.tickNext :=
      (h.get_setAll_last _ _ _ (by simp)).trans (Nat.mod_eq_of_lt (h.get_lt R.tickNext))
    rw [h.periodChange_of_due hpend hat]
    exact ⟨hperiod, congrArg (· * 500) hperiod, Hub.get_setAll _ h (v := 0) (by simp) (by simp), rfl,
      fun f hp hd hx => Hub.get_setAll_ne _ h f (by simp [hp.symm, hd.symm, hx.symm])⟩
  · have hidle : (h.flag R.tickPend && h.tick.pendAt == h.tickNum) = false := by
      rcases hnot with hpend | hat
      · simp [Hub.flag, hpend]
      · simp [hat]
    rw [Hub.periodChange, hidle]
    rfl

end Sys2Proof.Machine
end

section
/-!
PROOFS. Power negotiation: a message that finds the receive queue full (R498).
-/

namespace Sys2Proof.Machine

open Sys2Proof

theorem Hub.pdReceive_of_full_queue {h : Hub} {n sopt hdr : Nat} (data : List Byte) (hon : h.ccOn n = true)
    (hatt : h.ccAttached n = true) (hsopt : sopt ≤ 4) (hctrl : pdCtrl hdr 1 = false) (hidle : (h.cc n).tx = none)
    (hfull : 8 ≤ (h.cc n).rx.length) :
    h.pdReceive n sopt hdr data true = (h.inc (R.ccRxDrop n)).ccCause n ccRxFull := by
  have hsop : sopt ≠ 6 := by omega
  simp [Hub.pdReceive, hon, hatt, hsop, Nat.not_lt.mpr hsopt, hctrl, hidle, hfull]

/-- The causes of a port are a register, and what they raise waits in the collector. -/
theorem Hub.get_ccCause (h : Hub) (n b : Nat) (f : Fld) :
    (h.ccCause n b).get f = (h.set (R.ccCause n) (setBit (h.get (R.ccCause n)) b)).get f := rfl

/-- Settles O37. -/
theorem fullReceiveQueueDropsTheMessage : Obligations.FullReceiveQueueDropsTheMessage := by
  intro h n sopt hdr data hon hatt hsopt hctrl hidle hfull
  rw [Hub.pdReceive_of_full_queue data hon hatt hsopt hctrl hidle hfull]
  refine ⟨rfl, rfl, ?_, ?_, fun f hdrop hcause => ?_⟩
  · rw [Hub.get_ccCause, Hub.get_set_ne _ _ _ _ (by simp), h.get_inc]
  · rw [Hub.get_ccCause, Hub.get_set, bit_eq_testBit, Nat.testBit_mod_two_pow, testBit_setBit]
    rfl
  · rw [Hub.get_ccCause, Hub.get_set_ne _ _ _ _ hcause.symm, h.get_inc_ne _ _ hdrop.symm]

end Sys2Proof.Machine
end

section
/-!
PROOFS. The key store: KEY.DERIVE (R561, R564).
-/

namespace Sys2Proof.Machine

open Sys2Proof

/-! A key slot. -/

/-- What `fillSlot` writes. -/
def slotFields (s level dom parent purpose inst kint ver : Nat) (dflt : Bool) : List (Fld × Nat) :=
  [(R.keyState s, ksValid), (R.keyLevel s, level), (R.keyDomain s, dom), (R.keyParent s, parent), (R.keyPurpose s, purpose),
    (R.keyInst s, inst), (R.keyKint s, kint), (R.keyDefault s, b2n dflt), (R.keyVer s, ver)]

section
variable (h : Hub) (s level dom parent purpose inst kint ver : Nat) (dflt : Bool) (k : KeyTerm)

theorem Hub.get_fillSlot {f : Fld} {v : Nat} (hmem : (f, v) ∈ slotFields s level dom parent purpose inst kint ver dflt) :
    (h.fillSlot s level dom parent purpose inst kint ver dflt k).get f = v % 2 ^ f.width :=
  h.get_setAll _ hmem (by simp)

theorem Hub.get_fillSlot_ne {f : Fld} (hf : f.key ∉ [(R.keyState s).key, (R.keyLevel s).key, (R.keyDomain s).key,
      (R.keyParent s).key, (R.keyPurpose s).key, (R.keyInst s).key, (R.keyKint s).key, (R.keyDefault s).key,
      (R.keyVer s).key]) :
    (h.fillSlot s level dom parent purpose inst kint ver dflt k).get f = h.get f :=
  Hub.get_setAll_ne _ h f fun p hp heq => hf (by
    rw [← heq]
    exact List.mem_map_of_mem (f := fun p : Fld × Nat => p.1.key) hp)

theorem Hub.get_keyState_fillSlot_ne {x : Nat} (hx : x ≠ s) :
    (h.fillSlot s level dom parent purpose inst kint ver dflt k).get (R.keyState x) = h.get (R.keyState x) :=
  h.get_fillSlot_ne s level dom parent purpose inst kint ver dflt k (by simp [hx])

theorem Hub.keyMat_fillSlot (x : Nat) :
    (h.fillSlot s level dom parent purpose inst kint ver dflt k).keyMat x = if x = s then k else h.keyMat x := by
  have hmat : (h.fillSlot s level dom parent purpose inst kint ver dflt k).sec.mat =
      tabSet (h.setAll (slotFields s level dom parent purpose inst kint ver dflt)).sec.mat (k1 s) k .zero := rfl
  rw [Hub.keyMat, hmat, Hub.sec_setAll, tabGet_tabSet]
  by_cases hx : x = s
  · simp [hx]
  · rw [if_neg (by simpa [k1_inj] using Ne.symm hx), if_neg hx]
    rfl

theorem Hub.fillSlot_frame :
    { h.fillSlot s level dom parent purpose inst kint ver dflt k with regs := h.regs, sec :=
        { (h.fillSlot s level dom parent purpose inst kint ver dflt k).sec with mat := h.sec.mat } } = h := by
  have hframe := h.setAll_frame (slotFields s level dom parent purpose inst kint ver dflt)
  exact hframe

end

/-! KEY.DERIVE that passes its checks (R564). -/

section
variable {h : Hub} {m parent k : Nat} (hm : h.isOwner m = true) (hkeys : h.holds m tgtKeys 3 = true) (hparent : parent ≤ 127)
  (hvalid : h.get (R.keyState parent) = 1) (hfree : h.freeSlot = some k)
include hm hkeys hparent hvalid hfree

theorem Hub.keyDerive_purpose (ver : Nat) (hlevel : h.get (R.keyLevel parent) = 1)
    (hnew : h.findKey (h.get (R.keyDomain parent)) 2 1 0 = none) :
    h.keyDerive m parent 1 0 0 ver =
      (h.fillSlot k 2 (h.get (R.keyDomain parent)) parent 1 0 12 ver false (purposeKey (h.keyMat parent) 1 ver)).ok [k] := by
  have hslot := (h.keyValid_iff parent).mpr hvalid
  simp [Hub.keyDerive, hm, hkeys, Nat.not_lt.mpr hparent, hslot, hlevel, keyInUse, hnew, hfree]

theorem Hub.keyDerive_instance (inst kint ver : Nat) (hlevel : h.get (R.keyLevel parent) = 2)
    (hdom : (h.get (R.keyDomain parent) = domLink ∧ inst ≤ 3) ∨ (h.get (R.keyDomain parent) = domNode ∧ inst ≤ 15))
    (hlo : 4 ≤ kint) (hhi : kint ≤ 16) (hnew : h.findKey (h.get (R.keyDomain parent)) 3 1 inst = none) :
    h.keyDerive m parent 1 inst kint ver =
      (h.fillSlot k 3 (h.get (R.keyDomain parent)) parent 1 inst kint (h.get (R.keyVer parent)) false
        (instanceKey (h.keyMat parent) inst (h.get (R.keyVer parent)))).ok [k] := by
  have hslot := (h.keyValid_iff parent).mpr hvalid
  have huse : keyInUse 3 (h.get (R.keyDomain parent)) 1 inst kint = true := by
    rcases hdom with ⟨hdom, hinst⟩ | ⟨hdom, hinst⟩
    · simp [keyInUse, hdom, hinst, hlo, hhi]
    · simp [keyInUse, hdom, hinst, hlo, hhi, domNode, domLink]
  simp [Hub.keyDerive, hm, hkeys, Nat.not_lt.mpr hparent, hslot, hlevel, huse, hnew, hfree]

end

/-- Settles O13: each derivation that passes fills one slot, by `fillSlot`. -/
theorem keyDeriveFillsTheLowestFreeSlot : Obligations.KeyDeriveFillsTheLowestFreeSlot := by
  intro h m parent ver k
  refine ⟨fun hm p i kint => by simp [Hub.keyDerive, hm, Hub.refuse],
    fun hm hkeys hparent hvalid hlevel hnew hfree => ?_,
    fun inst kint hm hkeys hparent hvalid hlevel hdom hlo hhi hnew hfree => ?_⟩
  · have hdom := Nat.mod_eq_of_lt (h.get_lt (R.keyDomain parent))
    have hfit : parent % 2 ^ 7 = parent := Nat.mod_eq_of_lt (by omega)
    rw [Hub.keyDerive_purpose hm hkeys hparent hvalid hfree ver hlevel hnew]
    dsimp only [Hub.ok]
    refine ⟨rfl, ?_, ?_, ?_, ?_, ?_, ?_, ?_, fun x hx => ⟨?_, ?_⟩, fun f hf => ?_, ?_⟩
    · exact h.get_fillSlot (v := ksValid) (hmem := by simp [slotFields]) ..
    · exact h.get_fillSlot (v := 2) (hmem := by simp [slotFields]) ..
    · exact (h.get_fillSlot (hmem := by simp [slotFields]) ..).trans hdom
    · exact (h.get_fillSlot (hmem := by simp [slotFields]) ..).trans hfit
    · exact h.get_fillSlot (v := 1) (hmem := by simp [slotFields]) ..
    · exact h.get_fillSlot (hmem := by simp [slotFields]) ..
    · exact (h.keyMat_fillSlot ..).trans (if_pos rfl)
    · exact (h.keyMat_fillSlot ..).trans (if_neg hx)
    · exact h.get_keyState_fillSlot_ne (hx := hx) ..
    · exact h.get_fillSlot_ne (hf := hf) ..
    · exact h.fillSlot_frame ..
  · have hdomain := Nat.mod_eq_of_lt (h.get_lt (R.keyDomain parent))
    have hver := Nat.mod_eq_of_lt (h.get_lt (R.keyVer parent))
    have hfit : parent % 2 ^ 7 = parent := Nat.mod_eq_of_lt (by omega)
    have hinst : inst % 2 ^ 5 = inst := Nat.mod_eq_of_lt (by omega)
    have hkint : kint % 2 ^ 5 = kint := Nat.mod_eq_of_lt (by omega)
    rw [Hub.keyDerive_instance hm hkeys hparent hvalid hfree inst kint ver hlevel hdom hlo hhi hnew]
    dsimp only [Hub.ok]
    refine ⟨rfl, ?_, ?_, ?_, ?_, ?_, ?_, ?_, ?_, ?_, fun x hx => ⟨?_, ?_⟩, ?_⟩
    · exact h.get_fillSlot (v := ksValid) (hmem := by simp [slotFields]) ..
    · exact h.get_fillSlot (v := 3) (hmem := by simp [slotFields]) ..
    · exact (h.get_fillSlot (hmem := by simp [slotFields]) ..).trans hdomain
    · exact (h.get_fillSlot (hmem := by simp [slotFields]) ..).trans hfit
    · exact h.get_fillSlot (v := 1) (hmem := by simp [slotFields]) ..
    · exact (h.get_fillSlot (hmem := by simp [slotFields]) ..).trans hinst
    · exact (h.get_fillSlot (hmem := by simp [slotFields]) ..).trans hkint
    · exact (h.get_fillSlot (hmem := by simp [slotFields]) ..).trans hver
    · exact (h.keyMat_fillSlot ..).trans (if_pos rfl)
    · exact (h.keyMat_fillSlot ..).trans (if_neg hx)
    · exact h.get_keyState_fillSlot_ne (hx := hx) ..
    · exact h.fillSlot_frame ..

end Sys2Proof.Machine
end

section
/-!
PROOFS. The fault collector: what a rise latches and what leaving clears (R543, R547 to R549, R553).
-/

namespace Sys2Proof.Machine

open Sys2Proof

/-! The latched bit of a source. -/

theorem Hub.latched_eq_testBit (h : Hub) (i : Nat) : h.latched i = (h.get (R.fcStatus (i / 32))).testBit (i % 32) :=
  bit_eq_testBit _ _

/-- A source is latched as before where its region's status word reads as before. -/
theorem Hub.latched_congr {h h' : Hub} {i : Nat} (hstatus : h'.get (R.fcStatus (i / 32)) = h.get (R.fcStatus (i / 32))) :
    h'.latched i = h.latched i := by
  rw [Hub.latched, hstatus, Hub.latched]

theorem Hub.latched_set_ne (h : Hub) {f : Fld} (v j : Nat) (hf : f.key ≠ (R.fcStatus (j / 32)).key) :
    (h.set f v).latched j = h.latched j :=
  Hub.latched_congr (h.get_set_ne f _ v hf)

/-- A write to the bit of one source leaves the other bits as they were. -/
theorem Hub.latched_set_status (h : Hub) (i w : Nat)
    (hw : ∀ b, b ≠ i % 32 → w.testBit b = (h.get (R.fcStatus (i / 32))).testBit b) (j : Nat) :
    (h.set (R.fcStatus (i / 32)) w).latched j = if j = i then w.testBit (i % 32) else h.latched j := by
  have hbit (b : Nat) : (w % 2 ^ 32).testBit (b % 32) = w.testBit (b % 32) := by
    rw [Nat.testBit_mod_two_pow, decide_eq_true (Nat.mod_lt b (by decide)), Bool.true_and]
  rw [Hub.latched_eq_testBit, Hub.latched_eq_testBit]
  by_cases hreg : j / 32 = i / 32
  · rw [hreg, Hub.get_set, hbit]
    by_cases hj : j = i
    · rw [if_pos hj, hj]
    · rw [if_neg hj, hw _ (by omega)]
  · rw [Hub.get_set_ne _ _ _ _ (by simpa using Ne.symm hreg), if_neg (fun hj => hreg (by rw [hj]))]

/-- The status bit of source `i` sets. -/
def Hub.latchBit (h : Hub) (i : Nat) : Hub :=
  h.set (R.fcStatus (i / 32)) (setBit (h.get (R.fcStatus (i / 32))) (i % 32))

theorem Hub.latched_latchBit (h : Hub) (i j : Nat) : (h.latchBit i).latched j = (decide (j = i) || h.latched j) := by
  rw [Hub.latchBit, h.latched_set_status i _ (fun b hb => by simp [testBit_setBit, hb]), testBit_setBit]
  by_cases hj : j = i
  · simp [hj]
  · simp [hj]

/-- The status bit of source `i` clears. -/
def Hub.clearBit (h : Hub) (i : Nat) : Hub :=
  h.set (R.fcStatus (i / 32)) (clrBit (h.get (R.fcStatus (i / 32))) (i % 32))

theorem Hub.latched_clearBit (h : Hub) (i j : Nat) : (h.clearBit i).latched j = (!decide (j = i) && h.latched j) := by
  rw [Hub.clearBit, h.latched_set_status i _ (fun b hb => by simp [testBit_clrBit, hb]), testBit_clrBit]
  by_cases hj : j = i
  · simp [hj]
  · simp [hj]

theorem Hub.flag_setFlag (h : Hub) {f : Fld} (b : Bool) (hf : 0 < f.width) : (h.setFlag f b).flag f = b := by
  have hfits : b2n b < 2 ^ f.width := Nat.lt_of_le_of_lt (b2n_le_one b) (Nat.one_lt_two_pow (by omega))
  rw [Hub.flag, Hub.setFlag, Hub.get_set, Nat.mod_eq_of_lt hfits]
  cases b <;> rfl

/-! FAULT_N: of the register fields its level alone. -/

theorem Hub.get_driveFaultN_ne (h : Hub) (low : Bool) {f : Fld} (hf : f.key ≠ R.fcolLow.key) :
    (h.driveFaultN low).get f = h.get f := by
  unfold Hub.driveFaultN
  split
  · rfl
  · exact h.get_set_ne _ _ _ hf.symm

theorem Hub.get_faultNLatch_ne (h : Hub) (i : Nat) {f : Fld} (hf : f.key ≠ R.fcolLow.key) :
    (h.faultNLatch i).get f = h.get f := by
  unfold Hub.faultNLatch
  split
  · exact Hub.get_driveFaultN_ne _ true hf
  · rfl

theorem Hub.get_faultNRest_ne (h : Hub) {f : Fld} (hf : f.key ≠ R.fcolLow.key) : h.faultNRest.get f = h.get f := by
  unfold Hub.faultNRest
  split
  · rfl
  · split
    · exact h.get_driveFaultN_ne false hf
    · rfl
    · exact h.get_driveFaultN_ne _ hf

/-! The fault log. -/

theorem Hub.get_logPut_ne (h : Hub) (e : LogEntry) {f : Fld}
    (hf : f.key ∉ [R.fcolOvfCnt.key, R.fcolCount.key, R.fcolNext.key]) : (h.logPut e).2.get f = h.get f := by
  simp only [List.mem_cons, List.not_mem_nil, or_false, not_or] at hf
  obtain ⟨hovf, hcount, hnext⟩ := hf
  unfold Hub.logPut
  dsimp only
  rw [Hub.incWrap, Hub.get_set_ne _ _ _ _ (Ne.symm hnext)]
  split
  · exact Hub.get_inc_ne _ _ _ (Ne.symm hovf)
  · exact Hub.get_inc_ne _ _ _ (Ne.symm hcount)

/-- Source `j` is as it was: latched or not, its reaction severity, DETAIL, stickiness, OCC and RCNT. -/
structure Hub.SourceKept (h h' : Hub) (j : Nat) : Prop where
  latched : h'.latched j = h.latched j
  field : ∀ f ∈ [R.srcRsev j, R.srcDetail j, R.srcSticky j, R.srcOcc j, R.srcRcnt j], h'.get f = h.get f

theorem Hub.SourceKept.trans {h h' h'' : Hub} {j : Nat} (hkept : h.SourceKept h' j) (hkept' : h'.SourceKept h'' j) :
    h.SourceKept h'' j :=
  ⟨hkept'.latched.trans hkept.latched, fun f hf => (hkept'.field f hf).trans (hkept.field f hf)⟩

theorem Hub.SourceKept.rfl {h : Hub} {j : Nat} : h.SourceKept h j := ⟨Eq.refl _, fun _ _ => Eq.refl _⟩

/-- Where no field of source `j` changes. -/
theorem Hub.SourceKept.of_get {h h' : Hub} {j : Nat}
    (hget : ∀ f ∈ [R.fcStatus (j / 32), R.srcRsev j, R.srcDetail j, R.srcSticky j, R.srcOcc j, R.srcRcnt j],
      h'.get f = h.get f) : h.SourceKept h' j :=
  ⟨Hub.latched_congr (hget _ (by simp)), fun f hf => hget f (List.mem_cons_of_mem _ hf)⟩

theorem Hub.SourceKept.set (h : Hub) {f : Fld} (v : Nat) {j : Nat}
    (hf : f.key ∉ [(R.fcStatus (j / 32)).key, (R.srcRsev j).key, (R.srcDetail j).key, (R.srcSticky j).key, (R.srcOcc j).key,
      (R.srcRcnt j).key]) : h.SourceKept (h.set f v) j :=
  .of_get fun g hg => h.get_set_ne f g v fun heq => hf (by
    rw [heq]
    exact List.mem_map_of_mem (f := Fld.key) hg)

theorem Hub.SourceKept.latchBit (h : Hub) {i j : Nat} (hj : j ≠ i) : h.SourceKept (h.latchBit i) j where
  latched := by simp [h.latched_latchBit, hj]
  field f hf := h.get_set_ne _ _ _ (by
    simp only [List.mem_cons, List.not_mem_nil, or_false] at hf
    rcases hf with rfl | rfl | rfl | rfl | rfl <;> simp)

theorem Hub.SourceKept.logPut (h : Hub) (e : LogEntry) (j : Nat) : h.SourceKept (h.logPut e).2 j :=
  .of_get fun f hf => h.get_logPut_ne e (by
    simp only [List.mem_cons, List.not_mem_nil, or_false] at hf
    rcases hf with rfl | rfl | rfl | rfl | rfl | rfl <;> simp)

theorem Hub.SourceKept.faultNLatch (h : Hub) (i j : Nat) : h.SourceKept (h.faultNLatch i) j :=
  .of_get fun f hf => h.get_faultNLatch_ne i (by
    simp only [List.mem_cons, List.not_mem_nil, or_false] at hf
    rcases hf with rfl | rfl | rfl | rfl | rfl | rfl <;> simp)

/-- The rise of a source that is not latched, but for DETAIL, the log and FAULT_N: the bit, the severity, the stickiness. -/
def Hub.latchSource (h : Hub) (i : Nat) : Hub :=
  let h := h.latchBit i
  let h := h.set (R.srcRsev i) (h.get (R.srcSev i))
  h.setFlag (R.srcSticky i) (h.get (R.srcRcnt i) == h.get (R.srcLimit i))

theorem Hub.SourceKept.latchSource (h : Hub) {i j : Nat} (hj : j ≠ i) : h.SourceKept (h.latchSource i) j :=
  ((SourceKept.latchBit h hj).trans (.set _ _ (by simp [Ne.symm hj]))).trans (.set _ _ (by simp [Ne.symm hj]))

theorem Hub.latched_latchSource (h : Hub) (i : Nat) : (h.latchSource i).latched i = true := by
  rw [Hub.latchSource, Hub.setFlag, Hub.latched_set_ne _ _ _ (by simp), Hub.latched_set_ne _ _ _ (by simp),
    h.latched_latchBit, decide_eq_true rfl, Bool.true_or]

theorem Hub.get_srcRsev_latchSource (h : Hub) (i : Nat) : (h.latchSource i).get (R.srcRsev i) = h.get (R.srcSev i) := by
  have hsev : (h.latchBit i).get (R.srcSev i) = h.get (R.srcSev i) := h.get_set_ne _ _ _ (by simp)
  rw [Hub.latchSource, Hub.setFlag, Hub.get_set_ne _ _ _ _ (by simp), Hub.get_set, hsev,
    Nat.mod_eq_of_lt (h.get_lt (R.srcSev i))]

theorem Hub.sticky_latchSource (h : Hub) (i : Nat) :
    (h.latchSource i).sticky i = (h.get (R.srcRcnt i) == h.get (R.srcLimit i)) := by
  have hkeep {f : Fld} (hbit : f.key ≠ (R.fcStatus (i / 32)).key) (hsev : f.key ≠ (R.srcRsev i).key) :
      ((h.latchBit i).set (R.srcRsev i) ((h.latchBit i).get (R.srcSev i))).get f = h.get f :=
    (Hub.get_set_ne _ _ _ _ hsev.symm).trans (h.get_set_ne _ _ _ hbit.symm)
  rw [Hub.sticky, Hub.latchSource, Hub.flag_setFlag _ _ (by simp), hkeep (by simp) (by simp), hkeep (by simp) (by simp)]

theorem Hub.get_srcDetail_latchSource (h : Hub) (i : Nat) :
    (h.latchSource i).get (R.srcDetail i) = h.get (R.srcDetail i) := by
  rw [Hub.latchSource, Hub.setFlag, Hub.get_set_ne _ _ _ _ (by simp), Hub.get_set_ne _ _ _ _ (by simp), Hub.latchBit,
    Hub.get_set_ne _ _ _ _ (by simp)]

/-! LOG_OVF and the entry of an event. -/

theorem Hub.logOverflow_of_not_latched (h : Hub) (hnot : h.latched srcLogOvf = false) : ∃ e : LogEntry,
    h.logOverflow = ((((h.latchSource srcLogOvf).logPut e).2.set (R.srcOcc srcLogOvf) 0).faultNLatch srcLogOvf).when
      ((h.latchSource srcLogOvf).logPut e).1 (fun h => h.inc (R.srcOcc srcLogOvf)) := by
  rw [Hub.logOverflow, hnot]
  exact ⟨_, rfl⟩

theorem Hub.logOverflow_of_latched (h : Hub) (hlatched : h.latched srcLogOvf = true) :
    h.logOverflow = h.inc (R.srcOcc srcLogOvf) := by
  rw [Hub.logOverflow, if_pos hlatched]

theorem Hub.SourceKept.when {h : Hub} {g : Hub → Hub} {j : Nat} (hg : h.SourceKept (g h) j) (c : Bool) :
    h.SourceKept (h.when c g) j := by
  cases c with
  | false => exact .rfl
  | true => exact hg

/-- The full log concerns its own source alone. -/
theorem Hub.SourceKept.logOverflow (h : Hub) {j : Nat} (hj : j ≠ srcLogOvf) : h.SourceKept h.logOverflow j := by
  have hocc (h : Hub) (v : Nat) : h.SourceKept (h.set (R.srcOcc srcLogOvf) v) j := .set h v (by simp [Ne.symm hj])
  cases hlatched : h.latched srcLogOvf with
  | true =>
    rw [h.logOverflow_of_latched hlatched]
    exact hocc _ _
  | false =>
    obtain ⟨e, heq⟩ := h.logOverflow_of_not_latched hlatched
    rw [heq]
    exact ((((SourceKept.latchSource h hj).trans (.logPut ..)).trans (hocc ..)).trans (.faultNLatch ..)).trans
      (.when (hocc ..) _)

/-- An event of source `i` that goes into the log concerns `i` and the full log's own source alone. -/
theorem Hub.SourceKept.logEvent (h : Hub) (i evt : Nat) (forced : Bool) {j : Nat} (hi : j ≠ i) (hj : j ≠ srcLogOvf) :
    h.SourceKept (h.logEvent i evt forced) j :=
  ((SourceKept.logPut h _ j).trans (.set _ _ (by simp [Ne.symm hi]))).trans (.when (.logOverflow _ hj) _)

/-- A latched source is as it was but for OCC. -/
structure Hub.LatchKept (h h' : Hub) (i : Nat) : Prop where
  latched : h'.latched i = h.latched i
  field : ∀ f ∈ [R.srcRsev i, R.srcDetail i, R.srcSticky i], h'.get f = h.get f

theorem Hub.SourceKept.latchKept {h h' : Hub} {i : Nat} (hkept : h.SourceKept h' i) : h.LatchKept h' i where
  latched := hkept.latched
  field f hf := hkept.field f (List.mem_append_left [R.srcOcc i, R.srcRcnt i] hf)

theorem Hub.LatchKept.trans {h h' h'' : Hub} {i : Nat} (hkept : h.LatchKept h' i) (hkept' : h'.LatchKept h'' i) :
    h.LatchKept h'' i :=
  ⟨hkept'.latched.trans hkept.latched, fun f hf => (hkept'.field f hf).trans (hkept.field f hf)⟩

theorem Hub.LatchKept.set_srcOcc (h : Hub) (i k v : Nat) : h.LatchKept (h.set (R.srcOcc k) v) i where
  latched := h.latched_set_ne v i (by simp)
  field f hf := h.get_set_ne _ _ _ (by
    simp only [List.mem_cons, List.not_mem_nil, or_false] at hf
    rcases hf with rfl | rfl | rfl <;> simp)

/-- The full log latches no source that is latched. -/
theorem Hub.LatchKept.logOverflow {h : Hub} {i : Nat} (hi : h.latched i = true) : h.LatchKept h.logOverflow i := by
  by_cases hovf : i = srcLogOvf
  · rw [h.logOverflow_of_latched (hovf ▸ hi)]
    exact .set_srcOcc ..
  · exact (SourceKept.logOverflow h hovf).latchKept

theorem Hub.LatchKept.logEvent {h : Hub} {i : Nat} (evt : Nat) (forced : Bool) (hi : h.latched i = true) :
    h.LatchKept (h.logEvent i evt forced) i := by
  have hentry := (SourceKept.logPut h (h.entryOf i evt forced) i).latchKept.trans (.set_srcOcc _ i i 0)
  refine hentry.trans ?_
  have hstill := hentry.latched.trans hi
  unfold Hub.logEvent
  dsimp only
  cases (h.logPut (h.entryOf i evt forced)).1 with
  | false => exact SourceKept.rfl.latchKept
  | true => exact .logOverflow hstill

/-! A rise. -/

theorem Hub.rise_of_latched (h : Hub) {i : Nat} (detail : Nat) (forced : Bool) (hi : h.latched i = true) :
    h.rise i detail forced = (false, (h.set (R.srcDetail i) detail).inc (R.srcOcc i)) := by
  rw [Hub.rise, h.latched_set_ne _ i (by simp), if_pos hi]

theorem Hub.rise_of_not_latched (h : Hub) {i : Nat} (detail : Nat) (forced : Bool) (hi : h.latched i = false) : ∃ evt,
    h.rise i detail forced =
      (true, ((((h.set (R.srcDetail i) detail).latchSource i).logEvent i evt forced).faultNLatch i)) := by
  rw [Hub.rise, h.latched_set_ne _ i (by simp), hi]
  exact ⟨_, rfl⟩

/-- Settles O14: a rise is `latchSource`, and what the log adds concerns OCC and the full log's own source. -/
theorem risingSourceLatches : Obligations.RisingSourceLatches := by
  refine fun h i detail forced _ => ⟨fun hnot => ?_, fun hi => ?_⟩
  · obtain ⟨evt, heq⟩ := h.rise_of_not_latched detail forced hnot
    rw [heq]
    dsimp only
    have hlatched := (h.set (R.srcDetail i) detail).latched_latchSource i
    have hkept := (Hub.LatchKept.logEvent evt forced hlatched).trans (Hub.SourceKept.faultNLatch _ i i).latchKept
    refine ⟨rfl, hkept.latched.trans hlatched, ?_, ?_, ?_, fun j _ hi hj => ?_⟩
    · rw [hkept.field _ (by simp), Hub.get_srcRsev_latchSource, h.get_set_ne _ _ _ (by simp)]
    · rw [hkept.field _ (by simp), Hub.get_srcDetail_latchSource, Hub.get_set]
    · rw [Hub.sticky, Hub.flag, hkept.field _ (by simp)]
      have hsticky := (h.set (R.srcDetail i) detail).sticky_latchSource i
      rw [h.get_set_ne _ _ _ (by simp), h.get_set_ne _ _ _ (by simp)] at hsticky
      exact hsticky
    · have hother := (((Hub.SourceKept.set h (f := R.srcDetail i) detail (j := j) (by simp [Ne.symm hi])).trans
        (.latchSource _ hi)).trans (.logEvent _ i evt forced hi hj)).trans (.faultNLatch _ i j)
      exact ⟨hother.latched, hother.field⟩
  · rw [h.rise_of_latched detail forced hi]
    refine ⟨rfl, ?_, fun j => ?_, fun f hdetail hocc => ?_⟩
    · rw [Hub.get_inc, h.get_set_ne _ _ _ (by simp)]
      rfl
    · exact (Hub.latched_set_ne _ _ j (by simp)).trans (h.latched_set_ne _ j (by simp))
    · rw [Hub.get_inc_ne _ _ _ hocc.symm, h.get_set_ne _ _ _ hdetail.symm]

/-! Leaving. -/

theorem Hub.latched_unlatch (h : Hub) (i j : Nat) : (h.unlatch i).latched j = (!decide (j = i) && h.latched j) := by
  rw [Hub.unlatch, Hub.latched_congr (Hub.get_faultNRest_ne _ (by simp)), Hub.setFlag, Hub.latched_set_ne _ _ _ (by simp)]
  exact h.latched_clearBit i j

theorem Hub.sticky_unlatch (h : Hub) (i : Nat) : (h.unlatch i).sticky i = false := by
  rw [Hub.unlatch, Hub.sticky, Hub.flag, Hub.get_faultNRest_ne _ (by simp)]
  exact Hub.flag_setFlag _ false (by simp)

theorem Hub.clearSource_of_not_mayClear (h : Hub) {i : Nat} (hi : h.mayClear i = false) : h.clearSource i = h := by
  rw [Hub.clearSource, hi]
  rfl

/-- Settles O15. -/
theorem onlyItsOwnBitIsClearedAndNeverUnderAHighLine : Obligations.OnlyItsOwnBitIsClearedAndNeverUnderAHighLine := by
  refine fun h i _ => ⟨⟨?_, h.sticky_unlatch i, fun j _ hj => ?_⟩, fun hactive => ?_, fun hnot => ?_, fun hbar => ?_⟩
  · simp [h.latched_unlatch]
  · simp [h.latched_unlatch, hj]
  · exact h.clearSource_of_not_mayClear (by simp [Hub.mayClear, hactive])
  · exact h.clearSource_of_not_mayClear (by simp [Hub.mayClear, hnot])
  · have hquench : h.mayQuench i = false := by
      rcases hbar with hbar | hbar | hbar | hbar | hbar <;> simp [Hub.mayQuench, hbar]
    rw [Hub.quench, hquench]
    rfl

end Sys2Proof.Machine
end

section
/-!
PROOFS. The chip summary word (R29, R546).
-/

namespace Sys2Proof.Machine

open Sys2Proof

/-! A word of one bit per region. -/

/-- The word whose bit `r` is `p r`, for the `n` lowest. -/
def bitSum (p : Nat → Bool) (n : Nat) : Nat := ((List.range n).map (fun r => b2n (p r) * 2 ^ r)).sum

theorem bitSum_succ (p : Nat → Bool) (n : Nat) : bitSum p (n + 1) = 2 ^ n * b2n (p n) + bitSum p n := by
  simp [bitSum, List.range_succ, Nat.mul_comm, Nat.add_comm]

theorem bitSum_lt (p : Nat → Bool) (n : Nat) : bitSum p n < 2 ^ n := by
  induction n with
  | zero => exact Nat.one_pos
  | succ n ih =>
    have htop : 2 ^ n * b2n (p n) ≤ 2 ^ n * 1 := Nat.mul_le_mul_left _ (b2n_le_one _)
    rw [bitSum_succ, Nat.pow_succ]
    omega

theorem testBit_bitSum (p : Nat → Bool) {n r : Nat} (hr : r < n) : (bitSum p n).testBit r = p r := by
  induction n with
  | zero => exact absurd hr (Nat.not_lt_zero r)
  | succ n ih =>
    rw [bitSum_succ, Nat.testBit_two_pow_mul_add _ (bitSum_lt p n)]
    by_cases htop : r < n
    · rw [if_pos htop, ih htop]
    · obtain rfl : r = n := by omega
      cases p r <;> simp [b2n]

/-! CTL_FC_SUMMARY. -/

/-- Does a latched source of region `r` react at severity `sev` or more? -/
def Hub.regionReacts (h : Hub) (sev r : Nat) : Bool :=
  (List.range 32).any (fun b => h.latched (32 * r + b) && decide (sev ≤ h.get (R.srcRsev (32 * r + b))))

theorem Hub.regionReacts_iff (h : Hub) (sev r : Nat) : h.regionReacts sev r = true ↔
    ∃ b, b < 32 ∧ h.latched (32 * r + b) = true ∧ sev ≤ h.get (R.srcRsev (32 * r + b)) := by
  simp [Hub.regionReacts]

theorem Hub.safe_iff (h : Hub) :
    h.safe = true ↔ ∃ i, i < 256 ∧ h.latched i = true ∧ h.get (R.srcRsev i) = 3 := by
  simp [Hub.safe]

/-- The word as its four fields, one above the other. -/
theorem Hub.summary_eq (h : Hub) : h.summary =
    2 ^ 8 * (2 ^ 8 * (2 ^ 8 * b2n h.safe + bitSum (h.regionReacts 2) 8) + bitSum (h.regionReacts 1) 8) +
      bitSum (fun r => h.get (R.fcStatus r) != 0) 8 := by
  have hfields : h.summary = b2n h.safe * 2 ^ 24 + bitSum (h.regionReacts 2) 8 * 2 ^ 16 + bitSum (h.regionReacts 1) 8 * 2 ^ 8 +
      bitSum (fun r => h.get (R.fcStatus r) != 0) 8 := rfl
  omega

theorem Hub.testBit_summary_pend (h : Hub) {r : Nat} (hr : r < 8) :
    h.summary.testBit r = (h.get (R.fcStatus r) != 0) := by
  rw [h.summary_eq, Nat.testBit_two_pow_mul_add _ (bitSum_lt _ 8), if_pos hr, testBit_bitSum _ hr]

theorem Hub.testBit_summary_notify (h : Hub) {r : Nat} (hr : r < 8) :
    h.summary.testBit (8 + r) = h.regionReacts 1 r := by
  rw [h.summary_eq, Nat.testBit_two_pow_mul_add _ (bitSum_lt _ 8), if_neg (by omega), Nat.add_sub_cancel_left,
    Nat.testBit_two_pow_mul_add _ (bitSum_lt _ 8), if_pos hr, testBit_bitSum _ hr]

theorem Hub.testBit_summary_contain (h : Hub) {r : Nat} (hr : r < 8) :
    h.summary.testBit (16 + r) = h.regionReacts 2 r := by
  have hoff : 16 + r - 8 - 8 = r := by omega
  rw [h.summary_eq, Nat.testBit_two_pow_mul_add _ (bitSum_lt _ 8), if_neg (by omega),
    Nat.testBit_two_pow_mul_add _ (bitSum_lt _ 8), if_neg (by omega), hoff,
    Nat.testBit_two_pow_mul_add _ (bitSum_lt _ 8), if_pos hr, testBit_bitSum _ hr]

theorem Hub.testBit_summary_safe (h : Hub) : h.summary.testBit 24 = h.safe := by
  rw [h.summary_eq, Nat.testBit_two_pow_mul_add _ (bitSum_lt _ 8), if_neg (by decide),
    Nat.testBit_two_pow_mul_add _ (bitSum_lt _ 8), if_neg (by decide),
    Nat.testBit_two_pow_mul_add _ (bitSum_lt _ 8), if_neg (by decide)]
  cases h.safe <;> decide

theorem Hub.summary_lt (h : Hub) : h.summary < 2 ^ 25 := by
  have hsafe := b2n_le_one h.safe
  have hcontain := bitSum_lt (h.regionReacts 2) 8
  have hnotify := bitSum_lt (h.regionReacts 1) 8
  have hpend := bitSum_lt (fun r => h.get (R.fcStatus r) != 0) 8
  rw [h.summary_eq]
  omega

/-- Settles O16. -/
theorem summaryWordFollowsTheRegions : Obligations.SummaryWordFollowsTheRegions := by
  refine fun h => ⟨fun r hr => ?_, fun r hr => ?_, fun r hr => ?_, ?_, h.summary_lt⟩
  · rw [bit_eq_testBit, h.testBit_summary_pend hr, bne_iff_ne]
  · rw [bit_eq_testBit, h.testBit_summary_notify hr, h.regionReacts_iff]
  · rw [bit_eq_testBit, h.testBit_summary_contain hr, h.regionReacts_iff]
  · rw [bit_eq_testBit, h.testBit_summary_safe, h.safe_iff]

end Sys2Proof.Machine
end

section
/-!
PROOFS. Completion of a command in its mailbox (R607, R608, R610).
-/

namespace Sys2Proof.Machine

open Sys2Proof

/-- The response words that a completion writes. -/
def responseFields (m : Nat) (resp : List Nat) : List (Fld × Nat) :=
  (List.range resp.length).map (fun k => (R.mbxRspWord m k, resp.getD k 0))

/-- The status words that a completion writes. -/
def Hub.statusFields (h : Hub) (m op : Nat) (a : Ans) (len : Nat) : List (Fld × Nat) :=
  [(R.mbxOpcode m, op), (R.mbxRlen m, 4 * len), (R.mbxFail m, a.fail), (R.mbxDtick m, h.tickNum),
    (R.mbxCtag m, h.get (R.mbxCmdWord m 1)), (R.mbxState m, mbDone), (R.mbxStatus m, a.status),
    (R.mbxDoneSeq m, h.get (R.mbxSeq m))]

/-- The status words of a mailbox, and its count of completions. -/
def statusKeys (m : Nat) : List Key :=
  [(R.mbxOpcode m).key, (R.mbxRlen m).key, (R.mbxFail m).key, (R.mbxDtick m).key, (R.mbxCtag m).key, (R.mbxState m).key,
    (R.mbxStatus m).key, (R.mbxDoneSeq m).key, (R.mbxDoneCnt m).key]

/-- The registers of a mailbox as a completion leaves them. -/
def Hub.mailboxFilled (h : Hub) (m op : Nat) (a : Ans) : Hub :=
  let resp := a.resp.take 256
  let h := h.setAll (responseFields m resp)
  (h.setAll (h.statusFields m op a resp.length)).inc (R.mbxDoneCnt m)

section
variable (h : Hub) (m op : Nat) (a : Ans)

theorem Hub.get_setAll_responseFields_ne (resp : List Nat) {f : Fld} (hf : f.key.id ≠ (R.mbxRspWord m 0).key.id) :
    (h.setAll (responseFields m resp)).get f = h.get f :=
  h.get_setAll_ne _ f fun p hp heq => hf (by
    obtain ⟨k, _, rfl⟩ := List.mem_map.mp hp
    rw [← heq])

/-- A field that is no word of the mailbox's own response and is not written beside it. -/
theorem Hub.get_mailboxFilled_ne {f : Fld} (hresp : (h.setAll (responseFields m (a.resp.take 256))).get f = h.get f)
    (hf : f.key ∉ statusKeys m) :
    (h.mailboxFilled m op a).get f = h.get f := by
  simp only [statusKeys, List.mem_cons, List.not_mem_nil, or_false, not_or] at hf
  obtain ⟨hop, hlen, hfail, htick, htag, hstate, hstatus, hseq, hcount⟩ := hf
  rw [Hub.mailboxFilled, Hub.get_inc_ne _ _ _ (Ne.symm hcount), Hub.get_setAll_ne _ _ f, hresp]
  simp [Hub.statusFields, Ne.symm hop, Ne.symm hlen, Ne.symm hfail, Ne.symm htick, Ne.symm htag, Ne.symm hstate,
    Ne.symm hstatus, Ne.symm hseq]

theorem Hub.get_mailboxFilled {f : Fld} {v : Nat} (hlen : a.resp.length ≤ 256) (hcount : f.key ≠ (R.mbxDoneCnt m).key)
    (hmem : (f, v) ∈ h.statusFields m op a a.resp.length) : (h.mailboxFilled m op a).get f = v % 2 ^ f.width := by
  have hfields : (h.setAll (responseFields m a.resp)).statusFields m op a a.resp.length =
      h.statusFields m op a a.resp.length := by
    rw [Hub.statusFields, Hub.statusFields, Hub.tickNum, Hub.tick_setAll, Hub.tickNum]
    rw [h.get_setAll_responseFields_ne m _ (by simp), h.get_setAll_responseFields_ne m _ (by simp)]
  rw [Hub.mailboxFilled, List.take_of_length_le hlen, Hub.get_inc_ne _ _ _ hcount.symm, hfields, Hub.get_setAll _ _ hmem (by simp [Hub.statusFields])]

theorem Hub.get_mbxDoneCnt_mailboxFilled :
    (h.mailboxFilled m op a).get (R.mbxDoneCnt m) = min (h.get (R.mbxDoneCnt m) + 1) 65535 := by
  rw [Hub.mailboxFilled, Hub.get_inc, Hub.get_setAll_ne _ _ _ (by simp [Hub.statusFields]),
    h.get_setAll_responseFields_ne m _ (by simp)]
  rfl

theorem Hub.get_mbxRspWord_mailboxFilled (hlen : a.resp.length ≤ 256) {k : Nat} (hk : k < a.resp.length) :
    (h.mailboxFilled m op a).get (R.mbxRspWord m k) = a.resp.getD k 0 % 2 ^ 32 := by
  have hkeys : ((responseFields m a.resp).map (fun p => p.1.key)).Nodup := by
    have hmap : (responseFields m a.resp).map (fun p => p.1.key) =
        (List.range a.resp.length).map (fun k => (R.mbxRspWord m k).key) := by
      simp [responseFields]
    rw [hmap]
    exact List.pairwise_map.mpr (List.nodup_range.imp fun hne hij => hne (by simpa using hij))
  rw [Hub.mailboxFilled, List.take_of_length_le hlen, Hub.get_inc_ne _ _ _ (by simp), Hub.get_setAll_ne _ _ _ (by simp [Hub.statusFields])]
  exact h.get_setAll _ (List.mem_map.mpr ⟨k, List.mem_range.mpr hk, rfl⟩) hkeys

/-- A word past the response, or of another mailbox. -/
theorem Hub.get_mbxRspWord_mailboxFilled_ne {m' k : Nat} (hk : m' ≠ m ∨ a.resp.length ≤ k) :
    (h.mailboxFilled m op a).get (R.mbxRspWord m' k) = h.get (R.mbxRspWord m' k) := by
  refine h.get_mailboxFilled_ne m op a (h.get_setAll_ne _ _ fun p hp heq => ?_) (by simp [statusKeys])
  obtain ⟨j, hj, rfl⟩ := List.mem_map.mp hp
  have hlt : j < (a.resp.take 256).length := List.mem_range.mp hj
  rw [List.length_take] at hlt
  obtain ⟨hm, hjk⟩ : m = m' ∧ j = k := by simpa using heq
  omega

/-! A completion, beside the mailbox: the fence, the USB functions and the record that its master may ask for. -/

theorem Hub.get_fenceDone (t tag : Nat) (f : Fld) : (h.fenceDone t tag).get f = h.get f := by
  unfold Hub.fenceDone
  refine Hub.each_keeps (fun h => h.get f) _ _ (fun _ _ => ?_) h
  rfl

theorem Hub.get_completionRecord (status gens : Nat) (f : Fld) : (h.completionRecord m op status gens).get f = h.get f := by
  unfold Hub.completionRecord Hub.addRecord
  split <;> rfl

theorem Hub.ctl_completionRecord (status gens : Nat) : (h.completionRecord m op status gens).ctl = h.ctl := by
  unfold Hub.completionRecord Hub.addRecord
  split <;> rfl

/-- What is done on a condition keeps what it keeps where it is done. -/
theorem Hub.when_keeps {β : Type} (p : Hub → β) (c : Bool) {g : Hub → Hub} (hg : p (g h) = p h) : p (h.when c g) = p h := by
  cases c with
  | false => rfl
  | true => exact hg

variable {m}

theorem Hub.get_complete (hm : m < 8) (f : Fld) :
    (h.complete m op a).get f = ((h.fenceDone (m + 1) (bellKey m)).mailboxFilled m op a).get f := by
  rw [Hub.complete, Hub.completeWith, if_neg (by omega)]
  refine (Hub.when_keeps _ (fun h => h.get f) _ (Hub.get_completionRecord ..)).trans ?_
  exact Hub.when_keeps ((h.fenceDone (m + 1) (bellKey m)).mailboxFilled m op a) (fun h => h.get f) (m == 4 || m == 5) rfl

theorem Hub.parkedOf_complete (hm : m < 8) : (h.complete m op a).parkedOf m = none := by
  rw [Hub.complete, Hub.completeWith, if_neg (by omega)]
  refine (Hub.when_keeps _ (fun h => h.parkedOf m) _ (congrArg (fun c : Ctl => tabGet c.parked (k1 m) none)
    (Hub.ctl_completionRecord ..))).trans ?_
  dsimp only
  rw [Hub.parkedOf, tabGet, tabFind_tabErase, if_pos rfl]
  rfl

end

/-- Settles O17. -/
theorem completionFillsTheMailbox : Obligations.CompletionFillsTheMailbox := by
  intro h m op a hm hlen
  have hget := fun f => h.get_complete op a hm f
  have hfence := fun f => h.get_fenceDone (m + 1) (bellKey m) f
  generalize h.fenceDone (m + 1) (bellKey m) = g at hget hfence
  have hfilled {f : Fld} {v : Nat} (hcount : f.key ≠ (R.mbxDoneCnt m).key)
      (hmem : (f, v) ∈ g.statusFields m op a a.resp.length) : (h.complete m op a).get f = v % 2 ^ f.width :=
    (hget f).trans (g.get_mailboxFilled m op a hlen hcount hmem)
  have hseq := Nat.mod_eq_of_lt (h.get_lt (R.mbxSeq m))
  have hword := Nat.mod_eq_of_lt (h.get_lt (R.mbxCmdWord m 1))
  have hfit : 4 * a.resp.length % 2 ^ 11 = 4 * a.resp.length := Nat.mod_eq_of_lt (by omega)
  have hother {f : Fld} (hresp : f.key.id ≠ (R.mbxRspWord m 0).key.id) (hf : f.key ∉ statusKeys m) :
      (h.complete m op a).get f = h.get f := by
    rw [hget, g.get_mailboxFilled_ne m op a (g.get_setAll_responseFields_ne m _ hresp) hf, hfence]
  refine ⟨hfilled (v := mbDone) (by simp) (by simp [Hub.statusFields]), hfilled (by simp) (by simp [Hub.statusFields]), ?_,
    hfilled (by simp) (by simp [Hub.statusFields]), ?_, hfilled (by simp) (by simp [Hub.statusFields]), ?_, fun k hk => ?_,
    fun k hk => ?_, ?_, h.parkedOf_complete op a hm, fun m' k => ?_, fun m' k hm' => ⟨?_, ?_, ?_, ?_⟩⟩
  · rw [hfilled (v := g.get (R.mbxSeq m)) (by simp) (by simp [Hub.statusFields]), hfence, hseq]
  · exact (hfilled (by simp) (by simp [Hub.statusFields])).trans hfit
  · rw [hfilled (v := g.get (R.mbxCmdWord m 1)) (by simp) (by simp [Hub.statusFields]), hfence, hword]
  · rw [hget, g.get_mbxRspWord_mailboxFilled m op a hlen hk]
  · rw [hget, g.get_mbxRspWord_mailboxFilled_ne m op a (.inr hk), hfence]
  · rw [hget, g.get_mbxDoneCnt_mailboxFilled, hfence]
  · exact hother (by simp) (by simp [statusKeys])
  · exact hother (by simp) (by simp [statusKeys, hm'])
  · exact hother (by simp) (by simp [statusKeys, hm'])
  · exact hother (by simp) (by simp [statusKeys, hm'])
  · rw [hget, g.get_mbxRspWord_mailboxFilled_ne m op a (.inl hm'), hfence]

end Sys2Proof.Machine
end

section
/-!
PROOFS. Opening a tunnel (Table 3-11, R93).
-/

namespace Sys2Proof.Machine

open Sys2Proof

theorem Hub.get_resetAll_ne (l : List Fld) (h : Hub) (g : Fld) (hl : ∀ f ∈ l, f.key ≠ g.key) : (h.resetAll l).get g = h.get g := by
  induction l generalizing h with
  | nil => rfl
  | cons f l ih =>
    exact (ih (h.toReset f) fun g hg => hl g (List.mem_cons_of_mem _ hg)).trans
      (h.get_toReset_ne f g (hl f (List.mem_cons_self ..)))

/-- Where every field written is one of copy `t`. -/
theorem Hub.get_setAll_of_i (h : Hub) {t : Nat} (l : List (Fld × Nat)) (f : Fld) (hl : ∀ p ∈ l, p.1.key.i = t)
    (hf : f.key.i ≠ t) : (h.setAll l).get f = h.get f :=
  h.get_setAll_ne l f fun p hp heq => hf (heq ▸ hl p hp)

/-! Opening a tunnel, in the order in which it changes registers. -/

/-- The registers of a tunnel that opens, by what it writes first (generation and descriptor), then the state with its
sequence numbers and counts, and last the counters. -/
def Hub.described (h : Hub) (t : Nat) (d : Desc) : Hub :=
  ((h.set (R.ttGen t) ((h.get (R.ttGen t) + 1) % 16)).setRole t d).setTune t d

def Hub.counted (h : Hub) (t : Nat) : Hub :=
  let h := h.resetAll (openCounters t)
  let ok := b2n h.tick.sampled.2
  h.setAll [(R.qcValidF t, ok), (R.qcValidR t, ok), (R.qcSmpTick t, h.tick.sampled.1)]

def Hub.opened (h : Hub) (t pid : Nat) : Hub :=
  h.setAll [(R.ttState t, tOpen), (R.ttFailed t, 0), (R.ttPlanId t, pid), (R.runIngSeq t, 0), (R.runEgrSeq t, 0),
    (R.runQleft t, 0), (R.runDrained t, 0)]

section
variable (h : Hub) (t pid : Nat) (d : Desc)

theorem Hub.get_openQueue (dir : Nat) (f : Fld) : (h.openQueue t dir).get f = h.get f :=
  h.get_modQueue t dir _ f

theorem Hub.get_openTunnel (f : Fld) :
    (h.openTunnel t d pid).get f = (((h.described t d).opened t pid).counted t).get f := by
  rw [Hub.openTunnel, Hub.get_openQueue, Hub.get_openQueue, Hub.get_modTunX]
  rfl

theorem Hub.queue_openQueue (dir : Nat) :
    ((h.openQueue t dir).queue t dir).seqIn = 0 ∧ ((h.openQueue t dir).queue t dir).seqOut = 0 := by
  rw [Hub.openQueue, Hub.queue_modQueue, if_pos ⟨rfl, rfl⟩]
  exact ⟨rfl, rfl⟩

/-- Fields of tunnel `t` that the counters do not name. -/
theorem Hub.get_counted_ne {f : Fld} (hf : f.key ∉ ([R.qcValidF t, R.qcValidR t, R.qcSmpTick t] ++ openCounters t).map Fld.key) :
    (h.counted t).get f = h.get f := by
  have hne : ∀ g ∈ [R.qcValidF t, R.qcValidR t, R.qcSmpTick t] ++ openCounters t, g.key ≠ f.key := fun g hg heq =>
    hf (List.mem_map.mpr ⟨g, hg, heq⟩)
  rw [Hub.counted, Hub.get_setAll_ne _ _ f, h.get_resetAll_ne _ f]
  · exact fun g hg => hne g (List.mem_append_right _ hg)
  · exact fun p hp => hne p.1 (List.mem_append_left _ (List.mem_map_of_mem (f := Prod.fst) hp))

/-- What opening writes beside descriptor and counters. -/
def openFields (t pid : Nat) : List (Fld × Nat) :=
  [(R.ttState t, tOpen), (R.ttFailed t, 0), (R.ttPlanId t, pid), (R.runIngSeq t, 0), (R.runEgrSeq t, 0), (R.runQleft t, 0),
    (R.runDrained t, 0)]

theorem Hub.get_opened {f : Fld} {v : Nat} (hmem : (f, v) ∈ openFields t pid) : (h.opened t pid).get f = v % 2 ^ f.width :=
  h.get_setAll _ hmem (by simp)

theorem Hub.get_opened_ne {f : Fld} (hf : ∀ p ∈ openFields t pid, p.1.key ≠ f.key) : (h.opened t pid).get f = h.get f :=
  h.get_setAll_ne _ f hf

theorem Hub.get_openTunnel_of_opened {f : Fld} {v : Nat} (hmem : (f, v) ∈ openFields t pid)
    (hf : f.key ∉ ([R.qcValidF t, R.qcValidR t, R.qcSmpTick t] ++ openCounters t).map Fld.key) :
    (h.openTunnel t d pid).get f = v % 2 ^ f.width := by
  rw [h.get_openTunnel, Hub.get_counted_ne _ t hf, Hub.get_opened _ t pid hmem]

/-- Fields of the descriptor, and the generation. -/
theorem Hub.get_openTunnel_of_described {f : Fld} (hopen : ∀ p ∈ openFields t pid, p.1.key ≠ f.key)
    (hf : f.key ∉ ([R.qcValidF t, R.qcValidR t, R.qcSmpTick t] ++ openCounters t).map Fld.key) :
    (h.openTunnel t d pid).get f = (h.described t d).get f := by
  rw [h.get_openTunnel, Hub.get_counted_ne _ t hf, Hub.get_opened_ne _ t pid hopen]

theorem Hub.get_ttGen_described : (h.described t d).get (R.ttGen t) = (h.get (R.ttGen t) + 1) % 16 := by
  rw [Hub.described, Hub.setTune, Hub.get_setAll_ne _ _ _ (by simp), Hub.setRole, Hub.get_setAll_ne _ _ _ (by simp),
    Hub.get_set]
  exact Nat.mod_mod _ _

/-- The part of the descriptor that is fixed while the tunnel is open (Table 3-11). -/
def roleFields (t : Nat) (d : Desc) : List (Fld × Nat) :=
  [(R.ttClass t, d.cls), (R.ttOwn t, d.own), (R.ttBidir t, d.bidir), (R.ttIngr t, d.ingr), (R.ttEgr t, d.egr),
    (R.ttLine t, d.line), (R.ttLp5w t, d.lp5w)]

theorem Hub.get_described_of_role {f : Fld} {v : Nat} (hmem : (f, v) ∈ roleFields t d) :
    (h.described t d).get f = v % 2 ^ f.width := by
  have htune : ∀ p ∈ roleFields t d, ∀ g : Hub, (g.setTune t d).get p.1 = g.get p.1 := by
    simp only [roleFields, List.forall_mem_cons]
    refine ⟨?_, ?_, ?_, ?_, ?_, ?_, ?_, by simp⟩ <;> exact fun g => g.get_setAll_ne _ _ (by simp)
  rw [Hub.described, htune _ hmem, Hub.setRole]
  exact Hub.get_setAll _ _ hmem (by simp)

theorem Hub.get_described_ne {f : Fld} (hf : f.key.i ≠ t) : (h.described t d).get f = h.get f := by
  rw [Hub.described, Hub.setTune, Hub.get_setAll_of_i _ _ _ (by simp) hf, Hub.setRole,
    Hub.get_setAll_of_i _ _ _ (by simp) hf, h.get_set_ne _ _ _ fun heq => hf (by rw [← heq])]

/-- No register of another tunnel. -/
theorem Hub.get_openTunnel_ne {f : Fld} (hf : f.key.i ≠ t) : (h.openTunnel t d pid).get f = h.get f := by
  have hopen : ∀ p ∈ openFields t pid, p.1.key.i = t := by simp [openFields]
  have hcount : ∀ g ∈ [R.qcValidF t, R.qcValidR t, R.qcSmpTick t] ++ openCounters t, g.key.i = t := by simp [openCounters]
  rw [h.get_openTunnel_of_described t pid d (fun p hp heq => hf (heq ▸ hopen p hp)) ?_, h.get_described_ne t d hf]
  intro hmem
  obtain ⟨g, hg, heq⟩ := List.mem_map.mp hmem
  exact hf (heq ▸ hcount g hg)

end

/-- Settles O22. -/
theorem openingATunnelGivesItItsNextGeneration : Obligations.OpeningATunnelGivesItItsNextGeneration := by
  intro h t pid d
  refine ⟨?_, ?_, ?_, ?_, ?_, ?_, ?_, ?_, ?_, ?_, ?_, fun f hf => h.get_openTunnel_ne t pid d hf⟩
  · rw [h.get_openTunnel_of_described t pid d (by simp [openFields]) (by simp [openCounters]), h.get_ttGen_described]
  · exact h.get_openTunnel_of_opened t pid d (v := tOpen) (by simp [openFields]) (by simp [openCounters])
  · exact h.get_openTunnel_of_opened t pid d (v := 0) (by simp [openFields]) (by simp [openCounters])
  · exact h.get_openTunnel_of_opened t pid d (v := 0) (by simp [openFields]) (by simp [openCounters])
  · exact h.get_openTunnel_of_opened t pid d (v := 0) (by simp [openFields]) (by simp [openCounters])
  · exact (Hub.queue_openQueue _ t 1).1
  · exact (Hub.queue_openQueue _ t 1).2
  · rw [h.get_openTunnel_of_described t pid d (by simp [openFields]) (by simp [openCounters]),
      Hub.get_described_of_role h t d (v := d.own) (by simp [roleFields])]
  · rw [h.get_openTunnel_of_described t pid d (by simp [openFields]) (by simp [openCounters]),
      Hub.get_described_of_role h t d (v := d.cls) (by simp [roleFields])]
  · rw [h.get_openTunnel_of_described t pid d (by simp [openFields]) (by simp [openCounters]),
      Hub.get_described_of_role h t d (v := d.ingr) (by simp [roleFields])]
  · rw [h.get_openTunnel_of_described t pid d (by simp [openFields]) (by simp [openCounters]),
      Hub.get_described_of_role h t d (v := d.egr) (by simp [roleFields])]

end Sys2Proof.Machine
end

section
/-!
PROOFS. Frames of a tunnel that is not OPEN (Table 3-12) and the credit cost of a frame (R131 to R133).
-/

namespace Sys2Proof.Machine

open Sys2Proof

/-! Frames of a tunnel that is not OPEN. -/

theorem Hub.frameReason_of_not_open {h : Hub} {f : Frame} (code : Nat) (hstate : h.get (R.ttState f.tid) ≠ 1)
    (hhold : h.holdRepeat f = false) : h.frameReason f code = 2 := by
  have hopen : h.tunIs f.tid tOpen = false := by simpa [Hub.tunIs, tOpen] using hstate
  simp [Hub.frameReason, hopen, hhold]

/-- A frame that is discarded is counted; what else it leaves is a record for its sender. -/
theorem Hub.discardFrame_eq (h : Hub) (f : Frame) (code reason : Nat) :
    ∃ t, h.discardFrame f code reason = { h.inc (reasonFld f.tid reason) with tun := t } := by
  unfold Hub.discardFrame
  dsimp only
  split
  · exact ⟨_, rfl⟩
  · split
    · exact ⟨_, rfl⟩
    · split
      · exact ⟨_, rfl⟩
      · exact ⟨_, rfl⟩

/-- Settles O24. -/
theorem frameOfAClosedTunnelIsCountedAndDropped : Obligations.FrameOfAClosedTunnelIsCountedAndDropped := by
  intro h f code n nos hformat hrequest hstate hhold
  obtain ⟨t, hdiscard⟩ := h.discardFrame_eq f code 2
  have hcells : h.ingressCells f code n nos = { h.inc (R.runNotopenCnt f.tid) with tun := t } := by
    rw [Hub.ingressCells, hformat, hrequest, Hub.frameReason_of_not_open code hstate hhold]
    exact hdiscard
  rw [hcells]
  exact ⟨h.get_inc _, fun g hg => h.get_inc_ne _ g hg.symm, rfl, rfl, rfl⟩

/-! The cost of a frame. -/

theorem frameHead_of_words {f : Frame} {w0 w1 w2 w3 : Nat} (hwords : frameWords f = [w0, w1, w2, w3]) :
    frameHead f = (w0 + w1 * 2 ^ 32) :: (w2 + w3 * 2 ^ 32) :: if f.ext then [f.addr % 2 ^ 64] else [] := by
  rw [frameHead, hwords]
  rfl

/-- Words 0 and 1 of a frame that is no node-bus packet (Table 4-9). -/
theorem frameWords_of_frame {f : Frame} (hnb : f.nb = none) : ∃ w2 w3, frameWords f =
    [f.tid * 2 ^ 20 + f.gen * 2 ^ 16 + f.cls * 2 ^ 13 + b2n f.first * 2 ^ 12 + b2n f.last * 2 ^ 11 + b2n f.posted * 2 ^ 10 +
      b2n f.retry * 2 ^ 9 + b2n f.late * 2 ^ 8 + b2n f.ext * 2 ^ 7 + b2n f.fence * 2 ^ 6 + b2n f.rev * 2 ^ 5,
      f.len * 2 ^ 18 + f.seq, w2, w3] := by
  unfold frameWords
  rw [hnb]
  exact ⟨_, _, rfl⟩

section
variable {f : Frame} (hnb : f.nb = none) (htid : 1 ≤ f.tid) (htid' : f.tid < 2 ^ 12) (hgen : f.gen < 16) (hcls : f.cls < 8)
  (hseq : f.seq < 2 ^ 16) (hlen : f.len < 2 ^ 14)
include hnb htid htid' hgen hcls hseq hlen

/-- The fields of the first block that a receiver reads the cost off. -/
theorem bits_frameHead : bits ((frameHead f).headD 0) 31 20 = f.tid ∧ bits ((frameHead f).headD 0) 7 7 = b2n f.ext ∧
    bits ((frameHead f).headD 0) 63 50 = f.len := by
  obtain ⟨mid, hmid, low, hlow, hhead⟩ : ∃ mid, mid < 2 ^ 12 ∧ ∃ low, low < 2 ^ 7 ∧ (frameHead f).headD 0 =
      f.tid * 2 ^ 20 + mid * 2 ^ 8 + b2n f.ext * 2 ^ 7 + low + (f.len * 2 ^ 18 + f.seq) * 2 ^ 32 := by
    have hfirst := b2n_le_one f.first
    have hlast := b2n_le_one f.last
    have hposted := b2n_le_one f.posted
    have hretry := b2n_le_one f.retry
    have hlate := b2n_le_one f.late
    have hfence := b2n_le_one f.fence
    have hrev := b2n_le_one f.rev
    refine ⟨f.gen * 2 ^ 8 + f.cls * 2 ^ 5 + b2n f.first * 2 ^ 4 + b2n f.last * 2 ^ 3 + b2n f.posted * 2 ^ 2 +
      b2n f.retry * 2 + b2n f.late, by omega, b2n f.fence * 2 ^ 6 + b2n f.rev * 2 ^ 5, by omega, ?_⟩
    obtain ⟨w2, w3, hwords⟩ := frameWords_of_frame hnb
    rw [frameHead_of_words hwords, List.headD_cons]
    omega
  have hext := b2n_le_one f.ext
  rw [hhead]
  simp only [bits]
  refine ⟨?_, ?_, ?_⟩ <;> omega

theorem costOfBlock_frameHead (c : Nat) : costOfBlock c ((frameHead f).headD 0) = f.cells := by
  obtain ⟨hword, hext, hstored⟩ := bits_frameHead hnb htid htid' hgen hcls hseq hlen
  have hframe : nbHead c ((frameHead f).headD 0) = false := by
    rw [nbHead, hword, beq_false_of_ne (by omega), Bool.and_false]
  rw [costOfBlock, extOf, hframe, if_neg (by decide), hext, hstored, Frame.cells, Frame.stored]

end

/-- The credits used of a class once the sending of a frame has begun. -/
theorem Hub.cc_startTx (h : Hub) (c : Nat) (x : TxFrame) :
    ((h.startTx c x).txc c x.ccls).cc = ((h.txc c x.ccls).cc + x.cells) % 16384 := by
  unfold Hub.startTx
  dsimp only
  rw [Hub.cc_newLu, Hub.txc_modLink _ _ _ _ ?_]
  have hset := congrArg TxClass.cc ((h.txc_setTxc c x.ccls x.ccls { h.txc c x.ccls with
    cc := ((h.txc c x.ccls).cc + x.cells) % 16384 }).trans (if_pos rfl))
  · cases x.nos.isEmpty with
    | false => exact hset
    | true => exact hset
  · exact fun _ => rfl

/-- Settles O26. -/
theorem creditCostIsReadOffTheFirstBlock : Obligations.CreditCostIsReadOffTheFirstBlock := by
  intro f c hnb htid htid' hgen hcls hseq hlen
  refine ⟨costOfBlock_frameHead hnb htid htid' hgen hcls hseq hlen c, rfl, fun h x _ hcells => ?_⟩
  rw [h.cc_startTx, hcells]
  rfl

end Sys2Proof.Machine
end

section
/-!
PROOFS. The scrambler of a lane (R107).
-/

namespace Sys2Proof.Machine

open Sys2Proof

/-! A word above another. -/

theorem testBit_add_mul_of_lt {a b i j : Nat} (hb : b < 2 ^ i) (hj : j < i) : (b + a * 2 ^ i).testBit j = b.testBit j := by
  rw [Nat.add_comm, Nat.mul_comm, Nat.testBit_two_pow_mul_add _ hb, if_pos hj]

theorem testBit_add_mul {a b i : Nat} (hb : b < 2 ^ i) (j : Nat) : (b + a * 2 ^ i).testBit (i + j) = a.testBit j := by
  rw [Nat.add_comm, Nat.mul_comm, Nat.testBit_two_pow_mul_add _ hb, if_neg (by omega), Nat.add_sub_cancel_left]

theorem add_mul_two_pow_lt {a b i j : Nat} (hb : b < 2 ^ i) (ha : a < 2 ^ j) : b + a * 2 ^ i < 2 ^ (i + j) := by
  have hle : (a + 1) * 2 ^ i ≤ 2 ^ j * 2 ^ i := Nat.mul_le_mul_right _ ha
  rw [Nat.add_one_mul] at hle
  rw [Nat.pow_add, Nat.mul_comm (2 ^ i)]
  omega

/-! The scrambler sends its 64 bits in two runs, each short enough to need bits that are known before it (R107). -/

/-- The first 39 bits sent. -/
def scrambleLow (s w : Nat) : Nat := (w ^^^ (s / 2 ^ 19) ^^^ s) % 2 ^ 39

/-- The state after them, but that nothing is cut off above. -/
def scrambleMid (s w : Nat) : Nat := (s + scrambleLow s w * 2 ^ 58) / 2 ^ 39

/-- The last 25 bits sent. -/
def scrambleHigh (s w : Nat) : Nat := ((w / 2 ^ 39) ^^^ (scrambleMid s w / 2 ^ 19) ^^^ scrambleMid s w) % 2 ^ 25

theorem scramble_eq (s w : Nat) : scramble s w =
    (scrambleLow s w + scrambleHigh s w * 2 ^ 39, (scrambleMid s w + scrambleHigh s w * 2 ^ 58) / 2 ^ 25) := rfl

theorem scrambleLow_lt (s w : Nat) : scrambleLow s w < 2 ^ 39 := Nat.mod_lt _ (Nat.two_pow_pos 39)

theorem scrambleHigh_lt (s w : Nat) : scrambleHigh s w < 2 ^ 25 := Nat.mod_lt _ (Nat.two_pow_pos 25)

theorem testBit_scrambleLow (s w : Nat) {n : Nat} (hn : n < 39) :
    (scrambleLow s w).testBit n = (w.testBit n ^^ (s.testBit (n + 19) ^^ s.testBit n)) := by
  rw [scrambleLow, Nat.testBit_mod_two_pow, decide_eq_true hn, Bool.true_and, Nat.testBit_xor, Nat.testBit_xor,
    Nat.testBit_div_two_pow, Bool.xor_assoc]

theorem testBit_scrambleHigh (s w : Nat) {n : Nat} (hn : n < 25) : (scrambleHigh s w).testBit n =
    (w.testBit (n + 39) ^^ ((s + scrambleLow s w * 2 ^ 58).testBit (n + 58) ^^
      (s + scrambleLow s w * 2 ^ 58).testBit (n + 39))) := by
  rw [scrambleHigh, scrambleMid, Nat.testBit_mod_two_pow, decide_eq_true hn, Bool.true_and, Nat.testBit_xor,
    Nat.testBit_xor, Nat.testBit_div_two_pow, Nat.testBit_div_two_pow, Nat.testBit_div_two_pow, Nat.testBit_div_two_pow,
    Bool.xor_assoc]

/-- All bits in the order in which they are sent, the 58 before the word first. -/
theorem scramble_sent (s w : Nat) : s + (scramble s w).1 * 2 ^ 58 = s + scrambleLow s w * 2 ^ 58 + scrambleHigh s w * 2 ^ 97 := by
  rw [scramble_eq]
  omega

theorem scramble_state (s w : Nat) : (scramble s w).2 = (s + scrambleLow s w * 2 ^ 58 + scrambleHigh s w * 2 ^ 97) / 2 ^ 64 := by
  have hsplit : s + scrambleLow s w * 2 ^ 58 + scrambleHigh s w * 2 ^ 97 =
      s + scrambleLow s w * 2 ^ 58 + 2 ^ 39 * (scrambleHigh s w * 2 ^ 58) := by omega
  have hcut : (2 : Nat) ^ 64 = 2 ^ 39 * 2 ^ 25 := Nat.pow_add 2 39 25
  rw [hsplit, hcut, ← Nat.div_div_eq_div_mul, Nat.add_mul_div_left _ _ (Nat.two_pow_pos 39), scramble_eq, scrambleMid]

section
variable {s : Nat} (w : Nat) (hs : s < 2 ^ 58)
include hs

/-- What is known before the second run: the state and the bits of the first. -/
theorem scramble_known_lt : s + scrambleLow s w * 2 ^ 58 < 2 ^ 97 := add_mul_two_pow_lt hs (scrambleLow_lt s w)

theorem testBit_scramble_sent {n : Nat} (hn : n < 64) :
    (s + (scramble s w).1 * 2 ^ 58).testBit (58 + n) =
      (w.testBit n ^^ ((s + (scramble s w).1 * 2 ^ 58).testBit (n + 19) ^^ (s + (scramble s w).1 * 2 ^ 58).testBit n)) := by
  have hknown := scramble_known_lt w hs
  rw [scramble_sent s w, testBit_add_mul_of_lt (j := n) hknown (by omega),
    testBit_add_mul_of_lt (j := n + 19) hknown (by omega)]
  by_cases hlow : n < 39
  · rw [testBit_add_mul_of_lt hknown (by omega), testBit_add_mul hs, testBit_scrambleLow s w hlow,
      testBit_add_mul_of_lt hs (by omega), testBit_add_mul_of_lt hs (by omega)]
  · obtain ⟨k, rfl⟩ : ∃ k, n = k + 39 := ⟨n - 39, by omega⟩
    have hpos : 58 + (k + 39) = 97 + k := by omega
    rw [hpos, testBit_add_mul hknown, testBit_scrambleHigh s w (by omega)]

end

/-- Settles O28: the two runs of the scrambler, one above the other. -/
theorem lanesScrambleAsTheirPolynomialSays : Obligations.LanesScrambleAsTheirPolynomialSays := by
  intro s w hs _ sent
  refine ⟨add_mul_two_pow_lt (scrambleLow_lt s w) (scrambleHigh_lt s w), ?_, fun n hn => ?_⟩
  · exact (scramble_state s w).trans (congrArg (· / 2 ^ 64) (scramble_sent s w).symm)
  · have h39 : 58 + n - 39 = n + 19 := by omega
    have h58 : 58 + n - 58 = n := by omega
    rw [h39, h58]
    exact testBit_scramble_sent w hs hn

end Sys2Proof.Machine
end

section
/-!
PROOFS. Strikes that their channel does not admit (R216).
-/

namespace Sys2Proof.Machine

open Sys2Proof

/-! A strike that its port may not send. -/

/-- A fresh micro-frame of a port that its channel does not admit: counted as received and as denied. -/
theorem Hub.takeCopy_of_not_admitted {h : Hub} {c : Nat} {x : Strike}
    (hfresh : ((h.stk c).window.find? (fun p => p.1 == x.stseq)) = none) (hhops : x.hops ≠ 7)
    (hsrc : bit (h.get (R.routeSrc x.chan)) (c - 1) = false) :
    ∃ g, h.takeCopy c x = ((h.modStk c g).inc (R.fpRx (fpOf c))).inc (R.fpDenied (fpOf c)) := by
  rw [Hub.takeCopy, hfresh]
  dsimp only
  have hroute : ∀ g, ((h.modStk c g).inc (R.fpRx (fpOf c))).get (R.routeSrc x.chan) = h.get (R.routeSrc x.chan) := fun g =>
    (Hub.get_inc_ne _ _ _ (by simp)).trans (h.get_modStk c g _)
  rw [if_neg hhops, hroute, hsrc]
  exact ⟨_, rfl⟩

theorem Hub.not_mem_strikeDests (h : Hub) (ch src : Nat) : src ∉ h.strikeDests ch src := by
  unfold Hub.strikeDests
  dsimp only
  split
  · next halt =>
    have hsrc : h.get (R.routeAlt ch) + 1 ≠ src := by
      simp only [Bool.and_eq_true, bne_iff_ne] at halt
      exact halt.2
    rw [List.mem_append, not_or]
    refine ⟨by simp, ?_⟩
    split
    · exact List.not_mem_nil
    · simpa using hsrc.symm
  · simp

/-- Settles O29. -/
theorem strikeOfAPortNotAdmittedIsDenied : Obligations.StrikeOfAPortNotAdmittedIsDenied := by
  refine ⟨fun h c x hfresh hhops hsrc => ?_, fun h ch src => h.not_mem_strikeDests ch src⟩
  obtain ⟨g, hcopy⟩ := Hub.takeCopy_of_not_admitted hfresh hhops hsrc
  rw [hcopy]
  refine ⟨?_, rfl, rfl, rfl, fun p hp => ?_, fun f hdenied hrx => ?_⟩
  · rw [Hub.get_inc, Hub.get_inc_ne _ _ _ (by simp), h.get_modStk]
  · exact (h.stk_modStk c p g).trans (if_neg hp.symm)
  · rw [Hub.get_inc_ne _ _ _ hdenied.symm, Hub.get_inc_ne _ _ _ hrx.symm, h.get_modStk]

end Sys2Proof.Machine
end

section
/-!
PROOFS. The check of an access to LP5 (R433, R435).
-/

namespace Sys2Proof.Machine

open Sys2Proof

theorem Hub.flag_eq_true_iff_ne_zero (h : Hub) {f : Fld} (hf : f.width = 1) : h.flag f = true ↔ h.get f ≠ 0 := by
  have hlt := h.get_lt f
  rw [hf] at hlt
  rw [h.flag_eq_true_iff]
  omega

/-! The check of an access to LP5 (R433). -/

theorem Hub.winHas_iff (h : Hub) (w off len : Nat) : h.winHas w off len = true ↔
    h.get (R.winEn w) ≠ 0 ∧ h.get (R.winBase w) * 2 ^ 20 ≤ off ∧
      off + len ≤ (h.get (R.winBase w) + h.get (R.winSize w)) * 2 ^ 20 := by
  rw [Hub.winHas, Bool.and_eq_true, Bool.and_eq_true, decide_eq_true_eq, decide_eq_true_eq,
    h.flag_eq_true_iff_ne_zero rfl, and_assoc]

theorem Hub.lp5Allowed_iff (h : Hub) (a : Lp5Acc) : h.lp5Allowed a = true ↔
    (lp5Base ≤ a.addr ∧ a.addr - lp5Base + a.len ≤ h.get R.lp5CapMib * 2 ^ 20 ∧
      ∃ w, w < 16 ∧ h.winHas w (a.addr - lp5Base) a.len = true ∧
        h.holds a.master (tgtWin w) (if a.wr then 2 else 1) = true ∧ h.clientMask a w = true) := by
  simp [Hub.lp5Allowed, Hub.winGrants, and_assoc]

theorem Hub.lp5Verdict_of_up {h : Hub} (a : Lp5Acc) (hup : h.lp5Down = false) :
    h.lp5Verdict a = if h.lp5Allowed a then 0 else 1 := by
  rw [Hub.lp5Verdict, hup]
  rfl

theorem Hub.lp5Issue_of_allowed {h : Hub} {a : Lp5Acc} (hup : h.lp5Down = false) (ha : h.lp5Allowed a = true) :
    h.lp5Issue a = { h with lp5 := { h.lp5 with queue := h.lp5.queue ++ [a] } } := by
  rw [Hub.lp5Issue, h.lp5Verdict_of_up a hup, ha]
  rfl

/-- An access that fails its check is counted; its client, where it waits for one, has the answer. -/
theorem Hub.lp5Issue_of_not_allowed {h : Hub} {a : Lp5Acc} (hup : h.lp5Down = false) (ha : h.lp5Allowed a = false) :
    ∃ b o, h.lp5Issue a = { h.inc R.lp5Refused with bridge := b, out := o } := by
  rw [Hub.lp5Issue, h.lp5Verdict_of_up a hup, ha]
  simp only [Bool.false_eq_true, if_false, Nat.one_ne_zero, if_true]
  split
  · exact ⟨_, _, rfl⟩
  · split
    · exact ⟨_, _, rfl⟩
    · exact ⟨_, _, rfl⟩

theorem Hub.holds_ohmale (h : Hub) (t : Nat) : h.holds 7 t 2 = true := rfl

/-- Settles O32. -/
theorem memoryAccessIsCheckedAtIssue : Obligations.MemoryAccessIsCheckedAtIssue := by
  refine fun h a hup => ⟨fun ha => Hub.lp5Issue_of_allowed hup ha, fun ha => ?_, ?_, fun w => h.holds_ohmale _⟩
  · obtain ⟨b, o, hissue⟩ := Hub.lp5Issue_of_not_allowed hup ha
    rw [hissue]
    exact ⟨rfl, h.get_inc _, fun f hf => h.get_inc_ne _ f hf.symm⟩
  · rw [h.lp5Allowed_iff]
    simp only [h.winHas_iff, and_assoc]
    rfl

end Sys2Proof.Machine
end

section
/-!
PROOFS. Flips: the latch point of a head and writes to its pending addresses (R408 to R410).
-/

namespace Sys2Proof.Machine

open Sys2Proof

theorem Hub.setAll_append (h : Hub) (l l' : List (Fld × Nat)) : h.setAll (l ++ l') = (h.setAll l).setAll l' :=
  List.foldl_append

/-! The latch point of a head (R408). -/

/-- A head that is not armed latches nothing. -/
theorem Hub.latchFlip_of_not_armed {h : Hub} {n : Nat} (harm : h.get (R.flipArmBit n) = 0) : h.latchFlip n = h := by
  simp [Hub.latchFlip, Hub.flag, harm]

theorem Hub.flipError_lt (h : Hub) (n : Nat) : h.flipError n < 2 ^ (R.flipEcode n).width := by
  unfold Hub.flipError
  dsimp only
  repeat' split
  all_goals decide

/-- The fields of the current addresses. -/
def curFields (n : Nat) (l : List Nat) : List (Fld × Nat) :=
  [0, 1, 2].flatMap (fun p => [(R.flipPCurLo n p, l.getD p 0 / 256), (R.flipPCurHi n p, l.getD p 0 / 2 ^ 32)])

/-- What a latch point writes whose pending addresses pass. -/
def Hub.latchFields (h : Hub) (n : Nat) : List (Fld × Nat) :=
  curFields n (h.pendAddrs n) ++
    [(R.flipDoneId n, h.get (R.flipFlipId n)), (R.flipArmBit n, 0), (R.flipCnt n, h.get (R.flipCnt n) + 1)]

theorem Hub.latchFields_nodup (h : Hub) (n : Nat) : ((h.latchFields n).map (fun p => p.1.key)).Nodup := by
  simp [Hub.latchFields, curFields]

section
variable {h : Hub} {n : Nat} (harm : h.get (R.flipArmBit n) = 1)
include harm

theorem Hub.latchFlip_of_passing (hpass : h.flipError n = 0) : h.latchFlip n = h.setAll (h.latchFields n) := by
  have hcnt : (h.setAll (curFields n (h.pendAddrs n) ++
      [(R.flipDoneId n, h.get (R.flipFlipId n)), (R.flipArmBit n, 0)])).get (R.flipCnt n) = h.get (R.flipCnt n) :=
    h.get_setAll_ne _ _ (by simp [curFields])
  have hsplit : h.setAll (h.latchFields n) = (h.setAll (curFields n (h.pendAddrs n) ++
      [(R.flipDoneId n, h.get (R.flipFlipId n)), (R.flipArmBit n, 0)])).set (R.flipCnt n) (h.get (R.flipCnt n) + 1) := by
    simp only [Hub.setAll, Hub.latchFields, List.foldl_append, List.foldl_cons, List.foldl_nil]
  rw [hsplit, ← hcnt, Hub.setAll_append]
  simp only [Hub.latchFlip, Hub.flag, harm, hpass]
  rfl

theorem Hub.latchFlip_of_failing (hfail : h.flipError n ≠ 0) :
    h.latchFlip n = h.setAll [(R.flipArmBit n, 0), (R.flipErr n, 1), (R.flipEcode n, h.flipError n)] := by
  simp [Hub.latchFlip, Hub.flag, harm, hfail]

end

/-- An address that is cut into the two fields of a plane is put together again. -/
theorem Hub.curAddrs_latchFields (h : Hub) (n : Nat) : (h.setAll (h.latchFields n)).curAddrs n = h.pendAddrs n := by
  refine List.map_congr_left fun p hp => ?_
  have hplane : (h.pendAddrs n).getD p 0 = h.get (R.flipPHi n p) * 2 ^ 32 + h.get (R.flipPLo n p) * 256 := by
    simp only [List.mem_cons, List.not_mem_nil, or_false] at hp
    rcases hp with rfl | rfl | rfl <;> rfl
  have hlow : (R.flipPCurLo n p, (h.pendAddrs n).getD p 0 / 256) ∈ h.latchFields n :=
    List.mem_append_left _ (List.mem_flatMap.mpr ⟨p, hp, by simp⟩)
  have hhigh : (R.flipPCurHi n p, (h.pendAddrs n).getD p 0 / 2 ^ 32) ∈ h.latchFields n :=
    List.mem_append_left _ (List.mem_flatMap.mpr ⟨p, hp, by simp⟩)
  have hlo := h.get_lt (R.flipPLo n p)
  have hhi := h.get_lt (R.flipPHi n p)
  rw [h.get_setAll _ hlow (h.latchFields_nodup n), h.get_setAll _ hhigh (h.latchFields_nodup n), hplane]
  dsimp only at hlo hhi ⊢
  omega

theorem Hub.curAddrs_setAll_ne (h : Hub) {n : Nat} {l : List (Fld × Nat)}
    (hl : ∀ q ∈ l, ∀ p, q.1.key ≠ (R.flipPCurLo n p).key ∧ q.1.key ≠ (R.flipPCurHi n p).key) :
    (h.setAll l).curAddrs n = h.curAddrs n :=
  List.map_congr_left fun p _ => by
    rw [h.get_setAll_ne l _ fun q hq => (hl q hq p).1, h.get_setAll_ne l _ fun q hq => (hl q hq p).2]

/-! A write to a pending address (R410). -/

theorem Hub.writeFlip_low (h : Hub) (n w : Nat) {p : Nat} (hp : p < 3) :
    h.writeFlip n (8 * p) w = h.flipWrite (R.flipPLo n p) n (bits w 31 8) := by
  have hplane : 8 * p / 8 = p := by omega
  rw [Hub.writeFlip, if_neg (by omega), if_pos (by omega), hplane, if_pos (by omega)]

theorem Hub.writeFlip_high (h : Hub) (n w : Nat) {p : Nat} (hp : p < 3) :
    h.writeFlip n (8 * p + 4) w = h.flipWrite (R.flipPHi n p) n (bits w 7 0) := by
  have hplane : (8 * p + 4) / 8 = p := by omega
  rw [Hub.writeFlip, if_neg (by omega), if_pos (by omega), hplane, if_neg (by omega)]

theorem Hub.get_flipWrite (h : Hub) {f : Fld} (n v : Nat) (hf : f.key ≠ (R.flipArmBit n).key) :
    (h.flipWrite f n v).get f = v % 2 ^ f.width := by
  rw [Hub.flipWrite, Hub.get_set_ne _ _ _ _ hf.symm, Hub.get_set]

theorem Hub.get_flipArmBit_flipWrite (h : Hub) (f : Fld) (n v : Nat) : (h.flipWrite f n v).get (R.flipArmBit n) = 0 := by
  rw [Hub.flipWrite, Hub.get_set, Nat.zero_mod]

theorem Hub.get_flipWrite_ne (h : Hub) {f g : Fld} (n v : Nat) (harm : g.key ≠ (R.flipArmBit n).key) (hf : g.key ≠ f.key) :
    (h.flipWrite f n v).get g = h.get g := by
  rw [Hub.flipWrite, Hub.get_set_ne _ _ _ _ harm.symm, Hub.get_set_ne _ _ _ _ hf.symm]

/-- Settles O34. -/
theorem flipLatchesWholeOrNotAtAll : Obligations.FlipLatchesWholeOrNotAtAll := by
  refine fun h n => ⟨fun harm => Hub.latchFlip_of_not_armed harm, fun harm hpass => ?_, fun harm hfail => ?_,
    fun p w hp => ?_⟩
  · have hid := Nat.mod_eq_of_lt (h.get_lt (R.flipFlipId n))
    have hfield {f : Fld} {v : Nat} (hmem : (f, v) ∈ h.latchFields n) := h.get_setAll _ hmem (h.latchFields_nodup n)
    rw [Hub.latchFlip_of_passing harm hpass]
    refine ⟨h.curAddrs_latchFields n, (hfield (by simp [Hub.latchFields])).trans hid,
      hfield (v := 0) (by simp [Hub.latchFields]), hfield (by simp [Hub.latchFields]), fun f hf => ?_, h.setAll_frame _⟩
    refine h.get_setAll_ne _ f fun p hp heq => hf (heq ▸ ?_)
    simp only [Hub.latchFields, curFields, List.flatMap_cons, List.flatMap_nil, List.append_nil, List.cons_append,
      List.nil_append, List.mem_cons, List.not_mem_nil, or_false] at hp
    rcases hp with rfl | rfl | rfl | rfl | rfl | rfl | rfl | rfl | rfl <;> simp
  · rw [Hub.latchFlip_of_failing harm hfail]
    refine ⟨h.curAddrs_setAll_ne (by simp), Hub.get_setAll _ _ (v := 0) (by simp) (by simp),
      Hub.get_setAll _ _ (v := 1) (by simp) (by simp), ?_, fun f hf => ?_, h.setAll_frame _⟩
    · exact (Hub.get_setAll _ _ (by simp) (by simp)).trans (Nat.mod_eq_of_lt (h.flipError_lt n))
    · simp only [List.mem_cons, List.not_mem_nil, or_false, not_or] at hf
      obtain ⟨harmed, herr, hcode⟩ := hf
      exact Hub.get_setAll_ne _ _ _ (by simp [Ne.symm harmed, Ne.symm herr, Ne.symm hcode])
  · have hbits (hi lo : Nat) : bits w hi lo % 2 ^ (hi + 1 - lo) = bits w hi lo := Nat.mod_mod _ _
    rw [h.writeFlip_low n w hp, h.writeFlip_high n w hp]
    exact ⟨h.get_flipArmBit_flipWrite .., (h.get_flipWrite n _ (by simp)).trans (hbits 31 8),
      h.get_flipArmBit_flipWrite .., (h.get_flipWrite n _ (by simp)).trans (hbits 7 0),
      fun f harm => ⟨h.get_flipWrite_ne n _ harm, h.get_flipWrite_ne n _ harm⟩⟩

end Sys2Proof.Machine
end

section
/-!
PROOFS. LOOP of a DMA program (R450).
-/

namespace Sys2Proof.Machine

open Sys2Proof

theorem Hub.dmaX_set (h : Hub) (f : Fld) (v c : Nat) : (h.set f v).dmaX c = h.dmaX c := rfl

theorem Hub.dmaX_setAll (h : Hub) (l : List (Fld × Nat)) (c : Nat) : (h.setAll l).dmaX c = h.dmaX c := by
  have hdma := congrArg (fun x : Hub => x.dmaX c) (h.setAll_frame l)
  exact hdma

/-! Instructions of a DMA program. -/

theorem iw_zero (i : List Nat) : iw i 0 = i.headD 0 := by
  cases i <;> rfl

/-- A body without loops of its own is passed over as far as its ENDLOOP. -/
theorem loopEnd_of_flat {body : List (List Nat)} (hbody : ∀ x ∈ body, iOp x ≠ 2 ∧ iOp x ≠ 3) {e : List Nat} (he : iOp e = 3)
    (post : List (List Nat)) (k : Nat) : loopEnd (body ++ e :: post) k 0 = k + body.length := by
  induction body generalizing k with
  | nil => simp [loopEnd, he]
  | cons x body ih =>
    obtain ⟨hloop, hend⟩ := hbody x (List.mem_cons_self ..)
    have hrest := ih (fun y hy => hbody y (List.mem_cons_of_mem _ hy)) (k + 1)
    rw [List.cons_append, loopEnd]
    split
    · next h => exact absurd h hloop
    · next h => exact absurd h hend
    · rw [hrest, List.length_cons]
      omega

section
variable {h : Hub} {c : Nat} {pre body post : List (List Nat)} {i e : List Nat} (hruns : h.dmaRuns c = true)
  (hprog : (h.dmaX c).prog = pre ++ i :: body ++ e :: post) (hpc : h.get (R.dmaPc c) = pre.length) (hi : iOp i = 2)
include hruns hprog hpc hi

theorem Hub.dmaAt_loop : h.dmaAt c 2 = some i := by
  simp [Hub.dmaAt, hruns, hprog, hpc, hi]

/-- LOOP with N 0. -/
theorem Hub.dmaLoop_of_zero (he : iOp e = 3) (hbody : ∀ x ∈ body, iOp x ≠ 2 ∧ iOp x ≠ 3) (hn : bits (i.headD 0) 23 0 = 0) :
    h.dmaLoop c = h.set (R.dmaPc c) (pre.length + body.length + 2) := by
  have hdrop : (h.dmaX c).prog.drop (pre.length + 1) = body ++ e :: post := by
    simp [hprog]
  rw [Hub.dmaLoop, Hub.dmaAt_loop hruns hprog hpc hi]
  dsimp only
  rw [iw_zero, if_pos hn, hpc, hdrop, loopEnd_of_flat hbody he]
  congr 1
  omega

/-- LOOP with another N. -/
theorem Hub.dmaLoop_of_ne_zero (hn : bits (i.headD 0) 23 0 ≠ 0) :
    h.dmaLoop c = ((h.setAll [(fLoop c (h.get (R.dmaDepth c)), bits (i.headD 0) 23 0),
      (R.dmaDepth c, h.get (R.dmaDepth c) + 1)]).modDma c (fun x => { x with loops := x.loops ++ [pre.length + 1] })).dmaNext
        c := by
  rw [Hub.dmaLoop, Hub.dmaAt_loop hruns hprog hpc hi]
  dsimp only
  rw [iw_zero, if_neg hn, hpc]

end
/-- The counter of a depth is one of the channel's four. -/
theorem fLoop_spec (c : Nat) {d : Nat} : (fLoop c d).width = 24 ∧ (fLoop c d).key ≠ (R.dmaPc c).key ∧
    (fLoop c d).key ≠ (R.dmaDepth c).key := by
  unfold fLoop
  split <;> simp

/-- Settles O35. -/
theorem loopOfNoughtSkipsItsBody : Obligations.LoopOfNoughtSkipsItsBody := by
  intro h c pre body post i e hruns hprog hpc hi he hbody hshort
  have hlen : pre.length + body.length + 2 < 2 ^ 12 := by
    rw [hprog] at hshort
    simp only [List.length_append, List.length_cons] at hshort
    omega
  refine ⟨fun hn => ?_, fun hn hdepth => ?_⟩
  · rw [Hub.dmaLoop_of_zero hruns hprog hpc hi he hbody hn]
    exact ⟨(h.get_set _ _).trans (Nat.mod_eq_of_lt hlen), fun f hf => h.get_set_ne _ _ _ hf.symm, h.set_frame _ _⟩
  · obtain ⟨hwidth, hloopPc, hloopDepth⟩ := fLoop_spec c (d := h.get (R.dmaDepth c))
    have hcounter : bits (i.headD 0) 23 0 % 2 ^ (fLoop c (h.get (R.dmaDepth c))).width = bits (i.headD 0) 23 0 := by
      rw [hwidth]
      exact Nat.mod_mod _ _
    have hfits : (h.get (R.dmaDepth c) + 1) % 2 ^ 3 = h.get (R.dmaDepth c) + 1 := Nat.mod_eq_of_lt (by omega)
    rw [Hub.dmaLoop_of_ne_zero hruns hprog hpc hi hn, Hub.dmaNext, Hub.get_modDma]
    refine ⟨?_, ?_, ?_, fun f hfPc hfDepth hfLoop => ?_, ?_, fun c' hc' => ?_, ?_⟩
    · rw [Hub.get_set, h.get_setAll_ne _ _ (by simp [hloopPc]), hpc]
      exact Nat.mod_eq_of_lt (by simp only; omega)
    · rw [Hub.get_set_ne _ _ _ _ (by simp), Hub.get_modDma,
        h.get_setAll _ (v := h.get (R.dmaDepth c) + 1) (by simp) (by simp [hloopDepth])]
      exact hfits
    · rw [Hub.get_set_ne _ _ _ _ hloopPc.symm, Hub.get_modDma, h.get_setAll_last _ _ _ (by simp [hloopDepth.symm]),
        hcounter]
    · rw [Hub.get_set_ne _ _ _ _ hfPc.symm, Hub.get_modDma, h.get_setAll_ne _ _ (by simp [hfLoop.symm, hfDepth.symm])]
    · rw [Hub.dmaX_set, Hub.dmaX_modDma, if_pos rfl, h.dmaX_setAll]
    · rw [Hub.dmaX_set, Hub.dmaX_modDma, if_neg hc'.symm, h.dmaX_setAll]
    · have hframe := congrArg (fun x : Hub => { x with media := { x.media with dma := h.media.dma } })
        (h.setAll_frame [(fLoop c (h.get (R.dmaDepth c)), bits (i.headD 0) 23 0), (R.dmaDepth c, h.get (R.dmaDepth c) + 1)])
      exact hframe

end Sys2Proof.Machine
end

section
/-!
PROOFS. Over-current of a USB port (R466).
-/

namespace Sys2Proof.Machine

open Sys2Proof

/-! Over-current of a USB port (R466). -/

theorem Hub.usbPort_setAll (h : Hub) (l : List (Fld × Nat)) (p : Nat) : (h.setAll l).usbPort p = h.usbPort p := by
  have hport := congrArg (fun x : Hub => x.usbPort p) (h.setAll_frame l)
  exact hport

/-- What a port's end of service writes. -/
theorem Hub.setPort_of_lt (h : Hub) {p : Nat} (conn en susp : Bool) (hp : p < 16) : h.setPort p conn en susp =
    h.setAll [(R.usbPortConn p, b2n conn), (R.usbPortEn p, b2n en), (R.usbPortSusp p, b2n susp)] := by
  rw [Hub.setPort, if_neg (by omega)]

/-- The hub's wake is no part of a register nor of a port. -/
theorem Hub.get_hubWake (h : Hub) (f : Fld) : h.hubWake.get f = h.get f := by
  unfold Hub.hubWake
  split <;> rfl

theorem Hub.usbPort_hubWake (h : Hub) (p : Nat) : h.hubWake.usbPort p = h.usbPort p := by
  unfold Hub.hubWake
  split <;> rfl

theorem Hub.usbPort_modUsbPort_self (h : Hub) (p : Nat) (g : UsbPortX → UsbPortX) :
    (h.modUsbPort p g).usbPort p = g (h.usbPort p) :=
  (h.usbPort_modUsbPort p p g).trans (if_pos rfl)

/-- The registers of a port that a rise of over-current changes. -/
def Hub.overCurrentRegs (h : Hub) (p : Nat) : Hub :=
  let h := (h.set (R.usbPortOc p) 1).inc (R.usbPortOcCnt p)
  h.setAll [(R.usbPortConn p, b2n (h.portConn p)), (R.usbPortEn p, b2n false), (R.usbPortSusp p, b2n false)]

section
variable {h : Hub} {p : Nat}

/-- A rise: the port's registers, then its changes, then the hub's wake. -/
theorem Hub.portOc_of_rise (hp : p < 16) (hoc : h.stageOc p = true) (hlow : h.get (R.usbPortOc p) = 0) : h.portOc p =
    ((((h.overCurrentRegs p).modUsbPort p (fun x => { x with reset := false, resume := false })).portChange p 3).modUsbPort p
      (fun x => { x with change := clrBit x.change 4 })).hubWake := by
  have hrise : (h.stageOc p && !h.flag (R.usbPortOc p)) = true := by simp [hoc, Hub.flag, hlow]
  rw [Hub.portOc, if_pos hrise, Hub.portDisable, Hub.setPort_of_lt _ _ _ _ hp]
  rfl

theorem Hub.get_portOc_of_rise (hp : p < 16) (hoc : h.stageOc p = true) (hlow : h.get (R.usbPortOc p) = 0) (f : Fld) :
    (h.portOc p).get f = (h.overCurrentRegs p).get f := by
  rw [Hub.portOc_of_rise hp hoc hlow, Hub.get_hubWake]
  rfl

theorem Hub.usbPort_portOc_of_rise (hp : p < 16) (hoc : h.stageOc p = true) (hlow : h.get (R.usbPortOc p) = 0) :
    (h.portOc p).usbPort p =
      { h.usbPort p with reset := false, resume := false, change := clrBit (setBit (h.usbPort p).change 3) 4 } := by
  have hregs : (h.overCurrentRegs p).usbPort p = h.usbPort p := Hub.usbPort_setAll _ _ p
  rw [Hub.portOc_of_rise hp hoc hlow, Hub.usbPort_hubWake, Hub.usbPort_modUsbPort_self, Hub.portChange,
    Hub.usbPort_modUsbPort_self, Hub.usbPort_modUsbPort_self, hregs]

theorem Hub.portOc_of_no_rise (hno : h.stageOc p = false ∨ h.get (R.usbPortOc p) = 1) : h.portOc p = h := by
  have hrise : (h.stageOc p && !h.flag (R.usbPortOc p)) = false := by
    rcases hno with hoc | hhigh
    · simp [hoc]
    · simp [Hub.flag, hhigh]
  rw [Hub.portOc, hrise]
  rfl

end

/-- Settles O36. -/
theorem overCurrentDisablesThePort : Obligations.OverCurrentDisablesThePort := by
  refine fun h p hp => ⟨fun hoc hlow => ?_, fun hno => Hub.portOc_of_no_rise hno⟩
  have hregs := Hub.get_portOc_of_rise hp hoc hlow
  have hport := Hub.usbPort_portOc_of_rise hp hoc hlow
  refine ⟨?_, ?_, ?_, ?_, ?_, ?_, fun f hf => ?_⟩
  · rw [hregs, Hub.overCurrentRegs, Hub.get_setAll_ne _ _ _ (by simp), Hub.get_inc_ne _ _ _ (by simp), Hub.get_set]
    rfl
  · exact (hregs _).trans (Hub.get_setAll _ _ (v := b2n false) (by simp) (by simp))
  · rw [hregs, Hub.overCurrentRegs, Hub.get_setAll_ne _ _ _ (by simp), Hub.get_inc, h.get_set_ne _ _ _ (by simp)]
  · rw [hport, bit_eq_testBit, testBit_clrBit, testBit_setBit]
    rfl
  · rw [hport, bit_eq_testBit, testBit_clrBit]
    rfl
  · rw [hport]
  · have hother {g : Fld} (hg : g.key.i = p) : g.key ≠ f.key := fun heq => hf (by rw [← heq, hg])
    rw [hregs, Hub.overCurrentRegs, Hub.get_setAll_of_i _ _ f (by simp) hf, Hub.get_inc_ne _ _ _ (hother rfl),
      h.get_set_ne _ _ _ (hother rfl)]

end Sys2Proof.Machine
end

section
/-!
PROOFS. Trips of a stage (Table 17-4, R529).
-/

namespace Sys2Proof.Machine

open Sys2Proof

/-! A stage goes down: PG and gate low, its state, the start budget (Table 17-4). -/

/-- A one-bit field that is not 1 is 0. -/
theorem Hub.get_eq_zero_of_flag {h : Hub} {f : Fld} (hf : f.width = 1) (hflag : h.flag f = false) : h.get f = 0 := by
  refine Decidable.byContradiction fun hne => ?_
  exact absurd ((h.flag_eq_true_iff_ne_zero hf).mpr hne) (by simp [hflag])

section
variable (h : Hub) (n : Nat)

theorem Hub.get_stgPg_stagePg : (h.stagePg n false).get (R.stgPg n) = 0 := by
  unfold Hub.stagePg
  split
  · next hlow => exact Hub.get_eq_zero_of_flag rfl hlow
  · exact (Hub.get_emit ..).trans (h.get_set (R.stgPg n) (b2n false))

theorem Hub.get_stagePg_ne {f : Fld} (hf : f.key ≠ (R.stgPg n).key) : (h.stagePg n false).get f = h.get f := by
  unfold Hub.stagePg
  split
  · rfl
  · exact (Hub.get_emit ..).trans (h.get_set_ne _ _ _ hf.symm)

theorem Hub.get_stgGateEn_stageGate : (h.stageGate n false).get (R.stgGateEn n) = 0 := by
  unfold Hub.stageGate
  split
  · next hlow => exact Hub.get_eq_zero_of_flag rfl hlow
  · exact (Hub.get_emit ..).trans (h.get_set (R.stgGateEn n) (b2n false))

theorem Hub.get_stageGate_ne {f : Fld} (hf : f.key ≠ (R.stgGateEn n).key) : (h.stageGate n false).get f = h.get f := by
  unfold Hub.stageGate
  split
  · rfl
  · exact (Hub.get_emit ..).trans (h.get_set_ne _ _ _ hf.symm)

theorem Hub.get_settleBudget_ne {f : Fld} (hf : f.key ∉ [R.pwrNinr.key, R.pwrPinr.key, R.pwrNwait.key]) :
    h.settleBudget.get f = h.get f := by
  simp only [List.mem_cons, List.not_mem_nil, or_false, not_or] at hf
  obtain ⟨hnum, hpower, hwait⟩ := hf
  exact h.get_setAll_ne _ f (by simp [Ne.symm hnum, Ne.symm hpower, Ne.symm hwait])

theorem Hub.get_stageDsch (on : Bool) (f : Fld) : (h.stageDsch n on).get f = h.get f := by
  unfold Hub.stageDsch
  split <;> rfl

variable (s : Nat)

/-- The registers of a stage that goes down. -/
def Hub.downRegs : Hub :=
  (((h.stagePg n false).stageGate n false).setAll [(R.stgSstate n, s), (R.stgGateOk n, 0)]).settleBudget

theorem Hub.get_stageDown (f : Fld) : (h.stageDown n s).get f = (h.downRegs n s).get f := by
  unfold Hub.stageDown
  dsimp only
  split
  · exact Hub.get_stageDsch _ n true f
  · rfl

theorem Hub.stageState_stageDown (hs : s < 8) : (h.stageDown n s).stageState n = s := by
  rw [Hub.stageState, h.get_stageDown, Hub.downRegs, Hub.get_settleBudget_ne _ (by simp),
    Hub.get_setAll_last _ _ _ _ (by simp)]
  exact Nat.mod_eq_of_lt hs

theorem Hub.get_stgGateEn_stageDown : (h.stageDown n s).get (R.stgGateEn n) = 0 := by
  rw [h.get_stageDown, Hub.downRegs, Hub.get_settleBudget_ne _ (by simp), Hub.get_setAll_ne _ _ _ (by simp),
    Hub.get_stgGateEn_stageGate]

theorem Hub.get_stgPg_stageDown : (h.stageDown n s).get (R.stgPg n) = 0 := by
  rw [h.get_stageDown, Hub.downRegs, Hub.get_settleBudget_ne _ (by simp), Hub.get_setAll_ne _ _ _ (by simp),
    Hub.get_stageGate_ne _ _ (by simp), Hub.get_stgPg_stagePg]

theorem Hub.get_stageDown_ne {f : Fld} (hf : f.key ∉ [(R.stgSstate n).key, (R.stgGateOk n).key, (R.stgGateEn n).key,
      (R.stgPg n).key, R.pwrNinr.key, R.pwrPinr.key, R.pwrNwait.key]) : (h.stageDown n s).get f = h.get f := by
  simp only [List.mem_cons, List.not_mem_nil, or_false, not_or] at hf
  obtain ⟨hstate, hgateOk, hgate, hpg, hbudget⟩ := hf
  rw [h.get_stageDown, Hub.downRegs, Hub.get_settleBudget_ne _ (by simpa using hbudget),
    Hub.get_setAll_ne _ _ _ (by simp [Ne.symm hstate, Ne.symm hgateOk]), Hub.get_stageGate_ne _ _ hgate,
    Hub.get_stagePg_ne _ _ hpg]

end

/-- Of the hub, what an operation on stage `n` may change: registers, the collector, the power section but for the other
stages, and what is driven. -/
structure Hub.StageOnly (n : Nat) (h h' : Hub) : Prop where
  frame : { h' with regs := h.regs, col := h.col, power := h.power, out := h.out } = h
  stage : ∀ k, k ≠ n → h'.stage k = h.stage k

section
variable {n : Nat} {h h' h'' : Hub}

theorem Hub.StageOnly.rfl : Hub.StageOnly n h h := ⟨Eq.refl _, fun _ _ => Eq.refl _⟩

theorem Hub.StageOnly.trans (hfirst : Hub.StageOnly n h h') (hthen : Hub.StageOnly n h' h'') : Hub.StageOnly n h h'' where
  frame := by
    have hinner := congrArg (fun x : Hub => { x with regs := h.regs, col := h.col, power := h.power, out := h.out })
      hthen.frame
    exact hinner.trans hfirst.frame
  stage k hk := (hthen.stage k hk).trans (hfirst.stage k hk)

theorem Hub.StageOnly.set (f : Fld) (v : Nat) : Hub.StageOnly n h (h.set f v) := ⟨Eq.refl _, fun _ _ => Eq.refl _⟩

theorem Hub.StageOnly.raise (i detail : Nat) : Hub.StageOnly n h (h.raise i detail) := ⟨Eq.refl _, fun _ _ => Eq.refl _⟩

theorem Hub.StageOnly.emit (o : Out) : Hub.StageOnly n h (h.emit o) := ⟨Eq.refl _, fun _ _ => Eq.refl _⟩

theorem Hub.StageOnly.setAll (l : List (Fld × Nat)) : Hub.StageOnly n h (h.setAll l) := by
  induction l generalizing h with
  | nil => exact .rfl
  | cons p l ih => exact (Hub.StageOnly.set p.1 p.2).trans ih

theorem Hub.StageOnly.stagePg : Hub.StageOnly n h (h.stagePg n false) := by
  unfold Hub.stagePg
  split
  · exact .rfl
  · exact (StageOnly.set ..).trans (.emit _)

theorem Hub.StageOnly.stageGate : Hub.StageOnly n h (h.stageGate n false) := by
  unfold Hub.stageGate
  split
  · exact .rfl
  · exact (StageOnly.set ..).trans (.emit _)

theorem Hub.StageOnly.modStage (g : StageX → StageX) : Hub.StageOnly n h (h.modStage n g) where
  frame := Eq.refl _
  stage k hk := (h.stage_modStage n k g).trans (if_neg hk.symm)

theorem Hub.StageOnly.stageDsch (on : Bool) : Hub.StageOnly n h (h.stageDsch n on) := by
  unfold Hub.stageDsch
  split
  · exact .rfl
  · exact (StageOnly.modStage _).trans (.emit _)

theorem Hub.StageOnly.stageDown (s : Nat) : Hub.StageOnly n h (h.stageDown n s) := by
  have hdown : Hub.StageOnly n h (h.downRegs n s) :=
    ((StageOnly.stagePg.trans .stageGate).trans (.setAll _)).trans (.setAll _)
  unfold Hub.stageDown
  dsimp only
  split
  · exact hdown.trans (.stageDsch true)
  · exact hdown

end

/-! A trip. -/

/-- The causes of a trip are recorded, and the trip counts and is reported. -/
def Hub.tripRecorded (h : Hub) (n : Nat) (l : List Nat) : Hub :=
  let h := h.set (R.stgCause n) (l.foldl setBit (h.get (R.stgCause n)))
  (h.inc (R.stgTrips n)).raise (srcStage n) (h.get (R.stgCause n))

section
variable (h : Hub) (n : Nat) (l : List Nat)

theorem Hub.get_tripRecorded_ne {f : Fld} (hcause : f.key ≠ (R.stgCause n).key) (htrips : f.key ≠ (R.stgTrips n).key) :
    (h.tripRecorded n l).get f = h.get f :=
  (Hub.get_inc_ne _ _ f htrips.symm).trans (h.get_set_ne _ _ _ hcause.symm)

theorem testBit_foldl_setBit (w k : Nat) : (l.foldl setBit w).testBit k = (decide (k ∈ l) || w.testBit k) := by
  induction l generalizing w with
  | nil => simp
  | cons b l ih =>
    rw [List.foldl_cons, ih, testBit_setBit]
    by_cases hk : k = b
    · simp [hk]
    · simp [hk]

theorem Hub.bit_stgCause_tripRecorded (hl : ∀ c ∈ l, c < (R.stgCause n).width) {c : Nat} (hc : c ∈ l) :
    bit ((h.tripRecorded n l).get (R.stgCause n)) c = true := by
  have hcause : (h.tripRecorded n l).get (R.stgCause n) = l.foldl setBit (h.get (R.stgCause n)) % 2 ^ (R.stgCause n).width :=
    (Hub.get_inc_ne _ _ _ (by simp)).trans (h.get_set _ _)
  rw [bit_eq_testBit, hcause, Nat.testBit_mod_two_pow, decide_eq_true (hl c hc), testBit_foldl_setBit, decide_eq_true hc]
  rfl

theorem Hub.StageOnly.tripRecorded : Hub.StageOnly n h (h.tripRecorded n l) :=
  ((StageOnly.set ..).trans (.set ..)).trans (.raise ..)

variable {h n}

theorem Hub.stageTrip_of_idle (hst : h.stageState n ≠ sgInrush ∧ h.stageState n ≠ sgOn ∧ h.stageState n ≠ sgSink) :
    h.stageTrip n l = h := by
  rw [Hub.stageTrip, if_pos hst]

theorem Hub.stageTrip_of_sink (hst : h.stageState n = sgSink) :
    h.stageTrip n l = (h.tripRecorded n l).stageDown n sgOff := by
  rw [Hub.stageTrip, if_neg (by simp [hst]), if_pos hst]
  rfl

/-- TRIES after a trip from INRUSH or ON. -/
def Hub.triesAfter (h : Hub) (n : Nat) : Nat := min 15 (h.get (R.stgTries n) + 1)

/-- The state after a trip from INRUSH or ON. -/
def Hub.stateAfterTrip (h : Hub) (n : Nat) : Nat :=
  if h.get (R.stgRetryMax n) < h.triesAfter n ∧ h.get (R.stgRetryMax n) ≠ 15 then sgLatched else sgRetry

theorem Hub.stateAfterTrip_lt (h : Hub) (n : Nat) : h.stateAfterTrip n < 8 := by
  unfold Hub.stateAfterTrip
  split <;> decide

theorem Hub.stageTrip_of_driving (hst : h.stageState n = sgInrush ∨ h.stageState n = sgOn) : h.stageTrip n l =
    ((h.tripRecorded n l).set (R.stgTries n) (h.triesAfter n)).stageDown n (h.stateAfterTrip n) := by
  have htries : (h.tripRecorded n l).get (R.stgTries n) = h.get (R.stgTries n) := h.get_tripRecorded_ne n l (by simp) (by simp)
  have hmax : (h.tripRecorded n l).get (R.stgRetryMax n) = h.get (R.stgRetryMax n) :=
    h.get_tripRecorded_ne n l (by simp) (by simp)
  have hsink : h.stageState n ≠ sgSink := by
    rcases hst with hst | hst <;> rw [hst] <;> decide
  rw [Hub.stateAfterTrip, Hub.triesAfter, ← htries, ← hmax, Hub.stageTrip, if_neg (fun hidle => hst.elim hidle.1 hidle.2.1), if_neg hsink]
  rfl

end

theorem Hub.StageOnly.stageTrip (h : Hub) (n : Nat) (l : List Nat) : Hub.StageOnly n h (h.stageTrip n l) := by
  by_cases hdriving : h.stageState n = sgInrush ∨ h.stageState n = sgOn
  · rw [Hub.stageTrip_of_driving l hdriving]
    exact ((StageOnly.tripRecorded h n l).trans (.set ..)).trans (.stageDown _)
  · by_cases hsink : h.stageState n = sgSink
    · rw [Hub.stageTrip_of_sink l hsink]
      exact (StageOnly.tripRecorded h n l).trans (.stageDown _)
    · rw [Hub.stageTrip_of_idle l ⟨fun h => hdriving (.inl h), fun h => hdriving (.inr h), hsink⟩]
      exact .rfl

/-- Settles O38. -/
theorem tripMovesTheStageAsItsTableSays : Obligations.TripMovesTheStageAsItsTableSays := by
  refine fun h n l _ hl => ⟨fun hdriving => ?_, fun hsink => ?_, (Hub.StageOnly.stageTrip h n l).stage,
    (Hub.StageOnly.stageTrip h n l).frame, fun hinrush hon hsink => Hub.stageTrip_of_idle l ⟨hinrush, hon, hsink⟩⟩
  · rw [Hub.stageTrip_of_driving l hdriving]
    refine ⟨?_, Hub.stageState_stageDown _ n _ (h.stateAfterTrip_lt n), Hub.get_stgGateEn_stageDown .., Hub.get_stgPg_stageDown ..,
      fun c hc => ?_, fun f hf => ?_⟩
    · rw [Hub.get_stageDown_ne _ _ _ (by simp), Hub.get_set]
      exact Nat.mod_eq_of_lt (Nat.lt_of_le_of_lt (Nat.min_le_left ..) (show 15 < 2 ^ 4 by decide))
    · rw [Hub.get_stageDown_ne _ _ _ (by simp), Hub.get_set_ne _ _ _ _ (by simp)]
      exact h.bit_stgCause_tripRecorded n l hl hc
    · simp only [List.mem_cons, List.not_mem_nil, or_false, not_or] at hf
      obtain ⟨hcause, htrips, htries, hdown⟩ := hf
      rw [Hub.get_stageDown_ne _ _ _ (by simpa using hdown), Hub.get_set_ne _ _ _ _ (Ne.symm htries),
        h.get_tripRecorded_ne n l hcause htrips]
  · rw [Hub.stageTrip_of_sink l hsink]
    refine ⟨?_, Hub.stageState_stageDown _ n _ (by decide), Hub.get_stgGateEn_stageDown .., fun c hc => ?_⟩
    · rw [Hub.get_stageDown_ne _ _ _ (by simp), h.get_tripRecorded_ne n l (by simp) (by simp)]
    · rw [Hub.get_stageDown_ne _ _ _ (by simp)]
      exact h.bit_stgCause_tripRecorded n l hl hc

end Sys2Proof.Machine
end

section
/-!
PROOFS. The state right after reset.
-/

namespace Sys2Proof.Machine

open Sys2Proof

/-! Right after reset. -/

/-- A field whose key the state after reset does not list. -/
theorem State.get_reset {f : Fld} (hf : ∀ t, 6 ≤ t → t ≤ 9 → f.key ≠ (R.ttAltEgr t).key) :
    State.reset.hub.get f = f.reset % 2 ^ f.width := by
  have h6 := hf 6 (by decide) (by decide)
  have h7 := hf 7 (by decide) (by decide)
  have h8 := hf 8 (by decide) (by decide)
  have h9 := hf 9 (by decide) (by decide)
  rw [Hub.get, State.reset, tabGet, tabFind, if_neg (Ne.symm h6), tabFind, if_neg (Ne.symm h7), tabFind,
    if_neg (Ne.symm h8), tabFind, if_neg (Ne.symm h9), tabFind]
  rfl

theorem State.get_reset_of_id {f : Fld} (hf : f.key.id ≠ (R.ttAltEgr 0).key.id) :
    State.reset.hub.get f = f.reset % 2 ^ f.width :=
  State.get_reset fun _ _ _ heq => hf (by rw [heq])

/-- Settles O7. -/
theorem resetHoldsTheTablesValues : Obligations.ResetHoldsTheTablesValues := by
  have hlink (n : Nat) : State.reset.hub.get (R.linkKint n) = 12 ∧ State.reset.hub.get (R.linkCtl n) = 4 ∧
      State.reset.hub.get (R.linkIso n) = 24 ∧ State.reset.hub.get (R.linkRtx n) = 40 ∧
      State.reset.hub.get (R.linkBlk n) = 12 ∧ State.reset.hub.get (R.laneFomTgt n) = 0xA0 ∧
      State.reset.hub.get (R.laneFomMin n) = 0x40 ∧ State.reset.hub.get (R.laneFomFail n) = 0x28 ∧
      State.reset.hub.get (R.laneMinw n) = 3 :=
    ⟨State.get_reset_of_id (by simp), State.get_reset_of_id (by simp), State.get_reset_of_id (by simp),
      State.get_reset_of_id (by simp), State.get_reset_of_id (by simp), State.get_reset_of_id (by simp),
      State.get_reset_of_id (by simp), State.get_reset_of_id (by simp), State.get_reset_of_id (by simp)⟩
  have htunnel (t : Nat) : State.reset.hub.get (R.ttState t) = 0 ∧ State.reset.hub.get (R.ttGen t) = 0 :=
    ⟨State.get_reset_of_id (by simp), State.get_reset_of_id (by simp)⟩
  have hmailbox (m : Nat) : State.reset.hub.get (R.mbxState m) = 0 ∧ State.reset.hub.get (R.mbxFail m) = 0xFFFF :=
    ⟨State.get_reset_of_id (by simp), State.get_reset_of_id (by simp)⟩
  exact ⟨rfl, rfl, rfl, rfl, fun f hf => State.get_reset hf, rfl, rfl, rfl, rfl, rfl, rfl, hlink, htunnel, rfl, rfl, rfl, rfl,
    rfl, rfl, hmailbox⟩

end Sys2Proof.Machine
end

section
/-!
PROOFS. How a command completes: its operation under the condition of its event.
-/

namespace Sys2Proof.Machine

open Sys2Proof

/-- What `act` makes of a state depends only on what the operation makes of this state's hub. -/
theorem State.act_congr {s : State} {f g : Hub → Hub} (h : f s.hub = g s.hub) : s.act f = s.act g := by
  unfold State.act; rw [h]

theorem State.actAll_congr {s : State} {f g : State → State} (h : f s = g s) : s.actAll f = s.actAll g := by
  unfold State.actAll; rw [h]

/-- A command completes with the effect `g` when its operation makes of the hub what `g` makes of it. -/
theorem next_act_congr {s : State} {f g : Hub → Hub} (h : f s.hub = g s.hub) :
    (.next (s.act f) : Host.Outcome State Fault Refusal) = .next (s.act g) :=
  congrArg _ (State.act_congr h)

theorem next_actAll_congr {s : State} {f g : State → State} (h : f s = g s) :
    (.next (s.actAll f) : Host.Outcome State Fault Refusal) = .next (s.actAll g) :=
  congrArg _ (State.actAll_congr h)

theorem Hub.when_of_true {h : Hub} {c : Bool} {f : Hub → Hub} (hc : c = true) : h.when c f = f h := if_pos hc

theorem Hub.when_of_false {h : Hub} {c : Bool} {f : Hub → Hub} (hc : c = false) : h.when c f = h := by
  rw [hc]; rfl

/-- A command whose operation stands under the condition of its event completes with this operation while the condition
holds. -/
theorem next_act_when {s : State} {c : Hub → Bool} {f : Hub → Hub} (hc : c s.hub = true) :
    (.next (s.act fun h => h.when (c h) f) : Host.Outcome State Fault Refusal) = .next (s.act f) :=
  next_act_congr (Hub.when_of_true hc)

end Sys2Proof.Machine
end

section
/-!
PROOFS. Completion of the commands of start-up, the tick sequence, links and strikes.
-/

namespace Sys2Proof.Machine

open Sys2Proof

theorem exec_warmReset {s : State} {cause : Nat} (h : s.hub.ctl.resetDue = some cause) :
    exec .warmReset s = .next (s.act fun h => h.warmBegin cause) := by
  show execWarmReset s = _
  simp only [execWarmReset, h]

/-- Settles O39: the supply watch and a due warm reset stand under their condition, the rest is unconditional. -/
theorem startupResetAndFaultLineCommandsComplete : Obligations.StartupResetAndFaultLineCommandsComplete :=
  ⟨fun _ _ _ _ _ => rfl, fun _ _ _ => rfl, fun _ _ _ _ _ => rfl,
    fun _ _ _ _ _ watched => congrArg Host.Outcome.next (if_pos watched),
    fun _ => rfl, fun _ => rfl, fun _ _ due => exec_warmReset due, fun _ _ _ => rfl, fun _ _ => rfl, fun _ => rfl,
    fun _ => rfl, fun _ _ _ _ _ _ => rfl, fun _ _ _ _ _ _ => rfl, fun _ _ _ _ _ => rfl, fun _ _ => rfl⟩

theorem exec_twiopCommandService {s : State} (done : Bool) (hslot : s.hub.tick.slotEnded = false)
    (hon : s.hub.domainsOn = true) :
    exec (.twiopCommandService done) s =
      .next (({ s with hub := { s.hub with tick := { s.hub.tick with task := 11 } } } : State).serveFirst done) :=
  if_neg (by simp [hslot, hon])

/-- Settles O40: time frames under the member's number, the command service in its slot. -/
theorem tickAndTimeCommandsComplete : Obligations.TickAndTimeCommandsComplete :=
  ⟨fun _ => rfl, fun _ => rfl, fun _ => rfl, fun _ => rfl, fun _ => rfl, fun _ => rfl, fun _ => rfl, fun _ => rfl,
    fun _ _ _ _ => rfl, fun _ => rfl, fun _ => rfl, fun _ => rfl, fun _ => rfl,
    fun _ _ _ hm => next_act_when (by simp [hm]), fun _ _ _ hm => next_act_when (by simp [hm]),
    fun done _ => exec_twiopCommandService done⟩

/-- A control block that answers a link unit or accounts for credits or time goes to the operation of its type. -/
theorem Hub.ctrlArrives_ctrl {h : Hub} {c w : Nat} (hf : h.linkFlows c = true)
    (ht : [btLuEnd, btAck, btCredit, btCsync, btProbe].contains (w % 256) = true) :
    h.ctrlArrives c w =
      if w % 256 = btLuEnd then h.luEnds c w
      else if w % 256 = btAck then h.ackArrives c w
      else if w % 256 = btCredit then h.creditArrives c w
      else if w % 256 = btCsync then h.csyncArrives c w
      else h.probeArrives c w := by
  rw [Hub.ctrlArrives, Hub.streamArrives_one h c _ hf, Hub.blockArrives_ctrl h c 0 w ht]

theorem Hub.ctrlArrives_ack {h : Hub} {c w : Nat} (hf : h.linkFlows c = true) (ht : w % 256 = btAck) :
    h.ctrlArrives c w = h.ackArrives c w := by
  rw [Hub.ctrlArrives_ctrl hf] <;> simp [ht, btLuEnd, btAck]

theorem Hub.ctrlArrives_credit {h : Hub} {c w : Nat} (hf : h.linkFlows c = true) (ht : w % 256 = btCredit) :
    h.ctrlArrives c w = h.creditArrives c w := by
  rw [Hub.ctrlArrives_ctrl hf] <;> simp [ht, btLuEnd, btAck, btCredit]

theorem Hub.ctrlArrives_csync {h : Hub} {c w : Nat} (hf : h.linkFlows c = true) (ht : w % 256 = btCsync) :
    h.ctrlArrives c w = h.csyncArrives c w := by
  rw [Hub.ctrlArrives_ctrl hf] <;> simp [ht, btLuEnd, btAck, btCredit, btCsync]

theorem Hub.ctrlArrives_probe {h : Hub} {c w : Nat} (hf : h.linkFlows c = true) (ht : w % 256 = btProbe) :
    h.ctrlArrives c w = h.probeArrives c w := by
  rw [Hub.ctrlArrives_ctrl hf] <;> simp [ht, btLuEnd, btAck, btCredit, btCsync, btProbe]

/-- A link unit without blocks is its LU_END alone. -/
theorem Hub.streamArrives_luEnd {h : Hub} {c : Nat} (hf : h.linkFlows c = true) (ccls seq cnt crc l : Nat) (fs : Bool) :
    h.streamArrives c ([] ++ luEndBlock ccls seq fs cnt crc (some (l, hdrCtrl))) =
      h.luEnds c (luEndWord { ccls := ccls, seq := seq, fs := fs, cnt := cnt, crc := crc, blocks := [] }) := by
  have one : [] ++ luEndBlock ccls seq fs cnt crc (some (l, hdrCtrl)) =
      [{ lane := l, hdr := hdrCtrl
         w := luEndWord { ccls := ccls, seq := seq, fs := fs, cnt := cnt, crc := crc, blocks := [] } }] := rfl
  rw [one, Hub.streamArrives_one h c _ hf, Hub.blockArrives_ctrl h c l _ (by simp)]
  simp

/-- Signal on a trunk wakes nothing while the domains are on. -/
theorem Hub.signalWake_of_domainsOn {h : Hub} {c : Nat} (hon : h.domainsOn = true) : h.signalWake c = h :=
  Hub.when_of_false (by simp [hon])

theorem Hub.signalWake_of_domainsOff {h : Hub} {c : Nat} (ht : isTrunk c = true) (hoff : h.domainsOn = false) :
    h.signalWake c = h.wake 0 (2 ^ (15 + c)) false :=
  Hub.when_of_true (by simp [ht, hoff])

/-- Settles O41: a control block goes to the operation of its type, every other command stands under its event's condition. -/
theorem linkTrainingAndUnitCommandsComplete : Obligations.LinkTrainingAndUnitCommandsComplete := by
  refine ⟨?signalTrains, ?signalWakes, fun _ _ _ _ => rfl, ?_, ?_, fun _ _ => rfl, fun _ _ => rfl,
    fun _ _ _ _ _ _ _ _ _ => rfl,
    fun _ ccls seq fs cnt crc l _ hf => next_act_congr (Hub.streamArrives_luEnd hf ccls seq cnt crc l fs),
    fun _ _ _ _ hf => next_act_congr (Hub.ctrlArrives_ack hf (ackBlock_type ..)),
    fun _ _ _ _ _ hf => next_act_congr (Hub.ctrlArrives_ack hf (ackBlock_type ..)),
    fun _ _ _ _ _ _ hf => next_act_congr (Hub.ctrlArrives_credit hf (creditBlock_type ..)),
    fun _ _ _ _ hf => next_act_congr (Hub.ctrlArrives_csync hf (csyncBlock_type ..)),
    fun _ _ _ _ hf => next_act_congr (Hub.ctrlArrives_probe hf (probeBlock_type ..)), ?_, ?_, ?_, ?_, ?_, ?_, ?_, ?_⟩
  case signalTrains =>
    intro c s ht hon hpow hst hen hbar hrep
    refine next_act_congr ?_
    rw [Hub.signalWake_of_domainsOn hon]
    exact Hub.when_of_true (by simp [ht, hpow, hst, hen, hbar, hrep])
  case signalWakes =>
    intro c s ht hoff
    exact next_act_congr (congrArg (fun h => Hub.signalTrain h c) (Hub.signalWake_of_domainsOff ht hoff))
  all_goals intros; exact next_act_when (by simp [*])

/-- Settles O42: every conditional command stands under its event's condition. -/
theorem linkSendingAttachAndLaneCommandsComplete : Obligations.LinkSendingAttachAndLaneCommandsComplete := by
  refine ⟨?_, ?_, ?_, ?_, ?_, fun _ _ _ _ => rfl, ?_, ?_, ?_, ?_, ?_, ?_, ?_, ?_⟩ <;> intros <;>
    exact next_act_when (by simp [*])

theorem Hub.isLink_of_strikeUp {h : Hub} {c : Nat} (hup : h.strikeUp c = true) : isLink c = true := by
  cases ht : isTrunk c <;> simp_all [isLink, Hub.strikeUp]

/-- A strike row is sent on a link that carries strikes and has one waiting: the head of the queue, or first the end of
electrical idle. -/
theorem Hub.sendStrike_of_waiting {h : Hub} {c : Nat} (hup : h.strikeUp c = true) (hq : (h.stk c).queue.isEmpty = false) :
    h.when (isLink c) (fun h => h.sendStrike c) = if h.flag (fEidleTx c) then h.idleExit c else h.strikeHead c := by
  rw [Hub.when_of_true (Hub.isLink_of_strikeUp hup)]
  exact if_neg (by simp [hup, hq])

/-- Settles O43: a strike row waits in a queue, every other command stands under its event's condition. -/
theorem strikeAndFailoverCommandsComplete : Obligations.StrikeAndFailoverCommandsComplete := by
  refine ⟨?_, ?_,
    fun _ _ hup hq hidle => next_act_congr ((Hub.sendStrike_of_waiting hup hq).trans (if_neg (by simp [hidle]))),
    fun _ _ hup hq hidle => next_act_congr ((Hub.sendStrike_of_waiting hup hq).trans (if_pos hidle)),
    ?_, ?_, ?_, ?_, ?_, ?_, ?_, ?_, fun _ => rfl, ?_⟩ <;> intros <;> exact next_act_when (by simp [*])

end Sys2Proof.Machine
end

section
/-!
PROOFS. Completion of the commands of frames, line ports, the bridge, display, memory and DMA.
-/

namespace Sys2Proof.Machine

open Sys2Proof

/-- Settles O44: every conditional command stands under its event's condition. -/
theorem hearthCommandsComplete : Obligations.HearthCommandsComplete := by
  refine ⟨?_, ?_, ?_, fun _ => rfl, fun _ _ _ => rfl, ?_, fun _ _ _ => rfl, ?_, ?_, ?_, ?_, fun _ _ => rfl, fun _ _ => rfl,
    fun _ _ => rfl, ?_⟩ <;> intros <;> exact next_act_when (by simp [*])

/-- A node-bus packet that stands first in its line port's queue is taken from it and handed to its own operation. -/
theorem Hub.takeNode_of_nodeOp {h : Hub} {n op : Nat} {f : Frame} {y : NbHead} (hop : h.nodeOp n op f = true)
    (hy : f.nb = some y) (g : Hub → NbHead → Hub) : h.takeNode n op f g = g (h.nodeTaken n f) y := by
  simp only [Hub.takeNode, hy, hop, if_true]

theorem State.takeNodeRead_of_nodeOp {s : State} {n : Nat} {f : Frame} {y : NbHead} (hop : s.hub.nodeOp n 1 f = true)
    (hy : f.nb = some y) (inTime : Bool) :
    s.takeNodeRead n f inTime = ({ s with hub := s.hub.nodeTaken n f } : State).nodeRead n f y inTime := by
  simp only [State.takeNodeRead, hy, hop, if_true]

/-- A response, with or without a fault, is taken from its line port's queue. -/
theorem Hub.takeResponse {h : Hub} {n : Nat} {f : Frame} {y : NbHead}
    (hop : h.nodeOp n 4 f = true ∨ h.nodeOp n 5 f = true) (hy : f.nb = some y) :
    (if h.nodeOp n 4 f then h.takeNode n 4 f else h.takeNode n 5 f) (fun h _ => h.nodeResponse n f) =
      (h.nodeTaken n f).nodeResponse n f := by
  split
  case isTrue h4 => rw [Hub.takeNode_of_nodeOp h4 hy]
  case isFalse h4 => rw [Hub.takeNode_of_nodeOp (hop.resolve_left h4) hy]

/-- The bridge takes a fitting frame that stands first of its kind in its queue. -/
theorem Hub.bridgeTake_of_find {h : Hub} {p : Nat × Frame → Bool} {q : Frame → Bool} {x : Nat × Frame}
    (hx : h.bridge.inbox.find? p = some x) (hq : q x.2 = true) (g : Hub → Frame → Hub) :
    h.bridgeTake p q g = g { h with bridge := { h.bridge with inbox := h.bridge.inbox.erase x } } x.2 := by
  simp only [Hub.bridgeTake, hx, hq, if_true]

/-- Settles O45: what stands first in its queue is taken from it, every other command stands under its event's condition. -/
theorem linePortAndBridgeCommandsComplete : Obligations.LinePortAndBridgeCommandsComplete := by
  refine ⟨?_, ?_, ?_, ?_, ?_, ?_, ?_,
    fun _ _ inTime _ _ hop hy => next_actAll_congr (State.takeNodeRead_of_nodeOp hop hy inTime),
    fun _ _ _ _ hop hy => next_act_congr (Hub.takeNode_of_nodeOp hop hy _),
    fun _ _ _ _ hop hy => next_act_congr (Hub.takeNode_of_nodeOp hop hy _),
    fun _ _ _ _ hop hy => next_act_congr (Hub.takeResponse (.inl hop) hy),
    fun _ _ _ _ hop hy => next_act_congr (Hub.takeResponse (.inr hop) hy), ?_,
    fun _ _ _ hx hrd => next_act_congr (Hub.bridgeTake_of_find hx (by simp [hrd]) _),
    fun _ _ _ hx hwr => next_act_congr (Hub.bridgeTake_of_find hx (by simp [hwr]) _),
    fun _ => rfl, fun _ _ _ _ => rfl, ?_, fun _ _ _ hx => next_act_congr (Hub.bridgeTake_of_find hx (by simp) _)⟩ <;>
    intros <;> exact next_act_when (by simp [*])

/-- Settles O46: every command stands under its event's condition. -/
theorem displayAndMemoryControllerCommandsComplete : Obligations.DisplayAndMemoryControllerCommandsComplete := by
  unfold Obligations.DisplayAndMemoryControllerCommandsComplete
  and_intros <;> intros <;> exact next_act_when (by simp [*])

/-- Settles O47: every command stands under its event's condition. -/
theorem dmaCommandsComplete : Obligations.DmaCommandsComplete := by
  refine ⟨fun _ _ _ hc hon => next_actAll_congr (if_pos (by simp [hc, hon])), ?_, ?_, ?_, ?_, ?_, ?_, ?_, ?_, ?_, ?_, ?_⟩ <;>
    intros <;> exact next_act_when (by simp [*])

end Sys2Proof.Machine
end

section
/-!
PROOFS. Completion of the commands of USB, cables, power and the test port.
-/

namespace Sys2Proof.Machine

open Sys2Proof

/-- Settles O48: every command stands under its event's condition. -/
theorem usbCommandsComplete : Obligations.UsbCommandsComplete := by
  unfold Obligations.UsbCommandsComplete
  and_intros <;> intros <;> exact next_act_when (by simp [*])

/-- Settles O49: every conditional command stands under its event's condition. -/
theorem cableAndPdCommandsComplete : Obligations.CableAndPdCommandsComplete := by
  refine ⟨?_, ?_, ?_, ?_, ?_, ?_, ?_, ?_, ?_, ?_, ?_, ?_, ?_, ?_, ?_, ?_, ?_, ?_, fun _ _ _ => rfl, ?_, ?_⟩ <;> intros <;>
    exact next_act_when (by simp [*])

/-- Settles O50: every conditional command stands under its event's condition. -/
theorem powerStageCommandsComplete : Obligations.PowerStageCommandsComplete := by
  refine ⟨?_, ?_, fun _ => rfl, fun _ => rfl, fun _ => rfl, ?_, fun _ => rfl, fun _ => rfl, fun _ => rfl, ?_, ?_, ?_,
    fun _ _ => rfl, ?_, ?_, fun _ _ => rfl, fun _ _ => rfl, fun _ _ _ => rfl, fun _ _ => rfl, fun _ _ => rfl,
    fun _ _ => rfl, ?_, ?_, ?_, ?_, ?_⟩ <;> intros <;> exact next_act_when (by simp [*])

/-- Settles O51: a doorbell stands under the master's number, the rest is unconditional. -/
theorem powerStateAndSmbusCommandsComplete : Obligations.PowerStateAndSmbusCommandsComplete :=
  ⟨fun _ _ _ _ => rfl, fun _ _ _ _ => rfl, fun _ => rfl, fun _ _ _ => rfl, fun _ => rfl, fun _ => rfl,
    fun _ _ _ _ _ hm => next_act_when (by simp [hm]), fun _ _ _ => rfl, fun _ _ _ => rfl, fun _ _ _ => rfl, fun _ => rfl,
    fun _ => rfl⟩

/-- Settles O52: each command is its operation, without a condition. -/
theorem testPortCommandsComplete : Obligations.TestPortCommandsComplete := by
  unfold Obligations.TestPortCommandsComplete
  and_intros <;> intros <;> rfl

end Sys2Proof.Machine
end

section
/-!
PROOFS. Completion of the mailbox commands.
-/

namespace Sys2Proof.Machine

open Sys2Proof

section Served
variable {s : State} {m op : Nat}

/-- A command that the firmware serves is answered by its operation. -/
theorem State.run_of_serves {f : Hub → Ans × Hub} (hs : s.hub.serves m op = true) :
    s.run m op f = s.act fun h => h.answered m op f :=
  (if_neg (by simp [hs])).trans (State.act_congr rfl)

theorem State.runParked_of_serves {p : Parked} {f : Hub → Ans × Hub} (hs : s.hub.serves m op = true)
    (hfree : (s.hub.serving m).objectBusy p = false) :
    s.runParked m op p f = s.act fun h => h.answeredOrParked m op p f :=
  (if_neg (by simp [hs])).trans (State.act_congr (by simp [Hub.answeredOrParked, hfree]))

theorem State.runAll_of_serves {f : State → Ans × State} (hs : s.hub.serves m op = true) :
    s.runAll m op f = s.actAll fun t => t.answeredAll m op f :=
  (if_neg (by simp [hs])).trans (State.actAll_congr rfl)

theorem State.runPatch_of_serves {f : State → Ans × Parked × State} (hs : s.hub.serves m op = true) :
    s.runPatch m op f = s.actAll fun t => t.answeredPatch m op f :=
  (if_neg (by simp [hs])).trans (State.actAll_congr rfl)

theorem State.resetHost_of_serves (who : Nat) (hs : s.hub.serves m 0x0104 = true) :
    s.resetHost m who = s.act fun h =>
      let r := (h.serving m).askHost m who
      r.2.completeWith m 0x0104 r.1 (m == who && r.1.status == stOk) (resetGens r.1) :=
  (if_neg (by simp [hs])).trans (State.act_congr rfl)

/-- The answer depends only on what the operation answers while its mailbox is served. -/
theorem Hub.answered_congr {h : Hub} {f g : Hub → Ans × Hub} (hfg : f (h.serving m) = g (h.serving m)) :
    h.answered m op f = h.answered m op g := by
  simp only [Hub.answered, hfg]

theorem next_run (hs : s.hub.serves m op = true) {f : Hub → Ans × Hub} :
    (.next (s.run m op f) : Host.Outcome State Fault Refusal) = .next (s.act fun h => h.answered m op f) :=
  congrArg _ (State.run_of_serves hs)

/-- Operands in the range of their argument block: the check that stands before the operation passes. -/
theorem next_run_within (hs : s.hub.serves m op = true) {c : Bool} {f : Hub → Ans × Hub} (hc : c = true) :
    (.next (s.run m op fun h => h.within c f) : Host.Outcome State Fault Refusal) =
      .next (s.act fun h => h.answered m op f) := by
  subst hc; exact next_run hs

theorem next_runFree (hs : s.hub.serves m op = true) {p : Parked} (hfree : (s.hub.serving m).objectBusy p = false)
    {f : Hub → Ans × Hub} :
    (.next (s.runFree m op p f) : Host.Outcome State Fault Refusal) = .next (s.act fun h => h.answered m op f) :=
  (next_run hs).trans (next_act_congr (Hub.answered_congr (by simp [hfree])))

theorem next_runFree_within (hs : s.hub.serves m op = true) {p : Parked}
    (hfree : (s.hub.serving m).objectBusy p = false) {c : Bool} {f : Hub → Ans × Hub} (hc : c = true) :
    (.next (s.runFree m op p fun h => h.within c f) : Host.Outcome State Fault Refusal) =
      .next (s.act fun h => h.answered m op f) := by
  subst hc; exact next_runFree hs hfree

theorem next_runParked (hs : s.hub.serves m op = true) {p : Parked} (hfree : (s.hub.serving m).objectBusy p = false)
    {f : Hub → Ans × Hub} :
    (.next (s.runParked m op p f) : Host.Outcome State Fault Refusal) =
      .next (s.act fun h => h.answeredOrParked m op p f) :=
  congrArg _ (State.runParked_of_serves hs hfree)

theorem next_runParked_within (hs : s.hub.serves m op = true) {p : Parked}
    (hfree : (s.hub.serving m).objectBusy p = false) {c : Bool} {f : Hub → Ans × Hub} (hc : c = true) :
    (.next (s.runParked m op p fun h => h.within c f) : Host.Outcome State Fault Refusal) =
      .next (s.act fun h => h.answeredOrParked m op p f) := by
  subst hc; exact next_runParked hs hfree

theorem next_runAll_within (hs : s.hub.serves m op = true) {c : Bool} {f : State → Ans × State} (hc : c = true) :
    (.next (s.runAll m op fun s => s.within c f) : Host.Outcome State Fault Refusal) =
      .next (s.actAll fun t => t.answeredAll m op f) := by
  subst hc; exact congrArg _ (State.runAll_of_serves hs)

theorem next_runPatch_of_range (hs : s.hub.serves m op = true) {c : Bool} {f g : State → Ans × Parked × State}
    (hc : c = true) :
    (.next (s.runPatch m op fun s => if c then f s else g s) : Host.Outcome State Fault Refusal) =
      .next (s.actAll fun t => t.answeredPatch m op f) := by
  subst hc; exact congrArg _ (State.runPatch_of_serves hs)

end Served

/-- Settles O53: a served command with operands in range is answered by its operation. -/
theorem sysAndGateCommandsComplete : Obligations.SysAndGateCommandsComplete := by
  refine ⟨fun _ _ hs => next_run hs, fun _ _ hs => next_run hs, fun _ _ _ hs hpo => next_run_within hs hpo,
    fun _ _ hs => next_run hs, fun _ _ _ _ hs => next_run hs, fun _ _ hs => next_run hs,
    fun _ who _ hs => congrArg Host.Outcome.next (State.resetHost_of_serves who hs), fun _ _ _ hs => next_run hs,
    ?_, fun _ _ _ hs => next_run hs⟩
  rintro _ _ _ (_ | _) _ hs hw <;> exact next_run_within hs hw

/-- Settles O54: a served command with operands in range is answered by its operation. -/
theorem tunnelAndPlanCommandsComplete : Obligations.TunnelAndPlanCommandsComplete := by
  refine ⟨?_, ?_, ?_, ?_, fun _ _ hs => next_run hs, ?_, ?_, ?_, ?_, ?_⟩ <;> intros <;>
    exact next_run_within ‹_› (by simp_all)

/-- Settles O55: a served command with operands in range is answered by its operation. -/
theorem portTickAndTimeSyncCommandsComplete : Obligations.PortTickAndTimeSyncCommandsComplete := by
  refine ⟨?_, ?_, fun _ _ _ hs => next_run hs, fun _ _ _ hs => next_run hs, fun _ _ _ _ _ _ hs => next_run hs,
    fun _ _ _ _ hs hfree => next_runParked hs hfree, fun _ _ _ _ hs hfree => next_runFree hs hfree, ?_,
    fun _ _ _ _ hs => next_run hs, ?_, ?_⟩ <;> intros <;> exact next_run_within ‹_› (by simp_all)

/-- Settles O56: a served command with operands in range is answered by its operation. -/
theorem pwrCommandsComplete : Obligations.PwrCommandsComplete := by
  unfold Obligations.PwrCommandsComplete
  and_intros <;> intros <;> exact next_run_within ‹_› (by simp [*])

/-- Settles O57: a served command with operands in range is answered by its operation. -/
theorem pdMailboxCommandsComplete : Obligations.PdMailboxCommandsComplete := by
  refine ⟨fun _ _ _ _ hs hfree hn hws => next_runParked_within hs hfree (by simp [hn, hws]), ?_⟩
  and_intros <;> intros <;> exact next_runFree_within ‹_› ‹_› (by simp [*])

/-- Settles O58: a served command with operands in range is answered by its operation. -/
theorem rasterAndDmaMailboxCommandsComplete : Obligations.RasterAndDmaMailboxCommandsComplete := by
  refine ⟨?setup, fun _ _ _ _ hs hfree hn hd => next_runFree_within hs hfree (by simp [hn, hd]),
    fun _ _ _ _ _ hs hfree hn => next_runFree_within hs hfree (by simp [hn]),
    fun _ _ _ hs hfree hn => next_runFree_within hs hfree (by simp [hn]),
    fun _ _ _ hs hfree hn => next_runFree_within hs hfree (by simp [hn]),
    fun _ _ _ _ _ _ _ _ hs hc hb ha => next_runAll_within hs (by simp_all), ?_, ?_, ?_⟩
  case setup =>
    rintro _ _ _ (_ | ⟨d, w⟩) _ hs hfree hn hws hdp <;>
      exact next_runParked_within hs hfree (by simp only [hn, hws, hdp, decide_true, Bool.and_self])
  all_goals intros; exact next_run_within ‹_› (by simp [*])

/-- Settles O59: a served command with operands in range is answered by its operation. -/
theorem usbAndFaultMailboxCommandsComplete : Obligations.UsbAndFaultMailboxCommandsComplete := by
  refine ⟨?_, fun _ _ _ _ _ hs => next_run hs, fun _ _ _ _ hs => next_run hs, fun _ _ _ hs => next_run hs,
    fun _ _ hs => next_run hs, ?_, fun _ _ hs => next_run hs, fun _ _ _ _ _ _ hs => next_run hs, ?_, ?_,
    fun _ _ _ hs => next_run hs, ?_, ?_⟩ <;> intros <;> exact next_run_within ‹_› (by simp [*])

/-- Settles O60: a served command with operands in range is answered by its operation. -/
theorem keyStateAndTestMailboxCommandsComplete : Obligations.KeyStateAndTestMailboxCommandsComplete := by
  refine ⟨?_, fun _ _ _ hs hfree => next_runParked hs hfree, fun _ _ _ hs => next_run hs, ?_,
    fun _ _ _ _ hs haddr => next_runPatch_of_range hs (decide_eq_true haddr),
    fun _ _ _ _ hs hfree ht => next_runParked_within hs hfree (by simp [ht]), ?_, fun _ _ hs => next_run hs,
    fun _ _ _ _ _ _ hs => next_run hs, fun _ _ hs => next_run hs⟩ <;> intros <;>
    exact next_run_within ‹_› (by simp [*])

end Sys2Proof.Machine
end
